-- ==== Sys2Proof/Word.lean ====
section
/-!
DEFINITION. The words of the IL-4580 and their plainest arithmetic: bytes, the 32-bit and 64-bit register
words, the wrapping serials of R624, and the little-endian reading and writing of R46.
-/
namespace Sys2Proof

/-- One byte of memory or of a frame. -/
abbrev Byte := BitVec 8

/-- A 32-bit word: one register access (R16), or a wrapping serial (R624). -/
abbrev W32 := BitVec 32

/-- A 64-bit word: the widest register of R16, or a tape word of R148. -/
abbrev W64 := BitVec 64

/-- The little-endian number that a list of bytes holds (R46). -/
def leNat : List Byte → Nat
  | [] => 0
  | b :: bs => b.toNat + 256 * leNat bs

/-- The `n` little-endian bytes of a number (R46). -/
def natLE : Nat → Nat → List Byte
  | 0, _ => []
  | n + 1, v => BitVec.ofNat 8 v :: natLE n (v / 256)

/-- The big-endian number that a list of bytes holds (the network order of R112). -/
def beNat (bs : List Byte) : Nat := leNat bs.reverse

/-- The `n` big-endian bytes of a number. -/
def natBE (n v : Nat) : List Byte := (natLE n v).reverse

/-- Bits `[hi:lo]` of a number, as the register tables write them (R17). -/
def bits (v hi lo : Nat) : Nat := (v / 2 ^ lo) % 2 ^ (hi + 1 - lo)

/-- Bit `i` of a number. -/
def bit (v i : Nat) : Bool := (v / 2 ^ i) % 2 == 1

/-- `v` with bits `[hi:lo]` replaced by the low bits of `x`. -/
def setBits (v hi lo x : Nat) : Nat :=
  v - bits v hi lo * 2 ^ lo + (x % 2 ^ (hi + 1 - lo)) * 2 ^ lo

/-- 1 for a set bit, 0 for a clear one. -/
def b2n (b : Bool) : Nat := if b then 1 else 0

/-- R624: serial `a` is at or after serial `b` (32 bits). -/
def atOrAfter (a b : W32) : Bool := (a - b).toNat < 2 ^ 31

/-- R166: RAISE. The counter takes the value when the value lies 1 to 2^31 − 1 ahead of it. -/
def raiseTo (c v : W32) : W32 := if 1 ≤ (v - c).toNat ∧ (v - c).toNat < 2 ^ 31 then v else c

/-- The quotient rounded toward plus infinity. -/
def ceilDiv (a b : Nat) : Nat := (a + b - 1) / b

/-- ASCII text as bytes. -/
def ascii (t : List Nat) : List Byte := t.map (BitVec.ofNat 8)

/-- A slice of a list: `n` elements from position `i`. -/
def slice {α : Type} (l : List α) (i n : Nat) : List α := (l.drop i).take n

/-- The little-endian field of `n` bytes at offset `i`. -/
def fld (l : List Byte) (i n : Nat) : Nat := leNat (slice l i n)

/-- Every byte of `n` bytes from offset `i` is zero (a reserved field). -/
def zeroAt (l : List Byte) (i n : Nat) : Bool := (slice l i n).all (· == 0)

/-- The list cut into runs of `n` elements (the last may be shorter), `fuel` runs at most. -/
def chunksOf {α : Type} (n : Nat) : Nat → List α → List (List α)
  | 0, _ => []
  | fuel + 1, l => if l.isEmpty then [] else l.take n :: chunksOf n fuel (l.drop n)

end Sys2Proof
end

