-- ==== Sys2Proof/Config.lean ====
section
/-!
DEFINITION. What the manual leaves open, as opaque constants: nothing in Lean can evaluate them, so every
proved claim holds for every value of them. Each is named in a row of notes/assumptions.
-/
namespace Sys2Proof

/-- FREE VALUE (log 3): a fresh natural number for each draw; `State.free` numbers the draws. -/
opaque Config.freeNat : Nat → Nat

/-- FREE VALUE (log 3): a fresh byte, by draw number and position in the area. -/
opaque Config.freeByte : Nat → Nat → Byte

/-- FREE VALUE (log 4): the conditioned random bytes of R575, by draw number and position. -/
opaque Config.randomByte : Nat → Nat → Byte

/-- FREE VALUE (log 8): which of several equally eligible resources a block takes where no rule names one. -/
opaque Config.choose : Nat → Nat

/-- FREE VALUE (log 5): the 16-byte device serial that Gwesol burns (R573). -/
opaque Config.serialByte : Nat → Byte

/-- FREE VALUE (log 5): the 60-byte attestation public key derived from the device secret (R582). -/
opaque Config.pubkeyByte : Nat → Byte

/-- FREE VALUE (log 9): the bytes of the HSS signature of R582, made with a secret derived from DUS, by
Tally bit, leaf, byte position and signed body. -/
opaque Config.hssSign : Nat → Nat → Nat → List Byte → Byte

/-- FREE VALUE (log 9): ML-KEM-768 key generation of FIPS 203: byte `i` of the encapsulation key of the
`n`-th key pair. -/
opaque Config.kemPublic : Nat → Nat → Byte

/-- FREE VALUE (log 9): ML-KEM-768 decapsulation with the `n`-th key pair: byte `i` of the shared secret. -/
opaque Config.kemShared : Nat → List Byte → Nat → Byte

/-- FREE VALUE (log 10): on which side of the integer a feature code of R462 falls, where 2 × log2 E lies within the
2^−10 of it that the rule leaves to the part, by the frame's samples and the bin range. -/
opaque Config.featureSide : List Int → Nat → Nat → Bool

/-- FREE VALUE (log 66): the sample a decimator of R452 delivers, by the bits of its latest 37 sample periods, newest
period first. -/
opaque Config.decimated : List (List Bool) → BitVec 16

end Sys2Proof
end

