-- ==== Sys2Proof/Syntax.lean ====
section
/-!
DEFINITION. The commands of the IL-4580: one constructor per row of spec/opcode_table.json, in its order.
A message command (ECHO to DM_ABORT, and the register writes that have a step of their own) is one accepted
request being performed; it carries the role and the request id of its frame (R640). A tape command names
the engine whose strand meets it: the words are read from the tape area. An event names the unit it happens
to, and carries what the environment alone decides or measures.
-/
namespace Sys2Proof

/-- The roles of R578 and R640: field session 0 to 7, the owner session (8), the open role (0x0F). -/
inductive Role where
  | field (f : Fin 8)
  | owner
  | anon
  deriving DecidableEq, Repr

/-- The ROLE byte of R640. -/
def Role.code : Role → Nat
  | .field f => f.val
  | .owner => 8
  | .anon => 0x0F

/-- The role a ROLE byte names (R640); any other code names none. -/
def Role.ofCode (c : Nat) : Option Role :=
  if h : c < 8 then some (.field ⟨c, h⟩)
  else if c = 8 then some .owner
  else if c = 0x0F then some .anon
  else none

/-- One Retus message: the header of R557 and the payload. `arg` is the little-endian value of its bytes
10 to 15. -/
structure LinkMsg where
  /-- TYPE of R558. -/
  typ : Nat
  /-- FLAGS [2:0]. -/
  field : Nat
  /-- FLAGS [3]: owner traffic. -/
  own : Bool
  /-- FLAGS [4]: the virtual lane. -/
  vl : Bool
  /-- DST, a device id. -/
  dst : Nat
  /-- SRC, a device id. -/
  src : Nat
  /-- LEN: payload bytes, or bytes asked for. -/
  len : Nat
  /-- TAG. -/
  tag : Nat
  /-- ARG, bytes 10 to 15. -/
  arg : Nat
  /-- The payload. -/
  payload : List Byte
  deriving DecidableEq, Repr

/-- The commands (R5 to R694), one per row of the table. -/
inductive Instr where
  /-- STATUS (R636): STATUS transaction; `inv` is the second command byte of 8D. -/
  | status (inv : Byte)
  /-- FRAME_WRITE (R637): FRAME_WRITE: the address and the bytes driven. -/
  | frameWrite (inv : Byte) (len : Nat) (data : List Byte)
  /-- FRAME_READ (R638): FRAME_READ: the most bytes the host will read. -/
  | frameRead (inv : Byte) (most : Nat)
  /-- MODE (R635): MODE: byte 0 of the data phase. -/
  | mode (inv : Byte) (b0 : Byte)
  /-- ECHO (R644): ECHO with its payload. -/
  | echo (r : Role) (rid : Nat) (data : List Byte)
  /-- REG_READ (R647): REG_READ of `words` words from `addr`. -/
  | regRead (r : Role) (rid addr words : Nat)
  /-- LOW_WORD_READ (R16): the read of the low word of a 64-bit register. -/
  | lowWordRead (r : Role) (rid addr : Nat)
  /-- HIGH_WORD_READ (R16): the read of the high word of a 64-bit register. -/
  | highWordRead (r : Role) (rid addr : Nat)
  /-- REG_WRITE (R647): REG_WRITE of the words from `addr`. -/
  | regWrite (r : Role) (rid addr : Nat) (ws : List W32)
  /-- MEM_READ (R647): MEM_READ of `len` bytes at the aperture offset. -/
  | memRead (r : Role) (rid off len : Nat)
  /-- MEM_WRITE (R647): MEM_WRITE. -/
  | memWrite (r : Role) (rid off len : Nat) (data : List Byte)
  /-- APERTURE (R647): APERTURE. -/
  | aperture (r : Role) (rid base : Nat)
  /-- HOST_CLAIM (R649): HOST_CLAIM: rung code 0 to 5, or 0xFF to clear. -/
  | hostClaim (r : Role) (rid rung : Nat)
  /-- HAIL (R649): the host's HAIL message. -/
  | hail (r : Role) (rid : Nat)
  /-- RELEASE (R36): the host's RELEASE message. -/
  | release (r : Role) (rid hail : Nat)
  /-- IMG_BEGIN (R657): IMG_BEGIN. -/
  | imgBegin (r : Role) (rid len : Nat)
  /-- COMMONS_ZEROED (R119): zeroing of the commons for a load ends. -/
  | commonsZeroed
  /-- IMG_DATA (R658): IMG_DATA. -/
  | imgData (r : Role) (rid off : Nat) (data : List Byte)
  /-- IMG_TIMEOUT (R658): no IMG_DATA for 1 s. -/
  | imgTimeout
  /-- QUOTE (R587): QUOTE. -/
  | quote (r : Role) (rid : Nat) (nonce : List Byte)
  /-- QUOTE_DONE (R585): signing of the quote in progress completes. -/
  | quoteDone
  /-- KEY_RELEASE (R594): KEY_RELEASE, the bytes of R591. -/
  | keyRelease (r : Role) (rid : Nat) (data : List Byte)
  /-- KEY_DROP (R596): KEY_DROP. -/
  | keyDrop (r : Role) (rid field id : Nat)
  /-- WEIGHT_LOAD (R598): WEIGHT_LOAD, the bytes of R597. -/
  | weightLoad (r : Role) (rid : Nat) (data : List Byte)
  /-- OWNER_SET (R577): OWNER_SET; `rest` is what follows above slot 0. -/
  | ownerSet (r : Role) (rid slot : Nat) (digest rest : List Byte)
  /-- OWNER_BURN_DONE (R577): the owner slot burn and its read-back complete. -/
  | ownerBurnDone
  /-- SD_LOAD (R620): SD_LOAD. -/
  | sdLoad (r : Role) (rid slot off : Nat)
  /-- CTX_OPEN (R419): CTX_OPEN. -/
  | ctxOpen (r : Role) (rid ctx list entries prime : Nat)
  /-- CTX_CLOSE (R419): CTX_CLOSE. -/
  | ctxClose (r : Role) (rid ctx : Nat)
  /-- CLOSE_COMPLETE (R419): a waiting close goes through. -/
  | closeComplete (ctx : Nat)
  /-- JOB_SUBMIT (R419): JOB_SUBMIT. -/
  | jobSubmit (r : Role) (rid ctx entry : Nat)
  /-- JOB_ABORT (R172): JOB_ABORT. -/
  | jobAbort (r : Role) (rid ctx serial : Nat)
  /-- CTX_RESUME (R419): CTX_RESUME. -/
  | ctxResume (r : Role) (rid ctx : Nat) (drain : Bool)
  /-- COUNTER_READ (R648): COUNTER op 0. -/
  | counterRead (r : Role) (rid scope id index : Nat)
  /-- COUNTER_ADD (R648): COUNTER op 1. -/
  | counterAdd (r : Role) (rid scope id index value : Nat)
  /-- COUNTER_RAISE (R648): COUNTER op 2. -/
  | counterRaise (r : Role) (rid scope id index value : Nat)
  /-- KV_INIT (R267): KV_INIT. -/
  | kvInit (r : Role) (rid ctx stage : Nat)
  /-- KV_ADOPT (R267): KV_ADOPT. -/
  | kvAdopt (r : Role) (rid ctx tokaddr ntok tag : Nat)
  /-- KV_PUBLISH (R267): KV_PUBLISH. -/
  | kvPublish (r : Role) (rid ctx tokaddr nblocks tag : Nat)
  /-- KV_TRUNCATE (R267): KV_TRUNCATE. -/
  | kvTruncate (r : Role) (rid ctx t : Nat)
  /-- KV_FREE (R267): KV_FREE. -/
  | kvFree (r : Role) (rid ctx : Nat)
  /-- KV_PRUNE (R267): KV_PRUNE. -/
  | kvPrune (r : Role) (rid field : Nat)
  /-- KV_FORK (R267): KV_FORK. -/
  | kvFork (r : Role) (rid src dst t : Nat)
  /-- KV_LOAD (R271): KV_LOAD. -/
  | kvLoad (r : Role) (rid ctx k addr : Nat)
  /-- ST_INIT (R308): ST_INIT. -/
  | stInit (r : Role) (rid ctx nslot swap : Nat)
  /-- ST_RESET (R308): ST_RESET. -/
  | stReset (r : Role) (rid ctx : Nat)
  /-- ST_EVICT (R308): ST_EVICT. -/
  | stEvict (r : Role) (rid ctx : Nat)
  /-- ST_FREE (R308): ST_FREE. -/
  | stFree (r : Role) (rid ctx : Nat)
  /-- TU_MAP (R387): TU_MAP. -/
  | tuMap (r : Role) (rid field obj ua pages hint flags back backdev : Nat)
  /-- TU_UNMAP (R387): TU_UNMAP. -/
  | tuUnmap (r : Role) (rid field obj : Nat)
  /-- TU_HINT (R387): TU_HINT. -/
  | tuHint (r : Role) (rid field obj hint : Nat)
  /-- TU_PLACE (R387): TU_PLACE. -/
  | tuPlace (r : Role) (rid field ua pages home : Nat)
  /-- TU_PIN (R373): TU_PIN. -/
  | tuPin (r : Role) (rid field ua pages : Nat)
  /-- TU_UNPIN (R387): TU_UNPIN. -/
  | tuUnpin (r : Role) (rid field ua pages : Nat)
  /-- TU_EVACUATE (R357): TU_EVACUATE. -/
  | tuEvacuate (r : Role) (rid n : Nat)
  /-- TU_SOW (R385): TU_SOW. -/
  | tuSow (r : Role) (rid ctx list entries : Nat)
  /-- DM_START (R397): a host start of a DM channel. -/
  | dmStart (r : Role) (rid ch : Nat)
  /-- DM_ABORT (R409): a DM abort. -/
  | dmAbort (r : Role) (rid ch : Nat)
  /-- EVENTS_LOST (R652): the outbound queue has room again. -/
  | eventsLost
  /-- QU_CLEAR (R106): a write to one word of QU.CLEAR. -/
  | quClear (r : Role) (rid eng : Nat) (hi : Bool) (v : W32)
  /-- QU_WATCH_WRITE (R99): a write to QU.WATCHn, n below 64, or to QU.CTL, n = 64. -/
  | quWatchWrite (r : Role) (rid eng n : Nat) (hi : Bool) (v : W32)
  /-- ME_DGRP_WRITE (R200): a write to ME.DGRPn, or ME.DPEERn with `peer`. -/
  | meDgrpWrite (r : Role) (rid eng n : Nat) (peer hi : Bool) (v : W32)
  /-- KM_MODE_WRITE (R270): a write to KM.CTL. -/
  | kmModeWrite (r : Role) (rid : Nat) (v : W32)
  /-- AF_BEAM_COMMIT (R457): a write to AF.BEAMCTL. -/
  | afBeamCommit (r : Role) (rid : Nat) (v : W32)
  /-- AF_CFG_WRITE (R478): a write to AF.CFG. -/
  | afCfgWrite (r : Role) (rid : Nat) (v : W32)
  /-- MC_RETRAIN (R661): a write to MC.TRAIN. -/
  | mcRetrain (r : Role) (rid : Nat) (v : W32)
  /-- TU_NBR_WRITE (R357): a write to TU.NBRn. -/
  | tuNbrWrite (r : Role) (rid n : Nat) (hi : Bool) (v : W32)
  /-- TU_LEND_WRITE (R355): a write to TU.LEND. -/
  | tuLendWrite (r : Role) (rid : Nat) (v : W32)
  /-- LX_EN_WRITE (R570): a write to LX.CTL. -/
  | lxEnWrite (r : Role) (rid port : Nat) (v : W32)
  /-- LX_ID_WRITE (R570): a write to LX.ID. -/
  | lxIdWrite (r : Role) (rid : Nat) (hi : Bool) (v : W32)
  /-- DM_CFG_WRITE (R415): a write to CFG (0), SRC (1) or DST (2). -/
  | dmCfgWrite (r : Role) (rid ch which : Nat) (hi : Bool) (v : W32)
  /-- DM_TIMER_WRITE (R398): a write to TIMER. -/
  | dmTimerWrite (r : Role) (rid ch : Nat) (hi : Bool) (v : W32)
  /-- IP_GATE_WRITE (R504): a write to IP.GATE, or IP.GATEENTRY with `entry`. -/
  | ipGateWrite (r : Role) (rid : Nat) (entry hi : Bool) (v : W32)
  /-- IP_PORT_CTL_WRITE (R508): a write to IP.PORTp.CTL. -/
  | ipPortCtlWrite (r : Role) (rid port : Nat) (v : W32)
  /-- FC_CLEAR (R631): a write to FC.CLEAR. -/
  | fcClear (r : Role) (rid : Nat) (hi : Bool) (v : W32)
  /-- FC_FORCE (R607): a write to FC.FORCE. -/
  | fcForce (r : Role) (rid : Nat) (hi : Bool) (v : W32)
  /-- FC_FENCE_SET (R613): a write to FC.FENCE whose SET bits fence engines. -/
  | fcFenceSet (r : Role) (rid : Nat) (v : W32)
  /-- FC_FENCE_RETURN (R613): a write to FC.FENCE whose ENGINE bits return engines. -/
  | fcFenceReturn (r : Role) (rid : Nat) (v : W32)
  /-- FC_BLOCK_RESET (R614): a write of FC.RESET with KIND 0. -/
  | fcBlockReset (r : Role) (rid target : Nat)
  /-- FC_FIELD_RESET (R616): a write of FC.RESET with KIND 1. -/
  | fcFieldReset (r : Role) (rid field : Nat)
  /-- FC_SAFE (R617): a write of 1 to FC.CTL.SAFE. -/
  | fcSafe (r : Role) (rid : Nat)
  /-- WP_FIRE (R627): a write of 1 to WP.CTL.FIRE, the rest of WP.CTL written as it stands. -/
  | wpFire (r : Role) (rid : Nat)
  /-- WP_ARM (R627): a write of 1 to WP.CTL.ARM, with SDTRIG as given. -/
  | wpArm (r : Role) (rid : Nat) (sdtrig : Bool)
  /-- INJECT_ARM (R607): a write to the INJECT register of a block. -/
  | injectArm (r : Role) (rid block : Nat) (v : W32)
  /-- NOP (R149): tape NOP, met by the strand that the engine holds. -/
  | nop (eng : Nat)
  /-- STEP (R161): tape STEP. -/
  | step (eng : Nat)
  /-- COMMIT (R164): tape COMMIT. -/
  | commit (eng : Nat)
  /-- END (R159): tape END. -/
  | endd (eng : Nat)
  /-- NEXT (R159): tape NEXT. -/
  | next (eng : Nat)
  /-- SPAWN (R160): tape SPAWN. -/
  | spawn (eng : Nat)
  /-- JUMP (R157): tape JUMP. -/
  | jump (eng : Nat)
  /-- WAIT (R166): tape WAIT. -/
  | wait (eng : Nat)
  /-- WAIT_SATISFIED (R166): the strand's wait is satisfied. -/
  | waitSatisfied (ctx sid : Nat)
  /-- SIGNAL_ADD (R166): tape SIGNAL with ADD. -/
  | signalAdd (eng : Nat)
  /-- SIGNAL_RAISE (R166): tape SIGNAL with RAISE. -/
  | signalRaise (eng : Nat)
  /-- FENCE (R169): tape FENCE. -/
  | fence (eng : Nat)
  /-- FENCE_COMPLETE (R169): the strand's earlier writes are complete. -/
  | fenceComplete (ctx sid : Nat)
  /-- TAPE_HAIL (R163): tape HAIL. -/
  | tapeHail (eng : Nat)
  /-- TAPE_RELEASE (R163): tape RELEASE. -/
  | tapeRelease (eng : Nat)
  /-- EVENT (R163): tape EVENT. -/
  | event (eng : Nat)
  /-- TRIGGER (R397): tape TRIGGER. -/
  | trigger (eng : Nat)
  /-- GATE (R186): matrix GATE, met by the strand that the engine holds. -/
  | gate (eng : Nat)
  /-- ADD (R186): matrix ADD. -/
  | add (eng : Nat)
  /-- PROJ (R183): matrix PROJ. -/
  | proj (eng : Nat)
  /-- SUMQ (R186): matrix SUMQ. -/
  | sumq (eng : Nat)
  /-- RMSNORM (R187): matrix RMSNORM. -/
  | rmsnorm (eng : Nat)
  /-- OUTER (R195): matrix OUTER. -/
  | outer (eng : Nat)
  /-- UPDATE (R196): matrix UPDATE. -/
  | update (eng : Nat)
  /-- DIGEST (R198): matrix DIGEST. -/
  | digest (eng : Nat)
  /-- DIGEST_VERDICT (R199): every peer digest has arrived or TIMEOUT has passed. -/
  | digestVerdict (group : Nat)
  /-- ATTEND (R215): attention ATTEND. -/
  | attend (eng : Nat)
  /-- APPEND (R229): attention APPEND. -/
  | append (eng : Nat)
  /-- SCAN (R294): state SCAN. -/
  | scan (eng : Nat)
  /-- HOLD (R299): state HOLD. -/
  | hold (eng : Nat)
  /-- CONV (R323): window CONV. -/
  | conv (eng : Nat)
  /-- POOL (R324): window POOL. -/
  | pool (eng : Nat)
  /-- ECONV (R323): edge ECONV. -/
  | econv (eng : Nat)
  /-- COMMAND_END (R192): the running command completes; `waited` is the F-cycles its waits took. -/
  | commandEnd (eng waited : Nat)
  /-- STRAND_SUSPEND (R154): the strand asked to yield reaches a preemption point. -/
  | strandSuspend (eng : Nat)
  /-- PLACE_STRAND (R424): DX places one strand. -/
  | placeStrand
  /-- COMMIT_TAKEN (R164): the commit point takes the commit request at its queue's head. -/
  | commitTaken
  /-- COMPLETION_TAKEN (R172): the commit point takes the completion request at its queue's head. -/
  | completionTaken
  /-- ABORT_TAKEN (R173): the commit point takes the abort at its queue's head. -/
  | abortTaken
  /-- JOB_REPORT (R171): the context's finished or aborted job reports. -/
  | jobReport (ctx : Nat)
  /-- JOB_START (R421): the context's next queued job starts. -/
  | jobStart (ctx : Nat)
  /-- STEP_REPLAY (R162): the abandoned attempt has stopped and the step restarts. -/
  | stepReplay (ctx : Nat)
  /-- QUANTUM_EXPIRY (R426): the strand has held the engine for QUANTUM. -/
  | quantumExpiry (eng : Nat)
  /-- BOUND_OVERRUN (R434): an uninterruptible run passes its BOUND. -/
  | boundOverrun (eng : Nat)
  /-- SLOT_START (R431): the next isolated slot opens. -/
  | slotStart
  /-- GUARD_OPEN (R432): the slot's guard opens. -/
  | guardOpen
  /-- WATCHDOG (R433): 32 F-cycles before the slot ends. -/
  | watchdog
  /-- SWITCH_BIND (R427): DX binds the furrow to the context waiting first in SWITCH. -/
  | switchBind
  /-- SWITCH_HOLD_EXPIRY (R428): a context has waited SWITCH_HOLD ms in SWITCH. -/
  | switchHoldExpiry
  /-- DERATE (R440): one second has passed; `level` is its average derate. -/
  | derate (level : Nat)
  /-- HALO_ROW_RAISE (R328): an output row of a command with CN completes. -/
  | haloRowRaise (eng row : Nat)
  /-- HALO_PUSH (R330): a completed pushed row is sent. -/
  | haloPush (eng : Nat) (high : Bool) (row : Nat)
  /-- PUSH_ACKED (R330): the pushed rows up to `row` are acknowledged. -/
  | pushAcked (eng : Nat) (high : Bool) (row : Nat)
  /-- SEGMENT_FILLED (R381): a furrow fill finishes. -/
  | segmentFilled (seg : Nat)
  /-- FURROW_FILL_START (R381): TU starts the next sowing entry. -/
  | furrowFillStart
  /-- WALKER_BLOCK (R224): the walker supplies a 64-token block. -/
  | walkerBlock (eng block : Nat)
  /-- FLUSH_COPY_DONE (R254): a flush copy is complete at all-memory scope. -/
  | flushCopyDone (ctx : Nat)
  /-- HELD_EDIT_APPLY (R259): the last walk has closed. -/
  | heldEditApply (ctx : Nat)
  /-- SWAP_OUT (R306): SE performs the swap-out at the head of its swap path. -/
  | swapOut
  /-- SWAP_IN (R306): SE performs the swap-in at the head of its swap path; `lost` when its area has no clean copy. -/
  | swapIn (lost : Bool)
  /-- MIGRATION_START (R371): a pending page migration starts. -/
  | migrationStart (field page : Nat)
  /-- MIGRATION_SWITCH (R370): a migration copy completes. -/
  | migrationSwitch (field page : Nat)
  /-- LEASE_RETURN (R372): the reader that holds the lease returns it. -/
  | leaseReturn (index : Nat)
  /-- POISON_BLOCK (R374): an uncorrectable block is delivered to TU. -/
  | poisonBlock (field ua : Nat)
  /-- REFETCH_DONE (R375): a refetch ends, with the clean block or without one. -/
  | refetchDone (field ua : Nat) (clean : Option (List Byte))
  /-- DM_LIST_CHECK (R401): the pre-pass of the run reads both lists. -/
  | dmListCheck (ch : Nat)
  /-- DM_ACCESS_ERROR (R408): an access of the run ends with an error after `done` bytes were written. -/
  | dmAccessError (ch code done : Nat)
  /-- DM_RUN_COMPLETE (R407): every write of the run has been answered. -/
  | dmRunComplete (ch : Nat)
  /-- DM_TIMER_EXPIRY (R398): the channel's timer expires. -/
  | dmTimerExpiry (ch : Nat)
  /-- DRAM_STARTUP_STAGE (R659): a GDDR6 start-up stage ends; `fail` masks the channels that failed three times, `usec` the time from stage 2. -/
  | dramStartupStage (fail usec : Nat)
  /-- LINK_FRAME (R546): a codeword arrives. -/
  | linkFrame (port : Nat) (decoded corrected : Bool) (hdr crc : Nat) (body : List Byte)
  /-- HELLO (R549): a HELLO unit arrives. -/
  | hello (port system devid pport rev pm1 qm1 : Nat)
  /-- LACK (R546): a LACK unit arrives. -/
  | lack (port count : Nat)
  /-- LNAK (R546): an LNAK unit arrives. -/
  | lnak (port num : Nat)
  /-- CRED (R565): a CRED unit arrives: pool and units. -/
  | cred (port : Nat) (returns : List (Nat × Nat))
  /-- BYE (R550): a BYE unit arrives. -/
  | bye (port : Nat)
  /-- MRD (R559): an MRD message is delivered here. -/
  | mrd (port : Nat) (m : LinkMsg)
  /-- MWR (R559): an MWR message is delivered here. -/
  | mwr (port : Nat) (m : LinkMsg)
  /-- URD (R559): a URD message is delivered here. -/
  | urd (port : Nat) (m : LinkMsg)
  /-- EVT (R559): an EVT message is delivered here. -/
  | evt (port : Nat) (m : LinkMsg)
  /-- DIG (R559): a DIG message is delivered here. -/
  | dig (port : Nat) (m : LinkMsg)
  /-- WAKE (R559): a WAKE message is delivered here. -/
  | wake (port : Nat) (m : LinkMsg)
  /-- RDATA (R562): an RDATA response is delivered here. -/
  | rdata (port : Nat) (m : LinkMsg)
  /-- WACK (R561): a WACK response is delivered here. -/
  | wack (port : Nat) (m : LinkMsg)
  /-- PORT_DOWN (R550): signal or lock is lost, or 32 LNAKs named one frame. -/
  | portDown (port : Nat)
  /-- PRBS_DETECT (R548): the partner's PRBS13 is detected. -/
  | prbsDetect (port : Nat)
  /-- TRAINING_DONE (R548): training ends, or times out. -/
  | trainingDone (port : Nat) (ok : Bool)
  /-- LINK_WAKING (R566): a message waits for a port in DOWN or SLEEPING. -/
  | linkWaking (port : Nat)
  /-- WAKE_LIMIT_EXPIRY (R566): a waking port is not UP within WAKEMS. -/
  | wakeLimitExpiry (port : Nat)
  /-- LINK_TIMEOUT (R563): a request has waited TIMEOUT µs. -/
  | linkTimeout (tag : Nat)
  /-- WAKE_PATTERN (R530): the wake detector of a stopped port detects the pattern. -/
  | wakePattern (port : Nat)
  /-- AF_SAMPLE (R449, R453): AF produces the next sample; the levels of PDM_D0 to PDM_D3 at the clock edges of its period,
  rising edge first. -/
  | afSample (pins : List (List Bool))
  /-- LO_FRAME (R464): a slot-0 Lookout frame is computed. -/
  | loFrame
  /-- LO_SESSION_FRAME (R465): a slot-1 session frame is computed. -/
  | loSessionFrame
  /-- SERVE_HAIL (R30): PW serves the next raised hail. -/
  | serveHail
  /-- HOLD_EXPIRY (R38): the claim's hold timer expires. -/
  | holdExpiry (hail : Nat)
  /-- WAKE_TIMER (R527): the island wake timer expires. -/
  | wakeTimer
  /-- WAKE_N_LOW (R529): a sample finds WAKE_N low. -/
  | wakeNLow
  /-- WAKE_N_EDGE (R529): a falling edge on WAKE_N. -/
  | wakeNEdge
  /-- IDLE_TIMER_EXPIRY (R514): the idle timer of the current rung expires. -/
  | idleTimerExpiry
  /-- ENTRY_WINDOW (R516): the entry's window ends. -/
  | entryWindow
  /-- ENTRY_ABANDON (R518): the entry in progress is abandoned. -/
  | entryAbandon
  /-- CLIMB_STEP (R525): one step of a climb completes. -/
  | climbStep
  /-- BANK_ZEROED (R522): a bank finishes zeroing. -/
  | bankZeroed (bank : Nat)
  /-- POWER_SAMPLE (R533): PW samples device power and junction temperature. -/
  | powerSample (milliwatts : Nat) (tj : Int)
  /-- TELEM_UPDATE (R599): the 100 ms averages are taken. -/
  | telemUpdate (milliwatts : Nat) (tj : Int)
  /-- COLD_BOOT (R655): a cold boot: by power-on or RESET_N, or by the exit from Fallow. -/
  | coldBoot (fallow : Bool)
  /-- RAIL_DROOP (R535): a condition of PW.ERR bit `check` is detected. -/
  | railDroop (check : Nat)
  /-- CLOCK_LOSS (R680): a clock loss of CK.ERR bit `check` is detected. -/
  | clockLoss (check : Nat)
  /-- RELOCK_ATTEMPT (R681): CK retries lock; `long` when the stop lasted more than 12 µs. -/
  | relockAttempt (ok long : Bool)
  /-- RELOCK_GIVE_UP (R681): 1 ms has passed without lock. -/
  | relockGiveUp
  /-- FAULT_PULSE (R609): FC latches the pulses that wait. -/
  | faultPulse
  /-- BLOCK_RESET_DONE (R614): a block reset ends. -/
  | blockResetDone (block : Nat)
  /-- FIELD_RESET_DONE (R616): the field reset's writes are complete. -/
  | fieldResetDone
  /-- WAYPOINT (R628): every block has latched its snapshot. -/
  | waypoint
  /-- SOUNDING_START (R622): SD looks for a pack to run: the engines idle for SD.CTL.IDLE, the (slot, engine) pairs run within PERIOD. -/
  | soundingStart (idle : List Nat) (recent : List (Nat × Nat))
  /-- SOUNDING_VERDICT (R623): the sounding's writes are complete. -/
  | soundingVerdict
  /-- CSI_FRAME_START (R483): a frame start of virtual channel 0; F-cycles since the last admitted one. -/
  | csiFrameStart (port num elapsed : Nat)
  /-- CSI_LINE (R487): a long packet; whether the port's input buffer is full, or an output's writes have fallen a
  full 64 KiB behind, when it arrives (R501), and whether it is good. -/
  | csiLine (port vc dtype : Nat) (full good : Bool) (pixels : List Nat)
  /-- FRAME_COMPLETE (R496): the frame end; the measured line period. -/
  | frameComplete (port linep : Nat)
  /-- RESET_N_LOW (R655): RESET_N is driven low. -/
  | resetNLow
  /-- FRAME_SEND (R546): one codeword time of the port's transmitter. -/
  | frameSend (port : Nat)
  /-- COPY_COMPLETE (R254): KM's copier finishes the copy at its head. -/
  | copyComplete
  /-- CLOCK_PRESENT (R682): a lost ICLK (2) or LCLK (3) is present again. -/
  | clockPresent (check : Nat)
  deriving DecidableEq, Repr

end Sys2Proof
end

