-- ==== Sys2Proof/Decode.lean ====
section
/-!
DEFINITION. Words of the table. The block has no instruction encoding: its commands are messages, events and conditions at
its ports, and no row of the table carries bits, so no word spells a command.
-/
namespace Sys2Proof

/-- The command that a word of `nbits` bits spells: none does. -/
def decodeTableWord (_nbits _w : Nat) : Option Instr := none

end Sys2Proof
end

