-- ==== Sys2Proof/Machine/Numerics.lean ====
section
/-!
DEFINITION. Number formats and rescale arithmetic (chapters 2 and 3): exact dyadic numbers and the IEEE 754
binary32 rounding of R68, lane values and packing, requantisation (R73), the Drill (R76, R77), channel records
(R82, R88), and the correctly rounded division, square root and 2^x of R187 and R215.
-/
namespace Sys2Proof.Machine

/-! ### Exact dyadic numbers -/

/-- The number `m` × 2^`e`. -/
structure Dy where
  m : Int
  e : Int
  deriving DecidableEq, Repr

/-- An integer. -/
def Dy.ofInt (z : Int) : Dy := ⟨z, 0⟩

/-- The exact product. -/
def Dy.mul (a b : Dy) : Dy := ⟨a.m * b.m, a.e + b.e⟩

/-- The mantissas of two numbers over their smaller exponent. -/
def Dy.align (a b : Dy) : Int × Int × Int :=
  let e := min a.e b.e
  (a.m * 2 ^ (a.e - e).toNat, b.m * 2 ^ (b.e - e).toNat, e)

/-- The exact sum. -/
def Dy.add (a b : Dy) : Dy :=
  let (x, y, e) := a.align b
  ⟨x + y, e⟩

/-- The negation. -/
def Dy.neg (a : Dy) : Dy := ⟨-a.m, a.e⟩

/-- The exact difference. -/
def Dy.sub (a b : Dy) : Dy := a.add b.neg

/-- `a` ≤ `b`. -/
def Dy.le (a b : Dy) : Bool :=
  let (x, y, _) := a.align b
  decide (x ≤ y)

/-- `a` < `b`. -/
def Dy.lt (a b : Dy) : Bool := !b.le a

/-- The largest integer not above the number. -/
def Dy.floor (a : Dy) : Int := if 0 ≤ a.e then a.m * 2 ^ a.e.toNat else a.m / 2 ^ (-a.e).toNat

/-- The nearest integer, ties to even. -/
def Dy.roundEven (a : Dy) : Int :=
  let lo := a.floor
  let twice := (a.sub (Dy.ofInt lo)).mul ⟨2, 0⟩
  if twice.lt (Dy.ofInt 1) then lo
  else if (Dy.ofInt 1).lt twice then lo + 1
  else if lo % 2 = 0 then lo else lo + 1

/-- A natural number shifted right by `k` bits, rounded to nearest, ties to even. -/
def shiftRne (n k : Nat) : Nat :=
  let q := n / 2 ^ k
  let r := n % 2 ^ k
  if k = 0 then n
  else if 2 * r < 2 ^ k then q
  else if 2 ^ k < 2 * r then q + 1
  else q + q % 2

/-- Rounding to binary32, nearest, ties to even, subnormals kept (R68). The result is exact as a dyadic; a
magnitude of 2^128 or more stands for infinity. -/
def round32 (a : Dy) : Dy :=
  if a.m = 0 then ⟨0, 0⟩
  else
    let q := max ((a.m.natAbs.log2 : Int) + a.e - 23) (-149)
    if q ≤ a.e then a
    else ⟨a.m.sign * (shiftRne a.m.natAbs (q - a.e).toNat : Int), q⟩

/-- The magnitude lies beyond every finite binary32. -/
def Dy.huge (a : Dy) : Bool := (⟨1, 128⟩ : Dy).le ⟨a.m.natAbs, a.e⟩

/-- binary32 `a` / `b`, correctly rounded; `b` is not 0. -/
def div32 (a b : Dy) : Dy :=
  let k := b.m.natAbs.log2 + 64
  let n := a.m.natAbs * 2 ^ k
  let q := n / b.m.natAbs
  let sticky := if n % b.m.natAbs = 0 then 0 else 1
  round32 ⟨a.m.sign * b.m.sign * (2 * q + sticky : Int), a.e - b.e - k - 1⟩

/-- The integer square root by digits, `fuel` of them: the root of the part of `n` above bit 2 × `fuel`, extended. -/
def isqrt (n : Nat) : Nat → Nat
  | 0 => 0
  | fuel + 1 =>
    let r := 2 * isqrt (n / 4) fuel
    if (r + 1) * (r + 1) ≤ n then r + 1 else r

/-- binary32 square root, correctly rounded, of a nonnegative number. -/
def sqrt32 (a : Dy) : Dy :=
  let n := a.m.natAbs * 2 ^ (if a.e % 2 = 0 then 128 else 129)
  let e := if a.e % 2 = 0 then a.e - 128 else a.e - 129
  let r := isqrt n (n.log2 / 2 + 1)
  let sticky := if r * r = n then 0 else 1
  round32 ⟨(2 * r + sticky : Int), e / 2 - 1⟩

/-- floor(ln 2 × 2^256). -/
def ln2Fix : Nat := 80260960185991308862233904206310070533990667611589946606122867505419956976171

/-- The Taylor sum of e^x in 256-bit fixed point, x = `x` / 2^256, from term `k` on. -/
def expFix (x term k : Nat) : Nat → Nat
  | 0 => 0
  | fuel + 1 => term + expFix x (term * x / 2 ^ 256 / (k + 1)) (k + 1) fuel

/-- Correctly rounded binary32 2^x of R215, for x ≤ 0. -/
def exp2 (x : Dy) : Dy :=
  let n := x.floor
  if n < -151 then ⟨0, 0⟩
  else
    let f := x.sub (Dy.ofInt n)
    if f.m = 0 then round32 ⟨1, n⟩
    else
      let fix := (f.mul ⟨1, 256⟩).floor.toNat
      let y := expFix (fix * ln2Fix / 2 ^ 256) (2 ^ 256) 0 64
      round32 ⟨(2 * y + 1 : Int), n - 257⟩

/-- The value of a finite binary16 code (R59); none for infinity and NaN. -/
def half (c : Nat) : Option Dy :=
  let ex := bits c 14 10
  let fr := bits c 9 0
  let sg : Int := if bit c 15 then -1 else 1
  if ex = 31 then none
  else if ex = 0 then some ⟨sg * fr, -24⟩
  else some ⟨sg * (1024 + fr : Int), (ex : Int) - 25⟩

/-- The value of a finite binary32 code (R60); none for infinity and NaN. -/
def single (c : Nat) : Option Dy :=
  let ex := bits c 30 23
  let fr := bits c 22 0
  let sg : Int := if bit c 31 then -1 else 1
  if ex = 255 then none
  else if ex = 0 then some ⟨sg * fr, -149⟩
  else some ⟨sg * (8388608 + fr : Int), (ex : Int) - 150⟩

/-- The binary32 code of a nonnegative number that binary32 holds exactly. -/
def code32 (a : Dy) : Nat :=
  if a.m ≤ 0 then 0
  else
    let top := (a.m.natAbs.log2 : Int) + a.e
    if top < -126 then (a.mul ⟨1, 149⟩).floor.toNat
    else (top + 127).toNat * 8388608 + ((a.mul ⟨1, 23 - top⟩).floor.toNat - 8388608)

/-! ### Lane values and packing (R50 to R66) -/

/-- The F4 lane value of a code. -/
def f4Lane (c : Nat) : Int :=
  let v : Int := match c % 8 with
    | 0 => 0
    | 1 => 1
    | 2 => 2
    | 3 => 3
    | 4 => 4
    | 5 => 6
    | 6 => 8
    | _ => 12
  if c % 16 < 8 then v else -v

/-- An n-bit two's complement code as an integer. -/
def signed (n c : Nat) : Int :=
  let v := c % 2 ^ n
  if v < 2 ^ (n - 1) then v else (v : Int) - 2 ^ n

/-- The lane value of a 4-bit code in format 0 S4, 1 U4, 2 F4 (R50). -/
def lane4 (fmt c : Nat) : Int :=
  if fmt = 0 then signed 4 c else if fmt = 1 then (c % 16 : Nat) else f4Lane c

/-- Byte `i` of a list. -/
def byteAt (l : List Byte) (i : Nat) : Nat := ((l[i]?).getD 0).toNat

/-- Element `n` of a 4-bit vector (R47). -/
def nibble (l : List Byte) (n : Nat) : Nat := byteAt l (n / 2) / 16 ^ (n % 2) % 16

/-- Element `n` of a 12-bit vector (R64). -/
def elem12 (l : List Byte) (n : Nat) : Nat := fld l (n / 2 * 3) 3 / 4096 ^ (n % 2) % 4096

/-- Digit `i` of a T5P byte as a weight; an invalid byte decodes as five zeros (R55, R56). -/
def t5pLane (b i : Nat) : Int := if 242 < b then 0 else ((b / 3 ^ i % 3 : Nat) : Int) - 1

/-- The bytes that `n` elements take in weight format 0 S4, 1 U4, 2 F4, 3 D2, 4 T5P. -/
def weightBytes (wfmt n : Nat) : Nat :=
  if wfmt ≤ 2 then ceilDiv n 2 else if wfmt = 3 then ceilDiv n 4 else ceilDiv n 5

/-- Element `n` of a packed weight row. -/
def weightLane (wfmt : Nat) (l : List Byte) (n : Nat) : Int :=
  if wfmt ≤ 2 then lane4 wfmt (nibble l n)
  else if wfmt = 3 then 2 * ((byteAt l (n / 4) / 4 ^ (n % 4) % 4 : Nat) : Int) - 3
  else t5pLane (byteAt l (n / 5)) (n % 5)

/-- The invalid T5P bytes of a row (R56). -/
def badT5p (wfmt : Nat) (l : List Byte) : Nat :=
  if wfmt = 4 then (l.filter (fun b => 242 < b.toNat)).length else 0

/-- The exact sum of products of two lists of lane values. -/
def dot : List Int → List Int → Int
  | a :: as, b :: bs => a * b + dot as bs
  | _, _ => 0

/-! ### Requantisation (R72 to R75) -/

/-- The output formats: 0 S4, 1 U4, 2 F4, 4 S16. -/
def fmtMin (fmt : Nat) : Int :=
  if fmt = 0 then -8 else if fmt = 1 then 0 else if fmt = 2 then -12 else -32768

/-- The largest lane value of an output format. -/
def fmtMax (fmt : Nat) : Int :=
  if fmt = 0 then 7 else if fmt = 1 then 15 else if fmt = 2 then 12 else 32767

/-- The F4 lane values in ascending order. -/
def f4Values : List Int := [-12, -8, -6, -4, -3, -2, -1, 0, 1, 2, 3, 4, 6, 8, 12]

/-- The code of an output lane value (R75). -/
def laneCode (fmt : Nat) (q : Int) : Nat :=
  if fmt = 2 then
    let a := ((f4Values.drop 7).findIdx? (· == (q.natAbs : Int))).getD 0
    if 0 ≤ q then a else a + 8
  else if fmt = 4 then (q % 65536).toNat
  else (q % 16).toNat

/-- The values of L around t: the largest not above it and the smallest not below it. -/
def around (fmt : Nat) (t : Dy) : Int × Int :=
  if fmt = 2 then
    ((f4Values.reverse.find? (fun v => (Dy.ofInt v).le t)).getD (-12),
      (f4Values.find? (fun v => t.le (Dy.ofInt v))).getD 12)
  else
    let lo := t.floor
    if (Dy.ofInt lo).lt t then (lo, lo + 1) else (lo, lo)

/-- The requantised lane value of R73: `nearest` is the rounding mode, `u` the 24-bit draw. -/
def requantise (fmt : Nat) (nearest : Bool) (t : Dy) (u : Nat) : Int :=
  if (Dy.ofInt (fmtMax fmt)).le t then fmtMax fmt
  else if t.le (Dy.ofInt (fmtMin fmt)) then fmtMin fmt
  else
    let (lo, hi) := around fmt t
    let up := t.sub (Dy.ofInt lo)
    let down := (Dy.ofInt hi).sub t
    if lo = hi then lo
    else if !nearest then
      if (Dy.ofInt ((hi - lo) * u)).lt (up.mul ⟨1, 24⟩) then hi else lo
    else if up.lt down then lo
    else if down.lt up then hi
    else if laneCode fmt lo % 2 = 0 then lo else hi

/-- The result lies beyond the format's range as R96 counts it. -/
def saturated (fmt : Nat) (t : Dy) : Bool :=
  (Dy.ofInt (fmtMax fmt)).lt t || (fmt != 1 && t.lt (Dy.ofInt (fmtMin fmt)))

/-! ### The Drill (R76, R77) -/

/-- The mixing function of R76. -/
def mix (z : W64) : W64 :=
  let z := (z ^^^ (z >>> 30)) * 0xBF58476D1CE4E5B9
  let z := (z ^^^ (z >>> 27)) * 0x94D049BB133111EB
  z ^^^ (z >>> 31)

/-- The draw of an output (R77): image seed, context, step, drill key, element index. -/
def drill (seed ctx : Nat) (step : W32) (k e : Nat) : Nat :=
  let s := mix (BitVec.ofNat 64 seed ^^^ BitVec.ofNat 64 (ctx * 2 ^ 32) ^^^ step.setWidth 64)
  (mix (s ^^^ mix (BitVec.ofNat 64 (k * 2 ^ 32 + e))) >>> 40).toNat

/-! ### Channel records (R82 to R88) -/

/-- A channel record. -/
structure ChanRec where
  scale : Nat
  flat : Bool
  bias : Nat
  deriving DecidableEq, Repr

/-- The record of 8 bytes (R82). -/
def ChanRec.ofBytes (b : List Byte) : ChanRec := ⟨fld b 0 2, bit (fld b 2 1) 0, fld b 4 4⟩

/-- What the record's outputs are checked against at R88: no output format, a format, or finiteness alone. -/
inductive RecFmt where
  | none
  | fmt (f : Nat)
  deriving DecidableEq, Repr

/-- A lane value of the format. -/
def member (fmt : Nat) (v : Dy) : Bool :=
  let z := v.floor
  v.le (Dy.ofInt z) && decide (fmtMin fmt ≤ z) && decide (z ≤ fmtMax fmt) && (fmt != 2 || f4Values.contains z)

/-- R88: the record can be used for outputs of the format. -/
def ChanRec.usable (r : ChanRec) (f : RecFmt) : Bool :=
  match single r.bias with
  | none => false
  | some b =>
    if r.flat then (match f with | .none => true | .fmt k => member k b)
    else r.scale % 0x8000 != 0 && (half r.scale).isSome

/-- The record's scale as a number. -/
def ChanRec.mul (r : ChanRec) : Dy := (half r.scale).getD ⟨0, 0⟩

/-- The record's bias as a number. -/
def ChanRec.add (r : ChanRec) : Dy := (single r.bias).getD ⟨0, 0⟩

/-- R68 with multiplier `m`. -/
def rescale (acc : Int) (m bias : Dy) : Dy := round32 ((round32 ((round32 (Dy.ofInt acc)).mul m)).add bias)

/-- One requantised output: its lane value, and its result t where R96 counts it (a flat channel has none). -/
structure Output where
  q : Int
  t : Option Dy
  deriving DecidableEq, Repr

/-- R68 then R73, or R87 for a flat record, with multiplier `m`. -/
def ChanRec.outputWith (r : ChanRec) (m : Dy) (fmt : Nat) (nearest : Bool) (acc : Int) (u : Nat) : Output :=
  if r.flat then ⟨r.add.floor, none⟩
  else
    let t := rescale acc m r.add
    ⟨requantise fmt nearest t u, some t⟩

/-- R68 then R73 with the record's own scale. -/
def ChanRec.output (r : ChanRec) (fmt : Nat) (nearest : Bool) (acc : Int) (u : Nat) : Output :=
  r.outputWith r.mul fmt nearest acc u

/-! ### Headers of scale blocks and data groups (R85) -/

/-- The fields of a header. -/
structure Head where
  tag : Nat
  count : Nat
  first : Nat
  rowlen : Nat
  deriving DecidableEq, Repr

/-- The header in 64 bytes. -/
def Head.ofBytes (b : List Byte) : Head := ⟨fld b 0 1 % 64, fld b 1 1, fld b 4 4, fld b 8 4⟩

/-- The bytes of a scale block of `n` channels (R83). -/
def scaleBlockBytes (n : Nat) : Nat := 64 + ceilDiv (8 * n) 64 * 64

/-- The bytes of a packed weight row (R185). -/
def rowBytes (wfmt n : Nat) : Nat := ceilDiv (weightBytes wfmt n) 64 * 64

/-! ### Writing packed rows -/

/-- Codes packed two to a byte, a last odd one with tail code 0 (R64, R66). -/
def pack4 : List Nat → List Byte
  | [] => []
  | [a] => [BitVec.ofNat 8 (a % 16)]
  | a :: b :: l => BitVec.ofNat 8 (a % 16 + 16 * (b % 16)) :: pack4 l

/-- Codes of an output format as bytes: 4-bit, or S16. -/
def packCodes (fmt : Nat) (l : List Nat) : List Byte :=
  if fmt = 4 then l.flatMap (fun c => natLE 2 c) else pack4 l

/-- Accumulators as 32-bit words (R63). -/
def packAcc (l : List Int) : List Byte := l.flatMap (fun a => natLE 4 (a % 4294967296).toNat)

/-- A code map word of R188 applied to a code. -/
def applyMap (m : Option Nat) (c : Nat) : Nat :=
  match m with
  | none => c
  | some w => w / 16 ^ (c % 16) % 16

end Sys2Proof.Machine
end

