-- ==== Sys2Proof/Machine/Codes.lean ====
section
/-!
DEFINITION. The status codes of every chapter's code table, by name.
-/
namespace Sys2Proof.Machine

/-- OK (R12). -/
abbrev Code.ok : Nat := 0x00

/-- BAD_ADDRESS (R12). -/
abbrev Code.badAddress : Nat := 0x01

/-- HAIL_TIMEOUT (R41). -/
abbrev Code.hailTimeout : Nat := 0x10

/-- LAUNCH_REFUSED (R41). -/
abbrev Code.launchRefused : Nat := 0x11

/-- QU_SYNC (R101). -/
abbrev Code.quSync : Nat := 0x18

/-- SCALE_SKEW (R101). -/
abbrev Code.scaleSkew : Nat := 0x19

/-- BAD_SCALE (R101). -/
abbrev Code.badScale : Nat := 0x1A

/-- CAL_DRIFT (R101). -/
abbrev Code.calDrift : Nat := 0x1B

/-- IMG_FORMAT (R124). -/
abbrev Code.imgFormat : Nat := 0x30

/-- IMG_DEVICE (R124). -/
abbrev Code.imgDevice : Nat := 0x31

/-- IMG_SIGNATURE (R124). -/
abbrev Code.imgSignature : Nat := 0x32

/-- IMG_SECTION (R124). -/
abbrev Code.imgSection : Nat := 0x33

/-- IMG_CONNECT (R124). -/
abbrev Code.imgConnect : Nat := 0x34

/-- IMG_PARTITION (R124). -/
abbrev Code.imgPartition : Nat := 0x35

/-- IMG_FIELDS (R124). -/
abbrev Code.imgFields : Nat := 0x36

/-- IMG_POWER (R124). -/
abbrev Code.imgPower : Nat := 0x37

/-- IMG_HAIL (R124). -/
abbrev Code.imgHail : Nat := 0x38

/-- IMG_FAULTS (R124). -/
abbrev Code.imgFaults : Nat := 0x39

/-- IMG_RETAIN (R124). -/
abbrev Code.imgRetain : Nat := 0x3A

/-- IMG_TAPE (R124). -/
abbrev Code.imgTape : Nat := 0x3B

/-- IMG_CONST (R124). -/
abbrev Code.imgConst : Nat := 0x3C

/-- IMG_SCALE (R124). -/
abbrev Code.imgScale : Nat := 0x3D

/-- IMG_OVERLAP (R124). -/
abbrev Code.imgOverlap : Nat := 0x3E

/-- IMG_BUSY (R124). -/
abbrev Code.imgBusy : Nat := 0x3F

/-- ABORTED (R177). -/
abbrev Code.aborted : Nat := 0x20

/-- ALREADY_DONE (R177). -/
abbrev Code.alreadyDone : Nat := 0x21

/-- NO_JOB (R177). -/
abbrev Code.noJob : Nat := 0x22

/-- STRAND_LIMIT (R177). -/
abbrev Code.strandLimit : Nat := 0x23

/-- OPEN_STEP (R177). -/
abbrev Code.openStep : Nat := 0x24

/-- TAPE_EVENT (R177). -/
abbrev Code.tapeEvent : Nat := 0x25

/-- TAPE_END (R177). -/
abbrev Code.tapeEnd : Nat := 0x26

/-- WEIGHT_SHAPE (R207). -/
abbrev Code.weightShape : Nat := 0x40

/-- ADAPT_DIVERGED (R207). -/
abbrev Code.adaptDiverged : Nat := 0x41

/-- ADAPT_EXPELLED (R207). -/
abbrev Code.adaptExpelled : Nat := 0x42

/-- ADAPT_PEER_LOST (R207). -/
abbrev Code.adaptPeerLost : Nat := 0x43

/-- ADAPT_CONFIG (R207). -/
abbrev Code.adaptConfig : Nat := 0x44

/-- ATT_RANGE (R238). -/
abbrev Code.attRange : Nat := 0x48

/-- ATT_HOLE (R238). -/
abbrev Code.attHole : Nat := 0x49

/-- APPEND_COUNT (R238). -/
abbrev Code.appendCount : Nat := 0x4A

/-- KV_BUSY (R279). -/
abbrev Code.kvBusy : Nat := 0x28

/-- KV_MODE (R279). -/
abbrev Code.kvMode : Nat := 0x29

/-- KV_FULL (R279). -/
abbrev Code.kvFull : Nat := 0x2A

/-- KV_ARG (R279). -/
abbrev Code.kvArg : Nat := 0x2B

/-- PAGE_STARVED (R279). -/
abbrev Code.pageStarved : Nat := 0x2C

/-- PAGE_GRANTED (R279). -/
abbrev Code.pageGranted : Nat := 0x2D

/-- NODES_FULL (R279). -/
abbrev Code.nodesFull : Nat := 0x2E

/-- KV_LOST (R279). -/
abbrev Code.kvLost : Nat := 0x2F

/-- ST_BUSY (R314). -/
abbrev Code.stBusy : Nat := 0x50

/-- ST_ARG (R314). -/
abbrev Code.stArg : Nat := 0x51

/-- STATE_RANGE (R314). -/
abbrev Code.stateRange : Nat := 0x52

/-- STATE_PARAM (R314). -/
abbrev Code.stateParam : Nat := 0x53

/-- STATE_KIND (R314). -/
abbrev Code.stateKind : Nat := 0x54

/-- STATE_LOST (R314). -/
abbrev Code.stateLost : Nat := 0x55

/-- STATE_SAT (R314). -/
abbrev Code.stateSat : Nat := 0x56

/-- STATE_NONE (R314). -/
abbrev Code.stateNone : Nat := 0x57

/-- TIER_FULL (R392). -/
abbrev Code.tierFull : Nat := 0x58

/-- TIER_ARG (R392). -/
abbrev Code.tierArg : Nat := 0x59

/-- TIER_ROLE (R392). -/
abbrev Code.tierRole : Nat := 0x5A

/-- TIER_BUSY (R392). -/
abbrev Code.tierBusy : Nat := 0x5B

/-- PINNED (R392). -/
abbrev Code.pinned : Nat := 0x5C

/-- MEM_POISON (R392). -/
abbrev Code.memPoison : Nat := 0x5D

/-- WEIGHTS_LOST (R392). -/
abbrev Code.weightsLost : Nat := 0x5E

/-- WEIGHTS_REFETCH (R392). -/
abbrev Code.weightsRefetch : Nat := 0x5F

/-- OBJECT_CLEAN (R392). -/
abbrev Code.objectClean : Nat := 0x60

/-- DM_DONE (R416). -/
abbrev Code.dmDone : Nat := 0x68

/-- DM_LIST (R416). -/
abbrev Code.dmList : Nat := 0x69

/-- DM_PATH (R416). -/
abbrev Code.dmPath : Nat := 0x6A

/-- DM_FAULT (R416). -/
abbrev Code.dmFault : Nat := 0x6B

/-- CTX_CLOSED (R448). -/
abbrev Code.ctxClosed : Nat := 0x70

/-- CTX_BUSY (R448). -/
abbrev Code.ctxBusy : Nat := 0x71

/-- QUEUE_FULL (R448). -/
abbrev Code.queueFull : Nat := 0x72

/-- DX_ROLE (R448). -/
abbrev Code.dxRole : Nat := 0x73

/-- CTX_ARG (R448). -/
abbrev Code.ctxArg : Nat := 0x74

/-- NO_ENGINE (R448). -/
abbrev Code.noEngine : Nat := 0x75

/-- WATCHDOG (R448). -/
abbrev Code.watchdog : Nat := 0x76

/-- BOUND_OVERRUN (R448). -/
abbrev Code.boundOverrun : Nat := 0x77

/-- SERVICE_EVENT (R448). -/
abbrev Code.serviceEvent : Nat := 0x78

/-- DERATE (R448). -/
abbrev Code.derate : Nat := 0x79

/-- FURROW_TAKEN (R448). -/
abbrev Code.furrowTaken : Nat := 0x7A

/-- RUNG_RETURN (R539). -/
abbrev Code.rungReturn : Nat := 0x88

/-- POWER_LIMIT (R539). -/
abbrev Code.powerLimit : Nat := 0x89

/-- THERMAL (R539). -/
abbrev Code.thermal : Nat := 0x8A

/-- LINK_DOWN (R572). -/
abbrev Code.linkDown : Nat := 0x90

/-- LINK_MISWIRED (R572). -/
abbrev Code.linkMiswired : Nat := 0x91

/-- LINK_TIMEOUT (R572). -/
abbrev Code.linkTimeout : Nat := 0x92

/-- KEY_MISMATCH (R572). -/
abbrev Code.keyMismatch : Nat := 0x93

/-- LINK_FIELD (R572). -/
abbrev Code.linkField : Nat := 0x94

/-- LINK_UP (R572). -/
abbrev Code.linkUp : Nat := 0x95

/-- MEASURING (R604). -/
abbrev Code.measuring : Nat := 0x98

/-- NO_IMAGE (R604). -/
abbrev Code.noImage : Nat := 0x99

/-- TALLY_SPENT (R604). -/
abbrev Code.tallySpent : Nat := 0x9A

/-- TALLY_LOW (R604). -/
abbrev Code.tallyLow : Nat := 0x9B

/-- KEY_STALE (R604). -/
abbrev Code.keyStale : Nat := 0x9C

/-- KEY_AUTH (R604). -/
abbrev Code.keyAuth : Nat := 0x9D

/-- KEY_ARG (R604). -/
abbrev Code.keyArg : Nat := 0x9E

/-- KEY_IN_USE (R604). -/
abbrev Code.keyInUse : Nat := 0x9F

/-- KEY_FULL (R604). -/
abbrev Code.keyFull : Nat := 0xA0

/-- WEIGHTS_AUTH (R604). -/
abbrev Code.weightsAuth : Nat := 0xA1

/-- OWNER_REFUSED (R604). -/
abbrev Code.ownerRefused : Nat := 0xA2

/-- SESSION_SPENT (R604). -/
abbrev Code.sessionSpent : Nat := 0xA3

/-- SX_ROLE (R604). -/
abbrev Code.sxRole : Nat := 0xA4

/-- COUNTER_CAPPED (R633). -/
abbrev Code.counterCapped : Nat := 0xA8

/-- FAULT (R633). -/
abbrev Code.fault : Nat := 0xA9

/-- REPLAY_SPENT (R633). -/
abbrev Code.replaySpent : Nat := 0xAA

/-- ENGINE_FENCED (R633). -/
abbrev Code.engineFenced : Nat := 0xAB

/-- SAFE_ENTERED (R633). -/
abbrev Code.safeEntered : Nat := 0xAC

/-- BLOCK_RESET (R633). -/
abbrev Code.blockReset : Nat := 0xAD

/-- SOUNDING_FAIL (R633). -/
abbrev Code.soundingFail : Nat := 0xAE

/-- PACK_REFUSED (R633). -/
abbrev Code.packRefused : Nat := 0xAF

/-- SAFE_LOCKED (R633). -/
abbrev Code.safeLocked : Nat := 0xB0

/-- WAYPOINT (R633). -/
abbrev Code.waypoint : Nat := 0xB1

/-- HAIL (R669). -/
abbrev Code.hail : Nat := 0xB8

/-- BOOTED (R669). -/
abbrev Code.booted : Nat := 0xB9

/-- MEM_READY (R669). -/
abbrev Code.memReady : Nat := 0xBA

/-- BAD_FRAME (R669). -/
abbrev Code.badFrame : Nat := 0xBB

/-- HP_BUSY (R669). -/
abbrev Code.hpBusy : Nat := 0xBC

/-- BAD_TYPE (R669). -/
abbrev Code.badType : Nat := 0xBD

/-- EVENTS_LOST (R669). -/
abbrev Code.eventsLost : Nat := 0xBE

/-- JOB_END (R669). -/
abbrev Code.jobEnd : Nat := 0xBF

/-- FRAME_CUT (R509). -/
abbrev Code.frameCut : Nat := 0x80

end Sys2Proof.Machine
end

