-- ==== Sys2Proof/Machine/State.lean ====
section
/-!
DEFINITION. The state of one IL-4580 as plain data, block by block, and State.reset: the machine of R655 and
R656 when RESET_N rises, before the first command. Registers live in `State.regs`; a field that a block
computes from its own state is not stored twice.
-/
namespace Sys2Proof.Machine

/-- A finite map in one canonical form: keys strictly rising. -/
abbrev Map (β : Type) := List (Nat × β)

/-- The faults of the model. It has none: the manual answers every error with a code or an event, and no
command stops the block. Safe: nothing is hidden behind a fault. -/
inductive Fault
  deriving DecidableEq, Repr

/-- The refusals of the model. -/
inductive Refusal where
  /-- No meaning is modelled for the command. Raised by Dispatch alone, where an arm is not yet written;
  safe: nothing can be proved of such a command. -/
  | notModelled (mnemonic : String)
  deriving DecidableEq, Repr

/-- The rungs of R134, in the order of their codes. -/
inductive Rung where
  | moor
  | listen
  | nap
  | doze
  | idle
  | run
  | fallow
  deriving DecidableEq, Repr

/-! ### The image in force (chapter 4) -/

/-- One enabled record of FIELDS (R130). -/
structure FieldRec where
  id : Nat
  isolated : Bool
  channels : Nat
  ways : Nat
  engines : Nat
  slot : Nat
  guard : Nat
  phase : Nat
  ctxFirst : Nat
  ctxCount : Nat
  headland : Nat
  frameLimit : Nat
  stateSlots : Nat
  deriving DecidableEq, Repr

/-- One entry of the hail table (R29, R136). -/
structure HailEntry where
  enable : Bool
  array : Bool
  vision : Bool
  notify : Bool
  target : Rung
  cap : Nat
  engines : Nat
  blocks : Nat
  cameras : Nat
  rate : Nat
  replaces : Option Nat
  releaseTo : Option Nat
  hold : Nat
  launch : Option (Nat × Nat)
  lookback : Nat
  deriving DecidableEq, Repr

/-- The policy record of POWER (R134). -/
structure Policy where
  floor : Rung
  hostCap : Nat
  settle : Nat
  pdmDiv : Nat
  idle : List Nat
  wakeTimer : Nat
  vcore : Nat
  deriving DecidableEq, Repr

/-- One record of RETAIN (R140): bit b of `banks` keeps bank b. -/
structure Retain where
  banks : Nat
  keep : Nat
  deriving DecidableEq, Repr

/-- One tape of the directory of R142, with the commons address of its first word. -/
structure TapeDir where
  id : Nat
  kind : Nat
  fields : Nat
  base : Nat
  words : Nat
  deriving DecidableEq, Repr

/-- One region of R128, in banks. -/
structure Region where
  first : Nat
  banks : Nat
  deriving DecidableEq, Repr

/-- The partition of R129. -/
structure Partition where
  scratch : Region
  store : Region
  furrow : Region
  segment : Nat
  tier : Region
  deriving DecidableEq, Repr

/-- One blob of R145: constant id, kind, commons byte address and length. -/
structure Blob where
  id : Nat
  kind : Nat
  dest : Nat
  len : Nat
  deriving DecidableEq, Repr

/-- The image in force, as R123 applied it. -/
structure Image where
  measurement : List Byte
  len : Nat
  version : Nat
  imageId : Nat
  seed : Nat
  dram : Nat
  frame : Nat
  renorm : Nat
  digest : Nat
  /-- client block number and its bank groups (R126) -/
  connect : List (Nat × Nat)
  part : Partition
  fields : List FieldRec
  retain : List Retain
  tapes : List TapeDir
  blobs : List Blob
  /-- the QU registers that blobs of kind 5 load (R146): engine, watch index or 0xFF for QU.CTL, value -/
  watches : List (Nat × Nat × Nat)
  deriving DecidableEq, Repr

/-- A load in progress (R119, R657), with the bytes that the Sextant has measured as they arrived (R120); the next one expected is
byte `seen.length`. -/
structure Load where
  role : Role
  rid : Nat
  len : Nat
  seen : List Byte
  zeroing : Bool
  deriving DecidableEq, Repr

/-! ### Host port (chapter 20) -/

/-- A frame of the outbound queue (R638, R643), with the session key it is sealed under. -/
structure OutFrame where
  role : Role
  typ : Nat
  rid : Nat
  ctr : Nat
  key : Option (List Byte)
  payload : List Byte
  deriving DecidableEq, Repr

/-- An accepted request that waits to be performed (R644), with the bytes it holds of the inbound buffer. -/
structure Request where
  role : Role
  typ : Nat
  rid : Nat
  payload : List Byte
  size : Nat
  deriving DecidableEq, Repr

/-- HP's own state. -/
structure HpState where
  /-- the port is in 8D (R635) -/
  dtr : Bool
  requests : List Request
  outq : List OutFrame
  /-- requests passed to their blocks before a reset of HP: their replies are discarded (R665) -/
  discard : List (Role × Nat × Nat)
  /-- events lost per destination since EVENTS_LOST was last posted to it (R652) -/
  lost : Map Nat
  /-- the event serial of each block (R624) -/
  evSerial : Map W32
  /-- the event serial per block and field, at 8 × block + field (R651) -/
  fldSerial : Map W32
  /-- the bytes last driven on DQ (R636, R638) -/
  dq : List Byte
  deriving DecidableEq, Repr

/-! ### Sextant (chapter 18) -/

/-- A pending KEM key (R588): the number of its key pair, and SHA-256 of its quote body. -/
structure KemKey where
  pair : Nat
  qd : List Byte
  deriving DecidableEq, Repr

/-- A held model key (R593 kind 1). -/
structure ModelKey where
  field : Nat
  id : Nat
  key : List Byte
  deriving DecidableEq, Repr

/-- A quote being signed (R585, R589). -/
structure QuoteJob where
  role : Role
  rid : Nat
  body : List Byte
  pair : Nat
  bit : Nat
  leaf : Nat
  deriving DecidableEq, Repr

/-- An owner slot being burnt (R577). -/
structure OwnerBurn where
  role : Role
  rid : Nat
  slot : Nat
  digest : List Byte
  deriving DecidableEq, Repr

/-- SX's own state. -/
structure SxState where
  /-- the programmed OWNER slots, slot 0 first -/
  owners : List (List Byte)
  /-- Tally bits tried: burnt, or found not to read back (R583) -/
  tallyUsed : Nat
  /-- Tally bits that read burnt -/
  tallyBurnt : Nat
  /-- the epoch's Tally bit and next bottom leaf (R583, R584) -/
  epoch : Option (Nat × Nat)
  kems : List KemKey
  /-- key pairs generated -/
  kemMade : Nat
  modelKeys : List ModelKey
  /-- per field: data key and tweak key -/
  memKeys : Map (List Byte × List Byte)
  /-- per session 0 to 8 -/
  sessionKeys : Map (List Byte)
  /-- per session: the counter of the last accepted inbound frame -/
  inCtr : Map Nat
  outCtr : Map Nat
  /-- per field: KM's prefix key (R261) -/
  prefixKeys : Map (List Byte)
  /-- images applied since cold boot -/
  loads : Nat
  /-- TALLY_LOW has been posted in this cold boot -/
  tallyLow : Bool
  quote : Option QuoteJob
  burn : Option OwnerBurn
  /-- requests SX serves one at a time (R587), waiting -/
  queue : List Instr
  deriving DecidableEq, Repr

/-! ### Faults and observation (chapter 19) -/

/-- A pulse on an FC source, with the context and step it names (R605). -/
structure Pulse where
  bit : Nat
  step : Option (Nat × W32)
  deriving DecidableEq, Repr

/-- FC's own state. -/
structure FcState where
  /-- ACTION and FLAGS per source (R608) -/
  table : List (Nat × Nat)
  /-- pulses sent and not yet latched (R606) -/
  pulses : List Pulse
  /-- block resets in progress (R614) -/
  resets : List Nat
  /-- a field reset in progress (R616) -/
  fieldReset : Option Nat
  /-- in the safe state, the image whose channel kinds MC still serves (R617) -/
  held : Option Image
  deriving DecidableEq, Repr

/-! ### Power (chapters 1 and 16) and clocks (chapter 21) -/

/-- A standing claim (R30). -/
structure Claim where
  hail : Nat
  rung : Rung
  /-- hold time in ms; 0 stands until released -/
  hold : Nat
  /-- the device has stood on the target since the hail was served (R34) -/
  stood : Bool
  /-- the stream anchor of R471 -/
  anchor : Nat
  deriving DecidableEq, Repr

/-- A hail raised and not yet served (R26): its number, and the recorded index of a Lookout's own verdict. -/
structure Raised where
  hail : Nat
  verdict : Option Nat
  deriving DecidableEq, Repr

/-- An owner event of PW held below Doze (R654). -/
structure HeldEvent where
  code : Nat
  hail : Nat
  items : List Byte
  deriving DecidableEq, Repr

/-- PW's own state. -/
structure PwState where
  rung : Rung
  claims : List Claim
  raised : List Raised
  /-- the claim set by HOST_CLAIM (R649) -/
  hostClaim : Option Rung
  /-- the POWER section held on the island rail (R526): policy, domain codes, hail table -/
  island : Option (Policy × List Nat × List HailEntry)
  /-- an entry in progress and its target (R516) -/
  entry : Option Rung
  window : Bool
  /-- WAKE_N edge latch (R529) -/
  latch : Bool
  dramEn : Bool
  /-- R533: derate level, budget, quiet count, and tj above 105 °C at the last sample -/
  level : Nat
  budget : Nat
  quiet : Nat
  hot : Bool
  held : List HeldEvent
  /-- banks still being zeroed after a power-up (R522) -/
  zeroing : List Nat
  /-- the wake timer runs: an image has been applied since the last cold boot but one by Fallow (R527) -/
  wakeTimer : Bool
  /-- deepest rung and losses since the last return to Run (R537), and the fields that lost state (R521) -/
  deepest : Rung
  loss : Nat
  lostFields : List Nat
  deriving DecidableEq, Repr

/-- CK's own state (R681, R682). -/
structure CkState where
  /-- domains 0 to 31 are stopped by a loss of lock -/
  stopped : Bool
  gaveUp : Bool
  deriving DecidableEq, Repr

/-! ### Dispatch (chapters 5 and 13) -/

/-- What a strand waits on; a strand with no wait is ready or holds an engine. -/
inductive Wait where
  /-- a counter (R166): shared or the context's, its index, and the target -/
  | counter (shared : Bool) (index : Nat) (target : W32)
  /-- a fence, or a fenced signal (R169); its word is then performed when the fence completes -/
  | fence (all signal : Bool)
  /-- COMMIT: the other strands of the step (R164) -/
  | strands
  /-- the commit point, after the commit request is sent -/
  | commit
  /-- furrow segments that are not all FILLED (R382) -/
  | furrow (segs : List Nat)
  /-- held edits of the page table, before a walk may open (R226) -/
  | walker
  /-- a free staging half for an APPEND of `n` tokens (R251) -/
  | append (n : Nat)
  /-- a halo row's shared counter (R329, R330): its index and target -/
  | halo (index : Nat) (target : W32)
  /-- residence of the stream (R304) -/
  | stream
  /-- the other replicas' digests (R199) -/
  | digest
  /-- the walker's next block, while its stretch of the unified range is under refetch (R226, R375) -/
  | block (field ua len : Nat)
  deriving DecidableEq, Repr

/-- A compute command that an engine runs, or that a suspended strand holds (R154): where it stands, its P
bit and BOUND, the furrow segments it still reports when it ends, whether it has overrun its BOUND, how far it has
come, and its halo rows. -/
structure Running where
  tape : Nat
  word : Nat
  next : Nat
  preempt : Bool
  bound : Nat
  furrow : List Nat
  overrun : Bool
  /-- output rows raised (R328), blocks of the walk supplied (R224), or groups projected from the furrow (R190) -/
  raised : Nat
  /-- the bytes of its next group that it has read from the furrow (R190) -/
  got : List Byte
  /-- it has waited inside itself, and its wait is not yet counted (R190, R226, R304, R329) -/
  waited : Bool
  /-- low and high rows pushed, and acknowledged (R330) -/
  pushLo : Nat
  pushHi : Nat
  ackLo : Nat
  ackHi : Nat
  deriving DecidableEq, Repr

/-- A strand (R159): one run of a tape. -/
structure Strand where
  sid : Nat
  root : Bool
  tape : Nat
  pc : Nat
  loops : List Nat
  engine : Option Nat
  wait : Option Wait
  /-- the command it holds while suspended -/
  held : Option Running
  /-- when it last became ready (R424) -/
  stamp : Nat
  deriving DecidableEq, Repr

/-- An effect that takes hold at commit (R163). -/
inductive Effect where
  | hail (n : Nat)
  | release (h : Nat)
  | event (v : W32)
  deriving DecidableEq, Repr

/-- The open step of a job: the snapshot of R161, the effects recorded so far in tape order, the tokens
APPEND has staged, and the gate score an EE command leaves (R503). -/
structure OpenStep where
  counters : List W32
  loops : List Nat
  tape : Nat
  pc : Nat
  effects : List Effect
  appended : Nat
  /-- the counters that commands with CN raise at commit, and the devices they push to (R328, R330) -/
  halos : List (Nat × List Nat)
  /-- layers that APPEND has staged (R229) -/
  layers : List Nat
  deriving DecidableEq, Repr

/-- How a started job stands. -/
inductive Phase where
  /-- its strands run -/
  | active
  /-- an attempt is being abandoned before a replay (R162) -/
  | replaying
  /-- the commit point took its completion request (R172) -/
  | completed
  /-- it has ended with a code and its strands stop -/
  | ending (code : Nat)
  deriving DecidableEq, Repr

/-- A job queued on a context: submission serial, entry point, and the hail that launched it. -/
structure Job where
  serial : W32
  entry : Nat
  hail : Option Nat
  /-- a gate job of R502: the frame it scores -/
  gate : Option Nat
  deriving DecidableEq, Repr

/-- The running job of a context. -/
structure JobRun where
  job : Job
  phase : Phase
  strands : List Strand
  nextSid : Nat
  open_ : Option OpenStep
  /-- counts of R612 for the step number that is open or next -/
  replays : Nat
  restarts : Nat
  /-- the step has taken a replay for a skew (R92) -/
  skewed : Bool
  /-- JOB_ABORT requests that took hold, answered at the report -/
  aborts : List (Role × Nat)
  /-- commons ranges that its commands have written: first byte and length (R172) -/
  wrote : List (Nat × Nat)
  deriving DecidableEq, Repr

/-- An open context (R417). -/
structure Ctx where
  field : Nat
  step : W32
  counters : List W32
  /-- sowing list, entries and PRIME -/
  sow : Option (Nat × Nat × Nat)
  /-- jobs accepted; the low 32 bits are the next submission serial (R421) -/
  accepted : Nat
  /-- jobs completed, a saturating count (R443) -/
  completed : Nat
  halted : Bool
  /-- a close that waits: the CTX_CLOSE to answer, or none for a field reset (R616) -/
  closing : Option (Option (Role × Nat))
  queue : List Job
  running : Option JobRun
  /-- the conditions of R436 that hold, with the moment at which DX first observed each: 0 HALTED, 1 STARVED, 2 every
  strand waits on a counter -/
  displaceable : Map Nat
  deriving DecidableEq, Repr

/-- A request in the commit point's queue (R172). -/
inductive CommitReq where
  | commit (ctx : Nat) (serial : W32)
  | complete (ctx : Nat) (serial : W32)
  | abort (ctx : Nat) (serial : W32) (role : Role) (rid : Nat)
  deriving DecidableEq, Repr

/-- DX's own state. -/
structure DxState where
  ctxs : Map Ctx
  /-- shared counters at 512 × field + index; an absent one is 0 -/
  shared : Map W32
  commitQ : List CommitReq
  switchQ : List Nat
  /-- a context has waited SWITCH_HOLD ms (R428) -/
  switchLate : Bool
  /-- the field that owns the furrow (R430) -/
  furrowField : Option Nat
  phase : Nat
  guard : Bool
  /-- numbers the moments at which strands become ready and conditions are observed -/
  stamp : Nat
  deriving DecidableEq, Repr

/-- One schedulable engine: the strand that holds it, the command it runs, whether its strand is asked to
suspend, the output prescalers of its 64 watches (R96), and watch writes held to the next boundary (R99):
watch 0 to 63 or 64 for QU.CTL, high word or low, and the value. -/
structure Engine where
  strand : Option (Nat × Nat)
  running : Option Running
  yield : Bool
  prescale : Map Nat
  heldWatch : List (Nat × Bool × W32)
  /-- watches that have raised CAL_DRIFT and are not re-armed (R98) -/
  drifted : List Nat
  deriving DecidableEq, Repr

/-! ### KV manager (chapter 8) -/

/-- A place a block reads or writes: commons, or a field's unified range. -/
inductive Place where
  | commons (addr : Nat)
  | unified (field ua : Nat)
  deriving DecidableEq, Repr

/-- A frame descriptor (R244). -/
structure FrameDesc where
  refs : Nat
  field : Nat
  held : Bool
  node : Bool
  loaded : Bool
  lost : Bool
  last : Bool
  nodeIx : Nat
  link : Nat
  deriving DecidableEq, Repr

/-- A KV record (R249). -/
structure KvRec where
  flush : Nat
  half : Nat
  walk : Bool
  held : Bool
  tc : Nat
  /-- commons byte address of the staging buffer -/
  stage : Nat
  both : Bool
  deriving DecidableEq, Repr

/-- A prefix node (R262); only VALID nodes are listed. -/
structure Node where
  hash : Nat
  frame : Nat
  parent : Nat
  field : Nat
  children : Nat
  tag : Nat
  use : W32
  deriving DecidableEq, Repr

/-- One stretch of bytes to copy. -/
structure Move where
  dst : Place
  src : Place
  len : Nat
  deriving DecidableEq, Repr

/-- Work in the queue of KM's one copier (R254): the flush of a context into a frame, and whether its bytes have been
written, or the copies of a host operation on a field with the results it answers once they are complete. -/
inductive CopyJob where
  | flush (ctx frame : Nat) (written : Bool)
  | host (role : Role) (rid field : Nat) (answer : List Byte)
  deriving DecidableEq, Repr

/-- KM's own state. -/
structure KmState where
  /-- frame descriptors that have been written since image load; any other stands as R245 leaves it -/
  descs : Map FrameDesc
  free : Nat
  head : Nat
  /-- valid leaf entries, at 1,024 × ctx + block, naming a frame (R247) -/
  table : Map Nat
  recs : Map KvRec
  nodes : Map Node
  use : Map W32
  /-- open walks: context and strand (R258) -/
  walks : List (Nat × Nat)
  /-- held link-and-release edits: context and frame (R259) -/
  edits : List (Nat × Nat)
  copier : List CopyJob
  /-- starved contexts, in the order they starved (R257) -/
  starved : List Nat
  /-- a write of MODE that waits for the host operation in progress (R270) -/
  heldMode : Option Nat
  deriving DecidableEq, Repr

/-! ### State engine (chapter 9) -/

/-- A slot entry (R286); a free slot has none. -/
structure SlotEntry where
  owner : Nat
  next : Nat
  cur : Nat
  wr : Nat
  use : W32
  deriving DecidableEq, Repr

/-- A stream record (R285). -/
structure StreamRec where
  state : Nat
  zero : Bool
  lost : Bool
  /-- slots, 1 to 8 -/
  nslot : Nat
  first : Nat
  /-- swap area: unified byte address -/
  swap : Nat
  deriving DecidableEq, Repr

/-- A transfer that waits for SE's swap path (R307). -/
inductive SwapReq where
  | out (ctx : Nat)
  | into (ctx : Nat)
  deriving DecidableEq, Repr

/-- What a stage holds (R293): the TABLE and S_ADDR it was loaded from, its decay rates, scale blocks and data
groups. -/
structure SeStage where
  table : Nat
  saddr : Nat
  rates : List Byte
  scales : List Byte
  weights : List Byte
  deriving DecidableEq, Repr

/-- SE's own state. -/
structure SeState where
  slots : Map SlotEntry
  streams : Map StreamRec
  /-- commit serial per field (R286) -/
  commits : Map W32
  /-- per context, the serial of its stream's last commit: the USE of its slots (R286) -/
  lastUse : Map W32
  swapQ : List SwapReq
  /-- what each stage holds, by stage -/
  stages : Map SeStage
  /-- contexts whose stream was swapped out while their step was open (R437) -/
  displaced : List Nat
  deriving DecidableEq, Repr

/-! ### Memory tiers (chapter 11) -/

/-- What a request tag is held for (R562). -/
inductive TagUse where
  /-- piece `index` of a MEM_READ or MEM_WRITE through a neighbour window -/
  | host (group index : Nat)
  /-- a DM write; channel 32 for a run that has reported -/
  | dma (ch : Nat)
  /-- DM's read of the block that holds source bytes `off` on: `len` bytes after `skip`; or its read-back past the last
  one (R404, R406) -/
  | dmaRead (ch off skip len : Nat)
  /-- a pushed halo row (R330): context, strand, direction and row -/
  | push (ctx sid : Nat) (high : Bool) (row : Nat)
  /-- TU's read of a replica's blocks (R375) -/
  | refetch (field ua : Nat)
  /-- TU's read of a block of a page in a neighbour home (R341, R355); field 8 for one that a write has overtaken -/
  | tierRead (field ua : Nat)
  /-- TU's write of blocks of a page to a neighbour (R341, R355) -/
  | tierWrite (field ua len : Nat)
  deriving DecidableEq, Repr

/-- A mapped object (R359). -/
structure Obj where
  field : Nat
  ua : Nat
  pages : Nat
  hint : Nat
  ro : Bool
  shared : Bool
  back : Nat
  backdev : Nat
  quar : Bool
  deriving DecidableEq, Repr

/-- A page descriptor (R363). A mapped page that is not listed is unbacked, with its object's hint. -/
structure Page where
  busy : Bool
  mig : Nat
  home : Nat
  shadow : Bool
  poison : Bool
  hint : Nat
  pins : Nat
  obj : Nat
  loc : Nat
  shome : Nat
  sloc : Nat
  hits : Nat
  use : Nat
  /-- where a migration in progress copies to: home and location -/
  target : Option (Nat × Nat)
  deriving DecidableEq, Repr

/-- A lease on a location (R372): its reader, and the home and location. -/
structure Lease where
  ctx : Nat
  sid : Nat
  home : Nat
  loc : Nat
  deriving DecidableEq, Repr

/-- A poisoned block under refetch or without clean copy (R374, R377): `lost` once no source held a clean
copy; `whole` when the list was full and the page is refetched whole, with no entry in TU's list of 256. -/
structure PoisonBlk where
  field : Nat
  ua : Nat
  lost : Bool
  whole : Bool
  /-- contexts and step numbers whose step has read it (R376) -/
  marked : List (Nat × W32)
  /-- clean stretches of a whole page that have come: first byte and length -/
  got : List (Nat × Nat)
  deriving DecidableEq, Repr

/-- Who writes to the unified range: the weight-load path (R359), KM, a DM channel, or SE's swap path. -/
inductive Writer where
  | weights
  | km
  | dm (ch : Nat)
  | swap
  deriving DecidableEq, Repr

/-- A write held during a migration (R372), and who made it. -/
structure HeldWrite where
  field : Nat
  ua : Nat
  data : List Byte
  writer : Writer
  deriving DecidableEq, Repr

/-- What a TU operation waits for: the BUSY pages of an object (R387), the pages homed in an entry (R357), or the BUSY pages
of a run to be pinned (R373). -/
inductive TuWait where
  | unmap (field obj : Nat)
  | evacuate (n : Nat)
  | pin (field ua pages : Nat)
  deriving DecidableEq, Repr

/-- The bound sowing list (R380). -/
structure Sowing where
  ctx : Nat
  list : Nat
  entries : Nat
  /-- next entry to start -/
  next : Nat
  /-- fills in flight: entry and segment -/
  flight : List (Nat × Nat)
  /-- filled segments: segment, reports still owed, filling entry -/
  filled : List (Nat × Nat × Nat)
  deriving DecidableEq, Repr

/-- TU's own state. -/
structure TuState where
  objs : Map Obj
  /-- descriptors at 2^24 × field + page -/
  pages : Map Page
  /-- leaf directory at 4,096 × field + leaf: local page number (R362) -/
  leaves : Map Nat
  poison : List PoisonBlk
  leases : List Lease
  heldWrites : List HeldWrite
  /-- pending migrations: page key and requested home (R371) -/
  pending : Map Nat
  sow : Option Sowing
  use : Map W32
  /-- channel used last per field (R366) -/
  rotation : Map Nat
  /-- the host operation that waits, with its role and request id; later ones wait behind it -/
  op : Option (Role × Nat × TuWait)
  /-- blocks read from neighbour homes and not yet used, at 2^34 × field + block number -/
  fetched : Map (List Byte)
  /-- requests to neighbour homes that wait for a free tag (R562) -/
  far : List (LinkMsg × TagUse)
  deriving DecidableEq, Repr

/-! ### DMA (chapter 12) -/

/-- A place in a run's list: the entry that has been reached, its address word as it was then read (R402), and the bytes of
it that are done. -/
structure DmPos where
  entry : Nat
  word : Nat
  off : Nat
  deriving DecidableEq, Repr

/-- A run in progress: the registers it latched, whether its lists were checked, the lengths they held, the code
it has ended with, and the aborts that took hold. -/
structure DmRun where
  cfg : W64
  src : W64
  dst : W64
  srcs : List Nat
  dsts : List Nat
  checked : Bool
  /-- where its reads and its writes stand; none before an entry is read again -/
  rd : Option DmPos
  wr : Option DmPos
  /-- source bytes read or asked for, the bytes of the buffer that are here by their source offset, destination bytes
  issued, and whether the read-back of R406 has been issued -/
  asked : Nat
  parts : Map (List Byte)
  wrote : Nat
  back : Bool
  /-- stretches read, by location, and written, by location and address word (R403) -/
  reads : List (Nat × Nat)
  writes : List (Nat × Nat × Nat)
  code : Option Nat
  aborts : List (Option (Role × Nat))
  deriving DecidableEq, Repr

/-- A channel: its run, and register writes held to the next run (R415): 0 CFG, 1 SRC, 2 DST, 3 TIMER, with
the word and the value. -/
structure DmChan where
  run : Option DmRun
  held : List (Nat × Bool × W32)
  deriving DecidableEq, Repr

/-! ### Retus link (chapter 17) -/

/-- A request that awaits its answer. -/
structure Tag where
  tag : Nat
  port : Nat
  use : TagUse
  deriving DecidableEq, Repr

/-- A host access through a neighbour window that waits for its pieces: whether it reads, the pieces still out,
the data by piece, and the first status that was not OK. -/
structure Gather where
  role : Role
  rid : Nat
  read : Bool
  left : Nat
  data : Map (List Byte)
  status : Nat
  deriving DecidableEq, Repr

/-- One Retus port (R545 to R566). -/
structure LxPort where
  /-- state code of R548 -/
  state : Nat
  /-- the state to which a port that fails to wake its partner returns; 0 while it wakes none -/
  back : Nat
  peer : Nat
  pport : Nat
  /-- LX.CTL and LX.EQ as taken at the last entry into TRAINING (R570) -/
  ctl : W32
  eq : W32
  /-- sequenced frames received good, and a bad one has been seen since -/
  received : Nat
  waiting : Bool
  /-- frames sent since the last LACK, and since the last LNAK -/
  sinceLack : Nat
  sinceLnak : Nat
  /-- frames sent, and sequenced frames sent -/
  frames : Nat
  sent : Nat
  /-- bodies of the sequenced frames held for replay, oldest first -/
  replay : List (List Byte)
  /-- the next held frame to resend -/
  resend : Option Nat
  /-- the frame the last LNAK named, and how many in a row named it -/
  lnak : Nat
  lnakRun : Nat
  /-- bytes of a partly received message -/
  part : List Byte
  /-- control units that wait for a sequenced frame -/
  ctrl : List (List Byte)
  /-- messages that wait for credits or room, in order, each with the port and pool of the receive buffer it
  still takes up, where it came from a neighbour -/
  txq : List (Option (Nat × Nat) × LinkMsg)
  /-- bytes of messages already taken from the queue and not yet placed in a frame -/
  tail : List Byte
  /-- messages held while the port wakes its partner -/
  held : List (Option (Nat × Nat) × LinkMsg)
  /-- received control units that wait to be taken -/
  units : List (List Byte)
  /-- received messages that wait here for delivery -/
  rx : List LinkMsg
  /-- units in use of each of the partner's pools -/
  used : Map Nat
  /-- units to return to the partner, per pool -/
  owed : Map Nat
  /-- the frame that the port sent last: header, CRC and body (R542, R543) -/
  lane : Option (Nat × BitVec 16 × List Byte)
  deriving DecidableEq, Repr

/-- All four ports and the device's requests. -/
structure LxState where
  ports : List LxPort
  tags : List Tag
  nextTag : Nat
  gathers : Map Gather
  nextGather : Nat
  deriving DecidableEq, Repr

/-! ### Acoustic island (chapter 14) -/

/-- An open launch stream (R471): its hail, context, buffer, sample area, counter, and next sample index;
`beam` when its last sample came from the beam ring. -/
structure Stream where
  hail : Nat
  ctx : Nat
  buf : Nat
  area : Nat
  counter : Nat
  anchor : Nat
  next : Nat
  beam : Bool
  deriving DecidableEq, Repr

/-- AF's own state. Samples are numbered from 0 since AF started; AF.SAMPLE shows the number modulo 2^32. -/
structure AfState where
  running : Bool
  /-- samples produced since AF started -/
  count : Nat
  /-- pre-roll ring and beam ring, by slot -/
  ring : Map (BitVec 16)
  beam : Map (BitVec 16)
  /-- the latest 33 samples of each microphone, newest first -/
  hist : List (List (BitVec 16))
  /-- what each decimator has read: the bits of its latest 37 sample periods, newest period first (R452) -/
  pdm : List (List (List Bool))
  /-- while the array runs, the splice index set when it started (R458) -/
  array : Option Nat
  /-- the splice index, once the beam ring holds samples -/
  splice : Option Nat
  /-- active delay and gain of each microphone -/
  active : List (Nat × BitVec 16)
  streams : List Stream
  /-- per buffer: position and marker serial (R472, R474) -/
  bufs : Map (Nat × Nat)
  deriving DecidableEq, Repr

/-- One run of a Lookout model: the stream's anchor and first index, frames done, input histories per layer (newest first),
consecutive frames at or above THRESH and at or below REJECT, and frames since the last hit. -/
structure LoRun where
  anchor : Nat
  start : Nat
  frames : Nat
  hist : List (List (List Int))
  high : Nat
  low : Nat
  since : Option Nat
  /-- beam samples of the stream that its reader took before the array stopped (R459) -/
  kept : Map (BitVec 16)
  deriving DecidableEq, Repr

/-- LO's own state. -/
structure LoState where
  model0 : Option (List Byte)
  model1 : Option (List Byte)
  run0 : LoRun
  session : Option LoRun
  deriving DecidableEq, Repr

/-! ### Image pipeline (chapter 15) -/

/-- An open frame: CSI-2 frame number, frame serial, the copy of its parameter block, the lines received per
exposure, and the output rows written. -/
structure Frame where
  num : Nat
  serial : W32
  params : List Byte
  lines : List (List (List Nat))
  written : Nat × Nat
  deriving DecidableEq, Repr

/-- One camera port. -/
structure IpPort where
  running : Bool
  /-- a frame has been admitted since the camera started -/
  admitted : Bool
  frame : Option Frame
  /-- frames admitted since image load -/
  serial : W32
  /-- band values of the previous admitted frame, if it was complete -/
  bands : Option (List Nat)
  /-- the latest flicker verdicts formed, newest first -/
  verdicts : List Nat
  /-- CTL in force, taken at the last frame start -/
  ctl : W32
  deriving DecidableEq, Repr

/-- IP's own state: ports, and the gate's latched setting and run count (R502 to R504). -/
structure IpState where
  ports : List IpPort
  gate : W64
  entry : W32
  /-- a write of the gate's registers waits for the next gate frame start -/
  fresh : Bool
  run : Nat
  deriving DecidableEq, Repr

/-! ### Soundings, digest groups, and the whole -/

/-- A loaded pack (R620): the first byte of the sounding area it was checked in, where it lies, its length, and SHA-256 of
its bytes. -/
structure Pack where
  base : Nat
  addr : Nat
  len : Nat
  sha : List Byte
  deriving DecidableEq, Repr

/-- SD's own state: packs by slot, and the running sounding: slot, engine, and the state slot it holds. -/
structure SdState where
  packs : Map Pack
  run : Option (Nat × Nat × Option Nat)
  /-- the running sounding met a fault of its engine (R623) -/
  failed : Bool
  deriving DecidableEq, Repr

/-- A DIGEST that waits for its replicas (R199). -/
structure DigestWait where
  eng : Nat
  ctx : Nat
  sid : Nat
  step : W32
  own : List Byte
  deriving DecidableEq, Repr

/-- The adapter digest groups (R198 to R200). -/
structure DigestState where
  /-- digests buffered: group, peer, step and digest -/
  peers : List (Nat × Nat × W32 × List Byte)
  waiting : Map DigestWait
  /-- group register writes held while a DIGEST waits: group, peer register or not, word, value -/
  held : List (Nat × Bool × Bool × W32)
  deriving DecidableEq, Repr

/-- The whole block. -/
structure State where
  pending : List Instr
  /-- device-physical memory that differs from zero: commons, local GDDR6, and the neighbours' bytes this
  device holds -/
  mem : List Host.Cell
  /-- registers that have been set, by control address; any other holds its reset value -/
  regs : Map W64
  /-- the read capture of each source (R16): register address and high word -/
  cap : Map (Nat × W32)
  /-- SEL registers held once per role, at 16 × block + role -/
  sel : Map W64
  hp : HpState
  sx : SxState
  image : Option Image
  load : Option Load
  fc : FcState
  pw : PwState
  ck : CkState
  dx : DxState
  engines : List Engine
  km : KmState
  se : SeState
  tu : TuState
  /-- GDDR6 start-up stage in progress (R659), and whether the run includes stage 7 (R661) -/
  mcStage : Option (Nat × Bool)
  dm : Map DmChan
  /-- the channels that DM's read engine and write engine served last (R394) -/
  dmTurn : Nat × Nat
  lx : LxState
  af : AfState
  lo : LoState
  ip : IpState
  sd : SdState
  dig : DigestState
  /-- RESET_N is low at the ball -/
  resetLow : Bool
  /-- numbers the free values (the model's own field) -/
  free : Nat
  deriving DecidableEq, Repr

/-! ### Reset -/

/-- The reaction table without an image (R608). -/
def fcTableReset : List (Nat × Nat) := List.replicate 63 (0, 1) ++ [(4, 0)]

/-- A port at reset: OFF, every count zero. -/
def LxPort.reset : LxPort where
  state := 0
  back := 0
  peer := 0
  pport := 0
  ctl := 0x000A2710
  eq := 0x000A0204
  received := 0
  waiting := false
  sinceLack := 0
  sinceLnak := 0
  frames := 0
  sent := 0
  replay := []
  resend := none
  lnak := 0
  lnakRun := 0
  part := []
  ctrl := []
  txq := []
  tail := []
  held := []
  units := []
  rx := []
  used := []
  owed := []
  lane := none

/-- A Lookout run that has seen no frame. -/
def LoRun.reset : LoRun where
  anchor := 0
  start := 0
  frames := 0
  hist := []
  high := 0
  low := 0
  since := none
  kept := []

/-- An idle engine. -/
def Engine.reset : Engine where
  strand := none
  running := none
  yield := false
  prescale := []
  heldWatch := []
  drifted := []

/-- A camera port at reset. -/
def IpPort.reset : IpPort where
  running := false
  admitted := false
  frame := none
  serial := 0
  bands := none
  verdicts := []
  ctl := 0

/-- HP at reset (R665). -/
def HpState.reset : HpState where
  dtr := false
  requests := []
  outq := []
  discard := []
  lost := []
  evSerial := []
  fldSerial := []
  dq := []

/-- SX at reset, with blank fuses (log 5). -/
def SxState.reset : SxState where
  owners := []
  tallyUsed := 0
  tallyBurnt := 0
  epoch := none
  kems := []
  kemMade := 0
  modelKeys := []
  memKeys := []
  sessionKeys := []
  inCtr := []
  outCtr := []
  prefixKeys := []
  loads := 0
  tallyLow := false
  quote := none
  burn := none
  queue := []

/-- FC at reset. -/
def FcState.reset : FcState where
  table := fcTableReset
  pulses := []
  resets := []
  fieldReset := none
  held := none

/-- PW at reset: Doze (R656). Derate level, budget and quiet count start at 0 (log 6). -/
def PwState.reset : PwState where
  rung := .doze
  claims := []
  raised := []
  hostClaim := none
  island := none
  entry := none
  window := false
  latch := false
  dramEn := false
  level := 0
  budget := 0
  quiet := 0
  hot := false
  held := []
  zeroing := []
  wakeTimer := false
  deepest := .doze
  loss := 0
  lostFields := []

/-- DX at reset: every context CLOSED. -/
def DxState.reset : DxState where
  ctxs := []
  shared := []
  commitQ := []
  switchQ := []
  switchLate := false
  furrowField := none
  phase := 0
  guard := false
  stamp := 0

/-- KM at reset: every frame free (R245). -/
def KmState.reset : KmState where
  descs := []
  free := 65536
  head := 0
  table := []
  recs := []
  nodes := []
  use := []
  walks := []
  edits := []
  copier := []
  starved := []
  heldMode := none

/-- SE at reset: every slot free. -/
def SeState.reset : SeState where
  slots := []
  streams := []
  commits := []
  lastUse := []
  swapQ := []
  stages := []
  displaced := []

/-- TU at reset: nothing mapped. -/
def TuState.reset : TuState where
  objs := []
  pages := []
  leaves := []
  poison := []
  leases := []
  heldWrites := []
  pending := []
  sow := none
  use := []
  rotation := []
  op := none
  fetched := []
  far := []

/-- AF stopped: both rings empty (R455); the active set holds the reset values of AF.MICm. -/
def AfState.reset : AfState where
  running := false
  count := 0
  ring := []
  beam := []
  hist := []
  pdm := []
  array := none
  splice := none
  active := List.replicate 8 (0, 0x4000)
  streams := []
  bufs := []

/-- LO without models. -/
def LoState.reset : LoState where
  model0 := none
  model1 := none
  run0 := LoRun.reset
  session := none

/-- IP at reset. -/
def IpState.reset : IpState where
  ports := List.replicate 4 IpPort.reset
  gate := 0x0200000000000000
  entry := 0
  fresh := false
  run := 0

/-- The machine after reset (R655, R656): no image, on Doze, every store but the fuses empty; the fuses are
those of a blank part (log 5). HP has not yet queued BOOTED: COLD_BOOT does. -/
def State.reset : State where
  pending := []
  mem := []
  regs := []
  cap := []
  sel := []
  hp := HpState.reset
  sx := SxState.reset
  image := none
  load := none
  fc := FcState.reset
  pw := PwState.reset
  ck := ⟨false, false⟩
  dx := DxState.reset
  engines := List.replicate 11 Engine.reset
  km := KmState.reset
  se := SeState.reset
  tu := TuState.reset
  mcStage := none
  dm := []
  dmTurn := (31, 31)
  lx := ⟨List.replicate 4 LxPort.reset, [], 0, [], 0⟩
  af := AfState.reset
  lo := LoState.reset
  ip := IpState.reset
  sd := ⟨[], none, false⟩
  dig := ⟨[], [], []⟩
  resetLow := false
  free := 0

end Sys2Proof.Machine
end

