-- ==== Sys2Proof/Machine/RegMap.lean ====
section
/-!
DEFINITION. The register windows of R14 and R15 as data: for every register its windows, offset, width, reset
value and access masks, copied from the register tables of chapters 3 and 6 to 21 (the rule is named in each
row's comment), and a name for each register's control address.
-/
namespace Sys2Proof.Machine

/-- R14: the control address of offset `off` in the window of block `b`. -/
def regAddr (b off : Nat) : Nat := 0x01000000 + b * 0x10000 + off

/-- One row of a register table: the block numbers whose windows hold it, its offset, the step and number of an
array, its width, its reset value, and the masks of its rw, w1c and wo bits (R19). Every other bit is ro or rs. -/
structure RegDesc where
  blocks : List Nat
  off : Nat
  step : Nat
  cnt : Nat
  width : Nat
  reset : Nat
  rw : Nat
  w1c : Nat
  wo : Nat
  deriving DecidableEq, Repr

/-- The blocks that have a register window (R5). -/
def snapBlocks : List Nat := (List.range 16) ++ [31, 32, 33, 34, 35, 36, 37, 38, 39, 40, 41, 42, 43, 44, 63]

/-- The rows of the ME windows. -/
def regRowsMe : List RegDesc :=
  [-- ME.INFO (R204)
   ⟨[0, 1, 2, 3, 4], 0x0, 0, 1, 32, 0x8202010, 0x0, 0x0, 0x0⟩,
   -- ME.STATUS (R204)
   ⟨[0, 1, 2, 3, 4], 0x4, 0, 1, 32, 0xFFFF, 0x0, 0x0, 0x0⟩,
   -- ME.ERR (R204)
   ⟨[0, 1, 2, 3, 4], 0x8, 0, 1, 32, 0x0, 0x0, 0x7, 0x0⟩,
   -- ME.INJECT (R204)
   ⟨[0, 1, 2, 3, 4], 0xC, 0, 1, 32, 0x0, 0x707, 0x0, 0x0⟩,
   -- ME.CMDS (R205)
   ⟨[0, 1, 2, 3, 4], 0x10, 0, 1, 64, 0x0, 0x0, 0x0, 0x0⟩,
   -- ME.FURROW_WAIT (R205)
   ⟨[0, 1, 2, 3, 4], 0x18, 0, 1, 64, 0x0, 0x0, 0x0, 0x0⟩,
   -- ME.DGRPn (R206)
   ⟨[0, 1, 2, 3, 4], 0x100, 8, 8, 64, 0x0, 0x8007FFFFFFFF0000, 0x0, 0x0⟩,
   -- ME.DPEERn (R206)
   ⟨[0, 1, 2, 3, 4], 0x140, 8, 8, 64, 0x0, 0xFFFFFFFFFFFFFFFF, 0x0, 0x0⟩,
   -- ME.DSTATn (R206)
   ⟨[0, 1, 2, 3, 4], 0x180, 8, 8, 64, 0x0, 0x0, 0x0, 0x0⟩]

/-- The rows of the AE windows. -/
def regRowsAe : List RegDesc :=
  [-- AE.INFO (R236)
   ⟨[5, 6], 0x0, 0, 1, 32, 0x4202010, 0x0, 0x0, 0x0⟩,
   -- AE.STATUS (R236)
   ⟨[5, 6], 0x4, 0, 1, 32, 0xFFFF, 0x0, 0x0, 0x0⟩,
   -- AE.ERR (R236)
   ⟨[5, 6], 0x8, 0, 1, 32, 0x0, 0x0, 0x7, 0x0⟩,
   -- AE.INJECT (R236)
   ⟨[5, 6], 0xC, 0, 1, 32, 0x0, 0x307, 0x0, 0x0⟩,
   -- AE.CMDS (R205)
   ⟨[5, 6], 0x10, 0, 1, 64, 0x0, 0x0, 0x0, 0x0⟩,
   -- AE.WALK_WAIT (R205)
   ⟨[5, 6], 0x18, 0, 1, 64, 0x0, 0x0, 0x0, 0x0⟩,
   -- AE.EMPTYROWS (R236)
   ⟨[5, 6], 0x20, 0, 1, 32, 0x0, 0x0, 0x0, 0x0⟩]

/-- The rows of the SE window. -/
def regRowsSe : List RegDesc :=
  [-- SE.INFO (R312)
   ⟨[7], 0x0, 0, 1, 32, 0x4080010, 0x0, 0x0, 0x0⟩,
   -- SE.STATUS (R312)
   ⟨[7], 0x4, 0, 1, 32, 0xFFFF, 0x0, 0x0, 0x0⟩,
   -- SE.ERR (R312)
   ⟨[7], 0x8, 0, 1, 32, 0x0, 0x0, 0xF, 0x0⟩,
   -- SE.INJECT (R312)
   ⟨[7], 0xC, 0, 1, 32, 0x0, 0x70F, 0x0, 0x0⟩,
   -- SE.CMDS (R205)
   ⟨[7], 0x10, 0, 1, 64, 0x0, 0x0, 0x0, 0x0⟩,
   -- SE.SWAP_WAIT (R205)
   ⟨[7], 0x18, 0, 1, 64, 0x0, 0x0, 0x0, 0x0⟩,
   -- SE.SLOTQ (R312)
   ⟨[7], 0x20, 0, 1, 32, 0x0, 0x0, 0x0, 0x0⟩,
   -- SE.SEL (R312)
   ⟨[7], 0x24, 0, 1, 32, 0x0, 0xFFFF, 0x0, 0x0⟩,
   -- SE.REC (R312)
   ⟨[7], 0x28, 0, 1, 64, 0x0, 0x0, 0x0, 0x0⟩,
   -- SE.SATCNT (R312)
   ⟨[7], 0x30, 0, 1, 32, 0x0, 0x0, 0x0, 0x0⟩,
   -- SE.FIELDf (R312)
   ⟨[7], 0x40, 8, 8, 64, 0x0, 0x0, 0x0, 0x0⟩]

/-- The rows of the WE windows. -/
def regRowsWe : List RegDesc :=
  [-- WE.INFO (R339)
   ⟨[8, 9], 0x0, 0, 1, 32, 0x8202010, 0x0, 0x0, 0x0⟩,
   -- WE.STATUS (R339)
   ⟨[8, 9], 0x4, 0, 1, 32, 0xFFFF, 0x0, 0x10000000, 0x0⟩,
   -- WE.ERR (R339)
   ⟨[8, 9], 0x8, 0, 1, 32, 0x0, 0x0, 0x7, 0x0⟩,
   -- WE.INJECT (R339)
   ⟨[8, 9], 0xC, 0, 1, 32, 0x0, 0x707, 0x0, 0x0⟩,
   -- WE.CMDS (R205)
   ⟨[8, 9], 0x10, 0, 1, 64, 0x0, 0x0, 0x0, 0x0⟩,
   -- WE.HALO_WAIT (R205)
   ⟨[8, 9], 0x18, 0, 1, 64, 0x0, 0x0, 0x0, 0x0⟩,
   -- WE.EMPTYCMDS (R339)
   ⟨[8, 9], 0x20, 0, 1, 32, 0x0, 0x0, 0x0, 0x0⟩]

/-- The rows of the EE window. -/
def regRowsEe : List RegDesc :=
  [-- EE.INFO (R339)
   ⟨[10], 0x0, 0, 1, 32, 0x1202010, 0x0, 0x0, 0x0⟩,
   -- EE.STATUS (R339)
   ⟨[10], 0x4, 0, 1, 32, 0xFFFF, 0x0, 0x10000000, 0x0⟩,
   -- EE.ERR (R339)
   ⟨[10], 0x8, 0, 1, 32, 0x0, 0x0, 0x7, 0x0⟩,
   -- EE.INJECT (R339)
   ⟨[10], 0xC, 0, 1, 32, 0x0, 0x7, 0x0, 0x0⟩,
   -- EE.CMDS (R205)
   ⟨[10], 0x10, 0, 1, 64, 0x0, 0x0, 0x0, 0x0⟩,
   -- EE.EMPTYCMDS (R339)
   ⟨[10], 0x20, 0, 1, 32, 0x0, 0x0, 0x0, 0x0⟩]

/-- The rows of the QU group of every engine window. -/
def regRowsQu : List RegDesc :=
  [-- QU.CTL (R103)
   ⟨[0, 1, 2, 3, 4, 5, 6, 7, 8, 9, 10], 0x800, 0, 1, 32, 0x0, 0x1FFFF, 0x0, 0x0⟩,
   -- QU.STATUS (R104)
   ⟨[0, 1, 2, 3, 4, 5, 6, 7, 8, 9, 10], 0x804, 0, 1, 32, 0x0, 0x0, 0x7, 0x0⟩,
   -- QU.SYNCCNT (R105)
   ⟨[0, 1, 2, 3, 4, 5, 6, 7, 8, 9, 10], 0x808, 0, 1, 32, 0x0, 0x0, 0x0, 0x0⟩,
   -- QU.BADCODE (R105)
   ⟨[0, 1, 2, 3, 4, 5, 6, 7, 8, 9, 10], 0x80C, 0, 1, 32, 0x0, 0x0, 0x0, 0x0⟩,
   -- QU.DRIFT (R106)
   ⟨[0, 1, 2, 3, 4, 5, 6, 7, 8, 9, 10], 0x810, 0, 1, 64, 0x0, 0x0, 0xFFFFFFFFFFFFFFFF, 0x0⟩,
   -- QU.CLEAR (R106)
   ⟨[0, 1, 2, 3, 4, 5, 6, 7, 8, 9, 10], 0x818, 0, 1, 64, 0x0, 0x0, 0x0, 0xFFFFFFFFFFFFFFFF⟩,
   -- QU.WATCHn (R107)
   ⟨[0, 1, 2, 3, 4, 5, 6, 7, 8, 9, 10], 0x900, 8, 64, 64, 0x0, 0x8007FFFF0000FFFF, 0x0, 0x0⟩,
   -- QU.SATCNTn (R108)
   ⟨[0, 1, 2, 3, 4, 5, 6, 7, 8, 9, 10], 0xB00, 8, 64, 64, 0x0, 0x0, 0x0, 0x0⟩]

/-- The rows of the IP window. -/
def regRowsIp : List RegDesc :=
  [-- IP.INFO (R507)
   ⟨[11], 0x0, 0, 1, 32, 0x4000010, 0x0, 0x0, 0x0⟩,
   -- IP.ERR (R507)
   ⟨[11], 0x4, 0, 1, 32, 0x0, 0x0, 0x3, 0x0⟩,
   -- IP.INJECT (R507)
   ⟨[11], 0x8, 0, 1, 32, 0x0, 0x3, 0x0, 0x0⟩,
   -- IP.GATE (R507)
   ⟨[11], 0x10, 0, 1, 64, 0x200000000000000, 0xFE00FFFFFFFF0000, 0x0, 0x0⟩,
   -- IP.GATEENTRY (R507)
   ⟨[11], 0x18, 0, 1, 32, 0x0, 0xFFFFFFFF, 0x0, 0x0⟩,
   -- IP.GATESCORE (R507)
   ⟨[11], 0x1C, 0, 1, 32, 0x0, 0x3FFFFF, 0x0, 0x0⟩,
   -- IP.GATECNT (R507)
   ⟨[11], 0x20, 0, 1, 64, 0x0, 0x0, 0x0, 0x0⟩,
   -- IP.PORTp.CTL (R507)
   ⟨[11], 0x100, 64, 4, 32, 0x0, 0x800300FF, 0x0, 0x0⟩,
   -- IP.PORTp.STATUS (R507)
   ⟨[11], 0x104, 64, 4, 32, 0x0, 0x0, 0x0, 0x0⟩,
   -- IP.PORTp.PARAM (R507)
   ⟨[11], 0x108, 64, 4, 32, 0x0, 0x3FFFFF, 0x0, 0x0⟩,
   -- IP.PORTp.CNT0 (R507)
   ⟨[11], 0x110, 64, 4, 64, 0x0, 0x0, 0x0, 0x0⟩,
   -- IP.PORTp.CNT1 (R507)
   ⟨[11], 0x118, 64, 4, 64, 0x0, 0x0, 0x0, 0x0⟩]

/-- The rows of the AF window. -/
def regRowsAf : List RegDesc :=
  [-- AF.INFO (R477)
   ⟨[12], 0x0, 0, 1, 32, 0x8000010, 0x0, 0x0, 0x0⟩,
   -- AF.CFG (R477)
   ⟨[12], 0x4, 0, 1, 32, 0x1000100, 0xFF01FF00, 0x0, 0x0⟩,
   -- AF.STATUS (R477)
   ⟨[12], 0x8, 0, 1, 32, 0x0, 0x0, 0x0, 0x0⟩,
   -- AF.ERR (R477)
   ⟨[12], 0xC, 0, 1, 32, 0x0, 0x0, 0x3, 0x0⟩,
   -- AF.INJECT (R477)
   ⟨[12], 0x10, 0, 1, 32, 0x0, 0x3, 0x0, 0x0⟩,
   -- AF.SAMPLE (R477)
   ⟨[12], 0x14, 0, 1, 32, 0x0, 0x0, 0x0, 0x0⟩,
   -- AF.SPLICE (R477)
   ⟨[12], 0x18, 0, 1, 64, 0x0, 0x0, 0x0, 0x0⟩,
   -- AF.BEAMCTL (R477)
   ⟨[12], 0x20, 0, 1, 32, 0x0, 0x0, 0x0, 0x1⟩,
   -- AF.CLIP (R477)
   ⟨[12], 0x24, 0, 1, 32, 0x0, 0x0, 0x0, 0x0⟩,
   -- AF.MICm (R477)
   ⟨[12], 0x40, 4, 8, 32, 0x40000000, 0xFFFF00FF, 0x0, 0x0⟩]

/-- The rows of the LO window. -/
def regRowsLo : List RegDesc :=
  [-- LO.INFO (R477)
   ⟨[13], 0x0, 0, 1, 32, 0x400010, 0x0, 0x0, 0x0⟩,
   -- LO.STATUS (R477)
   ⟨[13], 0x4, 0, 1, 32, 0x0, 0x0, 0x0, 0x0⟩,
   -- LO.ERR (R477)
   ⟨[13], 0x8, 0, 1, 32, 0x0, 0x0, 0x3, 0x0⟩,
   -- LO.INJECT (R477)
   ⟨[13], 0xC, 0, 1, 32, 0x0, 0x3, 0x0, 0x0⟩,
   -- LO.HIT0 (R477)
   ⟨[13], 0x10, 0, 1, 32, 0x0, 0x0, 0x0, 0x0⟩,
   -- LO.HIT1 (R477)
   ⟨[13], 0x14, 0, 1, 32, 0x0, 0x0, 0x0, 0x0⟩,
   -- LO.CNT (R477)
   ⟨[13], 0x18, 0, 1, 64, 0x0, 0x0, 0x0, 0x0⟩]

/-- The rows of the CM window. -/
def regRowsCm : List RegDesc :=
  [-- CM.ERR (R390)
   ⟨[14], 0x0, 0, 1, 32, 0x0, 0x0, 0x1, 0x0⟩,
   -- CM.INJECT (R390)
   ⟨[14], 0x4, 0, 1, 32, 0x0, 0x7F03, 0x0, 0x0⟩,
   -- CM.CNT (R390)
   ⟨[14], 0x8, 0, 1, 32, 0x0, 0x0, 0x0, 0x0⟩]

/-- The rows of the MC window. -/
def regRowsMc : List RegDesc :=
  [-- MC.INFO (R390)
   ⟨[15], 0x0, 0, 1, 32, 0x10, 0x0, 0x0, 0x0⟩,
   -- MC.ERR (R390)
   ⟨[15], 0x4, 0, 1, 32, 0x0, 0x0, 0xFFFF, 0x0⟩,
   -- MC.INJECT (R390)
   ⟨[15], 0x8, 0, 1, 32, 0x0, 0xF0007, 0x0, 0x0⟩,
   -- MC.TRAIN (R667)
   ⟨[15], 0x10, 0, 1, 32, 0x7D0, 0xFFFF, 0x0, 0x80000000⟩,
   -- MC.TSTAT (R667)
   ⟨[15], 0x18, 0, 1, 64, 0x0, 0x0, 0x0, 0x0⟩,
   -- MC.TTIME (R667)
   ⟨[15], 0x20, 0, 1, 32, 0x0, 0x0, 0x0, 0x0⟩,
   -- MC.CHc (R390)
   ⟨[15], 0x100, 8, 16, 64, 0x0, 0x0, 0x0, 0x0⟩]

/-- The rows of the TU window. -/
def regRowsTu : List RegDesc :=
  [-- TU.INFO (R390)
   ⟨[31], 0x0, 0, 1, 32, 0x20000010, 0x0, 0x0, 0x0⟩,
   -- TU.CTL (R390)
   ⟨[31], 0x4, 0, 1, 32, 0x4, 0xF, 0x0, 0x0⟩,
   -- TU.ERR (R390)
   ⟨[31], 0x8, 0, 1, 32, 0x0, 0x0, 0x7, 0x0⟩,
   -- TU.INJECT (R390)
   ⟨[31], 0xC, 0, 1, 32, 0x0, 0x7, 0x0, 0x0⟩,
   -- TU.LEND (R390)
   ⟨[31], 0x10, 0, 1, 32, 0x0, 0x8000FFFF, 0x0, 0x0⟩,
   -- TU.FURROW (R390)
   ⟨[31], 0x14, 0, 1, 32, 0x0, 0x0, 0x0, 0x0⟩,
   -- TU.SOW (R390)
   ⟨[31], 0x18, 0, 1, 64, 0xFFFF000000000000, 0x0, 0x0, 0x0⟩,
   -- TU.SEL (R390)
   ⟨[31], 0x20, 0, 1, 64, 0x0, 0x70000FFFFFF, 0x0, 0x0⟩,
   -- TU.DESC0 (R390)
   ⟨[31], 0x28, 0, 1, 64, 0x0, 0x0, 0x0, 0x0⟩,
   -- TU.DESC1 (R390)
   ⟨[31], 0x30, 0, 1, 64, 0x0, 0x0, 0x0, 0x0⟩,
   -- TU.NBRn (R390)
   ⟨[31], 0x40, 8, 8, 64, 0x0, 0x83FFFFFFFFF7FFFF, 0x0, 0x0⟩,
   -- TU.FIELDf (R390)
   ⟨[31], 0x80, 8, 8, 64, 0x0, 0xF000000000000000, 0x0, 0x0⟩,
   -- TU.FCNTf (R390)
   ⟨[31], 0xC0, 8, 8, 64, 0x0, 0x0, 0x0, 0x0⟩]

/-- The rows of the DM window. -/
def regRowsDm : List RegDesc :=
  [-- DM.INFO (R414)
   ⟨[32], 0x0, 0, 1, 32, 0x20800010, 0x0, 0x0, 0x0⟩,
   -- DM.ERR (R414)
   ⟨[32], 0x4, 0, 1, 32, 0x0, 0x0, 0x3, 0x0⟩,
   -- DM.INJECT (R414)
   ⟨[32], 0x8, 0, 1, 32, 0x0, 0x3, 0x0, 0x0⟩,
   -- DM.BUSY (R414)
   ⟨[32], 0xC, 0, 1, 32, 0x0, 0x0, 0x0, 0x0⟩,
   -- DM.DROPPED (R414)
   ⟨[32], 0x10, 0, 1, 32, 0x0, 0x0, 0x0, 0x0⟩,
   -- DM.CHn.CFG (R414)
   ⟨[32], 0x100, 64, 32, 64, 0xF00000000, 0xFFFFFFFF03FFF800, 0x0, 0x0⟩,
   -- DM.CHn.SRC (R414)
   ⟨[32], 0x108, 64, 32, 64, 0x0, 0xFFFFFC000FFF0000, 0x0, 0x0⟩,
   -- DM.CHn.DST (R414)
   ⟨[32], 0x110, 64, 32, 64, 0x0, 0xFFFFFC000FFF0000, 0x0, 0x0⟩,
   -- DM.CHn.TIMER (R414)
   ⟨[32], 0x118, 64, 32, 64, 0x0, 0x80000000FFFFFFFF, 0x0, 0x0⟩,
   -- DM.CHn.STAT (R414)
   ⟨[32], 0x120, 64, 32, 64, 0x0, 0x0, 0x20000000, 0x0⟩,
   -- DM.CHn.RUNS (R414)
   ⟨[32], 0x128, 64, 32, 64, 0x0, 0x0, 0x0, 0x0⟩,
   -- DM.CHn.CTL (R414)
   ⟨[32], 0x130, 64, 32, 32, 0x0, 0x0, 0x0, 0x3⟩]

/-- The rows of the LX windows. -/
def regRowsLx : List RegDesc :=
  [-- LX.INFO (R570)
   ⟨[33, 34, 35, 36], 0x0, 0, 1, 32, 0x2000010, 0x0, 0x0, 0x0⟩,
   -- LX.CTL (R570)
   ⟨[33, 34, 35, 36], 0x4, 0, 1, 32, 0xA2710, 0xC0FFFFFF, 0x0, 0x0⟩,
   -- LX.ERR (R570)
   ⟨[33, 34, 35, 36], 0x8, 0, 1, 32, 0x0, 0x0, 0x7, 0x0⟩,
   -- LX.INJECT (R570)
   ⟨[33, 34, 35, 36], 0xC, 0, 1, 32, 0x0, 0xF, 0x0, 0x0⟩,
   -- LX.ID (R570)
   ⟨[33, 34, 35, 36], 0x10, 0, 1, 64, 0x0, 0xFFFFFFFF000FFFFF, 0x0, 0x0⟩,
   -- LX.STATUS (R570)
   ⟨[33, 34, 35, 36], 0x18, 0, 1, 32, 0x0, 0x0, 0x0, 0x0⟩,
   -- LX.EQ (R570)
   ⟨[33, 34, 35, 36], 0x1C, 0, 1, 32, 0xA0204, 0xF0F0F, 0x0, 0x0⟩,
   -- LX.CNT0 (R570)
   ⟨[33, 34, 35, 36], 0x20, 0, 1, 64, 0x0, 0x0, 0x0, 0x0⟩,
   -- LX.CNT1 (R570)
   ⟨[33, 34, 35, 36], 0x28, 0, 1, 64, 0x0, 0x0, 0x0, 0x0⟩]

/-- The rows of the SX window. -/
def regRowsSx : List RegDesc :=
  [-- SX.INFO (R602)
   ⟨[37], 0x0, 0, 1, 32, 0x4400010, 0x0, 0x0, 0x0⟩,
   -- SX.STATUS (R602)
   ⟨[37], 0x4, 0, 1, 32, 0x0, 0x0, 0x0, 0x0⟩,
   -- SX.ERR (R602)
   ⟨[37], 0x8, 0, 1, 32, 0x0, 0x0, 0x7, 0x0⟩,
   -- SX.INJECT (R602)
   ⟨[37], 0xC, 0, 1, 32, 0x0, 0x7, 0x0, 0x0⟩,
   -- SX.TALLY (R602)
   ⟨[37], 0x10, 0, 1, 32, 0x0, 0x0, 0x0, 0x0⟩,
   -- SX.TELEM (R602)
   ⟨[37], 0x14, 0, 1, 32, 0x0, 0x0, 0x0, 0x0⟩,
   -- SX.KEYS (R602)
   ⟨[37], 0x18, 0, 1, 64, 0x0, 0x0, 0x0, 0x0⟩,
   -- SX.CNT (R602)
   ⟨[37], 0x20, 0, 1, 64, 0x0, 0x0, 0x0, 0x0⟩,
   -- SX.EPOCHf (R602)
   ⟨[37], 0x40, 4, 8, 32, 0x0, 0x0, 0x0, 0x0⟩]

/-- The rows of the KM window. -/
def regRowsKm : List RegDesc :=
  [-- KM.INFO (R276)
   ⟨[38], 0x0, 0, 1, 32, 0x10, 0x0, 0x0, 0x0⟩,
   -- KM.CTL (R276)
   ⟨[38], 0x4, 0, 1, 32, 0x0, 0x1, 0x0, 0x0⟩,
   -- KM.ERR (R276)
   ⟨[38], 0x8, 0, 1, 32, 0x0, 0x0, 0x7, 0x0⟩,
   -- KM.INJECT (R276)
   ⟨[38], 0xC, 0, 1, 32, 0x0, 0x7, 0x0, 0x0⟩,
   -- KM.FRAMEQ (R276)
   ⟨[38], 0x10, 0, 1, 64, 0x1000000000000, 0x0, 0x0, 0x0⟩,
   -- KM.SEL (R276)
   ⟨[38], 0x18, 0, 1, 32, 0x0, 0xFFFF, 0x0, 0x0⟩,
   -- KM.REC (R276)
   ⟨[38], 0x20, 0, 1, 64, 0x0, 0x0, 0x0, 0x0⟩,
   -- KM.FIELDf (R276)
   ⟨[38], 0x40, 8, 8, 64, 0x0, 0x0, 0x0, 0x0⟩,
   -- KM.FCNTf (R276)
   ⟨[38], 0x80, 8, 8, 64, 0x0, 0x0, 0x0, 0x0⟩]

/-- The rows of the DX window. -/
def regRowsDx : List RegDesc :=
  [-- DX.INFO (R446)
   ⟨[39], 0x0, 0, 1, 32, 0xA0000B10, 0x0, 0x0, 0x0⟩,
   -- DX.CTL (R446)
   ⟨[39], 0x4, 0, 1, 32, 0x1F4000A, 0xFFFFFFFF, 0x0, 0x0⟩,
   -- DX.ERR (R446)
   ⟨[39], 0x8, 0, 1, 32, 0x0, 0x0, 0x7, 0x0⟩,
   -- DX.INJECT (R446)
   ⟨[39], 0xC, 0, 1, 32, 0x0, 0x7, 0x0, 0x0⟩,
   -- DX.ROUND (R446)
   ⟨[39], 0x10, 0, 1, 32, 0x0, 0x0, 0x0, 0x0⟩,
   -- DX.DERATE (R446)
   ⟨[39], 0x14, 0, 1, 32, 0x0, 0x0, 0x0, 0x0⟩,
   -- DX.ENGINES (R446)
   ⟨[39], 0x18, 0, 1, 32, 0x0, 0x0, 0x0, 0x0⟩,
   -- DX.SEL (R446)
   ⟨[39], 0x1C, 0, 1, 32, 0x0, 0xFFFF, 0x0, 0x0⟩,
   -- DX.REC (R446)
   ⟨[39], 0x20, 0, 1, 64, 0x0, 0x0, 0x0, 0x0⟩,
   -- DX.RECJOBS (R205)
   ⟨[39], 0x28, 0, 1, 64, 0x0, 0x0, 0x0, 0x0⟩,
   -- DX.FSUBf (R205)
   ⟨[39], 0x40, 8, 8, 64, 0x0, 0x0, 0x0, 0x0⟩,
   -- DX.FDONEf (R205)
   ⟨[39], 0x80, 8, 8, 64, 0x0, 0x0, 0x0, 0x0⟩,
   -- DX.FENDf (R205)
   ⟨[39], 0xC0, 8, 8, 64, 0x0, 0x0, 0x0, 0x0⟩,
   -- DX.FOVERf (R446)
   ⟨[39], 0x100, 8, 8, 64, 0x0, 0x0, 0x0, 0x0⟩]

/-- The rows of the HP window. -/
def regRowsHp : List RegDesc :=
  [-- HP.INFO (R667)
   ⟨[40], 0x0, 0, 1, 32, 0x3404010, 0x0, 0x0, 0x0⟩,
   -- HP.STATUS (R667)
   ⟨[40], 0x4, 0, 1, 32, 0x0, 0x0, 0x0, 0x0⟩,
   -- HP.ERR (R667)
   ⟨[40], 0x8, 0, 1, 32, 0x0, 0x0, 0x3, 0x0⟩,
   -- HP.INJECT (R667)
   ⟨[40], 0xC, 0, 1, 32, 0x0, 0x3, 0x0, 0x0⟩,
   -- HP.CNT0 (R667)
   ⟨[40], 0x10, 0, 1, 64, 0x0, 0x0, 0x0, 0x0⟩,
   -- HP.CNT1 (R667)
   ⟨[40], 0x18, 0, 1, 64, 0x0, 0x0, 0x0, 0x0⟩,
   -- HP.APERr (R667)
   ⟨[40], 0x40, 8, 9, 64, 0x0, 0x0, 0x0, 0x0⟩]

/-- The rows of the PW window. -/
def regRowsPw : List RegDesc :=
  [-- PW.INFO (R537)
   ⟨[41], 0x0, 0, 1, 32, 0x7000010, 0x0, 0x0, 0x0⟩,
   -- PW.STATUS (R537)
   ⟨[41], 0x4, 0, 1, 32, 0x6C000000, 0x0, 0x0, 0x0⟩,
   -- PW.ERR (R537)
   ⟨[41], 0x8, 0, 1, 32, 0x0, 0x0, 0x1F, 0x0⟩,
   -- PW.INJECT (R537)
   ⟨[41], 0xC, 0, 1, 32, 0x0, 0x1F, 0x0, 0x0⟩,
   -- PW.LINKWAKE (R537)
   ⟨[41], 0x10, 0, 1, 32, 0x0, 0xF, 0x0, 0x0⟩,
   -- PW.LAST (R537)
   ⟨[41], 0x18, 0, 1, 64, 0x6000000000000000, 0x0, 0x0, 0x0⟩,
   -- PW.CNT (R537)
   ⟨[41], 0x20, 0, 1, 64, 0x0, 0x0, 0x0, 0x0⟩]

/-- The rows of the CK window. -/
def regRowsCk : List RegDesc :=
  [-- CK.INFO (R689)
   ⟨[42], 0x0, 0, 1, 32, 0x28000010, 0x0, 0x0, 0x0⟩,
   -- CK.STATUS (R689)
   ⟨[42], 0x4, 0, 1, 32, 0xF0000000, 0x0, 0x0, 0x0⟩,
   -- CK.ERR (R689)
   ⟨[42], 0x8, 0, 1, 32, 0x0, 0x0, 0xF, 0x0⟩,
   -- CK.INJECT (R689)
   ⟨[42], 0xC, 0, 1, 32, 0x0, 0xF, 0x0, 0x0⟩,
   -- CK.RUN (R689)
   ⟨[42], 0x10, 0, 1, 64, 0xD009704800, 0x0, 0x0, 0x0⟩,
   -- CK.CNT (R689)
   ⟨[42], 0x18, 0, 1, 32, 0x0, 0x0, 0x0, 0x0⟩]

/-- The rows of the WP window. -/
def regRowsWp : List RegDesc :=
  [-- WP.INFO (R631)
   ⟨[43], 0x0, 0, 1, 32, 0x10, 0x0, 0x0, 0x0⟩,
   -- WP.CTL (R631)
   ⟨[43], 0x4, 0, 1, 32, 0x0, 0xA0000000, 0x0, 0x40000000⟩,
   -- WP.STATUS (R631)
   ⟨[43], 0x8, 0, 1, 32, 0x7F, 0x0, 0x0, 0x0⟩,
   -- WP.ERR (R631)
   ⟨[43], 0xC, 0, 1, 32, 0x0, 0x0, 0x1, 0x0⟩,
   -- WP.TRIG (R631)
   ⟨[43], 0x10, 0, 1, 32, 0x0, 0x0, 0x0, 0x0⟩,
   -- WP.INJECT (R631)
   ⟨[43], 0x14, 0, 1, 32, 0x0, 0x1, 0x0, 0x0⟩,
   -- WP.MISSING (R631)
   ⟨[43], 0x18, 0, 1, 64, 0x0, 0x0, 0x0, 0x0⟩,
   -- WP.CNT (R631)
   ⟨[43], 0x20, 0, 1, 64, 0x0, 0x0, 0x0, 0x0⟩]

/-- The rows of the SD window. -/
def regRowsSd : List RegDesc :=
  [-- SD.INFO (R631)
   ⟨[44], 0x0, 0, 1, 32, 0x10000010, 0x0, 0x0, 0x0⟩,
   -- SD.CTL (R631)
   ⟨[44], 0x4, 0, 1, 32, 0x3E8, 0x8000FFFF, 0x0, 0x0⟩,
   -- SD.AREA (R631)
   ⟨[44], 0x8, 0, 1, 32, 0x0, 0x7F7F, 0x0, 0x0⟩,
   -- SD.ERR (R631)
   ⟨[44], 0xC, 0, 1, 32, 0x0, 0x0, 0x3, 0x0⟩,
   -- SD.INJECT (R631)
   ⟨[44], 0x10, 0, 1, 32, 0x0, 0x3, 0x0, 0x0⟩,
   -- SD.STATUS (R631)
   ⟨[44], 0x14, 0, 1, 32, 0x1F0000, 0x0, 0x0, 0x0⟩,
   -- SD.LOADED (R631)
   ⟨[44], 0x18, 0, 1, 32, 0x0, 0x0, 0x0, 0x0⟩,
   -- SD.CNT (R631)
   ⟨[44], 0x20, 0, 1, 64, 0x0, 0x0, 0x0, 0x0⟩,
   -- SD.LASTx (R631)
   ⟨[44], 0x40, 4, 11, 32, 0x0, 0x0, 0x0, 0x0⟩]

/-- The rows of the FC window. -/
def regRowsFc : List RegDesc :=
  [-- FC.INFO (R631)
   ⟨[63], 0x0, 0, 1, 32, 0x2E000010, 0x0, 0x0, 0x0⟩,
   -- FC.CTL (R631)
   ⟨[63], 0x4, 0, 1, 32, 0x0, 0x0, 0x0, 0x80000000⟩,
   -- FC.SAFE (R631)
   ⟨[63], 0x8, 0, 1, 32, 0x7F, 0x0, 0x0, 0x0⟩,
   -- FC.RESET (R631)
   ⟨[63], 0xC, 0, 1, 32, 0x0, 0x0, 0x0, 0x4000003F⟩,
   -- FC.STATUS (R631)
   ⟨[63], 0x10, 0, 1, 64, 0x0, 0x0, 0x0, 0x0⟩,
   -- FC.CLEAR (R631)
   ⟨[63], 0x18, 0, 1, 64, 0x0, 0x0, 0x0, 0xFFFFFFFFFFFFFFFF⟩,
   -- FC.FORCE (R631)
   ⟨[63], 0x20, 0, 1, 64, 0x0, 0x0, 0x0, 0xFFFFFFFFFFFFFFFF⟩,
   -- FC.FENCE (R631)
   ⟨[63], 0x28, 0, 1, 32, 0x0, 0x0, 0x7FF, 0x7FF0000⟩,
   -- FC.INJECT (R631)
   ⟨[63], 0x2C, 0, 1, 32, 0x0, 0x1, 0x0, 0x0⟩,
   -- FC.CNT (R631)
   ⟨[63], 0x30, 0, 1, 64, 0x0, 0x0, 0x0, 0x0⟩]

/-- The rows of the snapshot group of every block window. -/
def regRowsSnap : List RegDesc :=
  [-- SNAP.HDR (R631)
   ⟨snapBlocks, 0xFF00, 0, 1, 64, 0x0, 0x0, 0x0, 0x0⟩,
   -- SNAP.A (R631)
   ⟨snapBlocks, 0xFF08, 0, 1, 64, 0x0, 0x0, 0x0, 0x0⟩,
   -- SNAP.B (R631)
   ⟨snapBlocks, 0xFF10, 0, 1, 64, 0x0, 0x0, 0x0, 0x0⟩]

/-- Every register of the device. -/
def regTable : List RegDesc :=
  regRowsMe ++ regRowsAe ++ regRowsSe ++ regRowsWe ++ regRowsEe ++ regRowsQu ++ regRowsIp ++ regRowsAf ++ regRowsLo ++ regRowsCm ++ regRowsMc ++ regRowsTu ++ regRowsDm ++ regRowsLx ++ regRowsSx ++ regRowsKm ++ regRowsDx ++ regRowsHp ++ regRowsPw ++ regRowsCk ++ regRowsWp ++ regRowsSd ++ regRowsFc ++ regRowsSnap

/-- The row that offset `o` of block `b`'s window belongs to, and the offset of its register there. -/
def regFind (b o : Nat) : List RegDesc → Option (RegDesc × Nat)
  | [] => none
  | d :: ds =>
    let k := if d.step = 0 then 0 else (o - d.off) / d.step
    let base := d.off + k * d.step
    if b ∈ d.blocks ∧ d.off ≤ o ∧ k < d.cnt ∧ base ≤ o ∧ o < base + d.width / 8 then some (d, base)
    else regFind b o ds

/-- One register under several addresses: LX.ID (R569), and the digest group registers (R206). -/
def regCanon (b o : Nat) : Nat :=
  if 33 ≤ b ∧ b ≤ 36 ∧ o = 0x10 then regAddr 33 0x10
  else if b ≤ 4 ∧ 0x100 ≤ o ∧ o < 0x1C0 then regAddr 0 o
  else regAddr b o

/-- The register that holds control address `a`: its row, its (canonical) address, its block, and whether `a` is
its high word. None where R15 reads zero. -/
def regAt (a : Nat) : Option (RegDesc × Nat × Nat × Bool) :=
  let b := a / 0x10000 - 0x100
  let o := a % 0x10000
  if a < 0x01000000 ∨ 0x01400000 ≤ a then none
  else match regFind b (o / 4 * 4) regTable with
    | none => none
    | some (d, base) => some (d, regCanon b base, b, base < o / 4 * 4)

/-- The reset value of the register at control address `a` (chapter 22), with the two rows whose value depends
on the window: LX.INFO.PORT, and the OWNER bit of DM channels 0 to 3. -/
def regReset (a : Nat) : Nat :=
  match regAt a with
  | none => 0
  | some (d, c, b, _) =>
    if 33 ≤ b ∧ b ≤ 36 ∧ d.off = 0 then d.reset + (b - 33) * 0x10000
    else if b = 32 ∧ d.off = 0x100 ∧ c < regAddr 32 0x200 then d.reset + 2 ^ 62
    else d.reset

/-- The value of the register at `a`. -/
def State.reg (s : State) (a : Nat) : Nat :=
  match s.regs.find? (fun p => p.1 == a) with
  | some p => p.2.toNat
  | none => regReset a

/-- Bits `[hi:lo]` of the register at `a`. -/
def State.getF (s : State) (a hi lo : Nat) : Nat := bits (s.reg a) hi lo

/-! ### Names of the registers -/

/-- STATUS of an engine (R204 and the like chapters). -/
abbrev Reg.engStatus (e : Nat) : Nat := regAddr e 4

/-- ERR of an engine. -/
abbrev Reg.engErr (e : Nat) : Nat := regAddr e 8

/-- INJECT of an engine. -/
abbrev Reg.engInject (e : Nat) : Nat := regAddr e 0xC

/-- CMDS of an engine (R205). -/
abbrev Reg.engCmds (e : Nat) : Nat := regAddr e 0x10

/-- The wait count of an engine: FURROW_WAIT, WALK_WAIT, SWAP_WAIT or HALO_WAIT (R205). -/
abbrev Reg.engWait (e : Nat) : Nat := regAddr e 0x18

/-- ME.DGRPn (R206). -/
abbrev Reg.meDgrp (n : Nat) : Nat := regAddr 0 (0x100 + 8 * n)

/-- ME.DPEERn (R206). -/
abbrev Reg.meDpeer (n : Nat) : Nat := regAddr 0 (0x140 + 8 * n)

/-- ME.DSTATn (R206). -/
abbrev Reg.meDstat (n : Nat) : Nat := regAddr 0 (0x180 + 8 * n)

/-- AE.EMPTYROWS (R236). -/
abbrev Reg.aeEmptyrows (e : Nat) : Nat := regAddr e 0x20

/-- SE.INFO (R312). -/
abbrev Reg.seInfo : Nat := regAddr 7 0x0

/-- SE.STATUS (R312). -/
abbrev Reg.seStatus : Nat := regAddr 7 0x4

/-- SE.ERR (R312). -/
abbrev Reg.seErr : Nat := regAddr 7 0x8

/-- SE.INJECT (R312). -/
abbrev Reg.seInject : Nat := regAddr 7 0xC

/-- SE.CMDS (R205). -/
abbrev Reg.seCmds : Nat := regAddr 7 0x10

/-- SE.SWAP_WAIT (R205). -/
abbrev Reg.seSwapwait : Nat := regAddr 7 0x18

/-- SE.SLOTQ (R312). -/
abbrev Reg.seSlotq : Nat := regAddr 7 0x20

/-- SE.SEL (R312). -/
abbrev Reg.seSel : Nat := regAddr 7 0x24

/-- SE.REC (R312). -/
abbrev Reg.seRec : Nat := regAddr 7 0x28

/-- SE.SATCNT (R312). -/
abbrev Reg.seSatcnt : Nat := regAddr 7 0x30

/-- SE.FIELDf (R312). -/
abbrev Reg.seField (n : Nat) : Nat := regAddr 7 (0x40 + 8 * n)

/-- WE.EMPTYCMDS (R339). -/
abbrev Reg.weEmptycmds (e : Nat) : Nat := regAddr e 0x20

/-- EE.EMPTYCMDS (R339). -/
abbrev Reg.eeEmptycmds : Nat := regAddr 10 0x20

/-- QU.CTL (R103). -/
abbrev Reg.quCtl (e : Nat) : Nat := regAddr e 0x800

/-- QU.STATUS (R104). -/
abbrev Reg.quStatus (e : Nat) : Nat := regAddr e 0x804

/-- QU.SYNCCNT (R105). -/
abbrev Reg.quSynccnt (e : Nat) : Nat := regAddr e 0x808

/-- QU.BADCODE (R105). -/
abbrev Reg.quBadcode (e : Nat) : Nat := regAddr e 0x80C

/-- QU.DRIFT (R106). -/
abbrev Reg.quDrift (e : Nat) : Nat := regAddr e 0x810

/-- QU.CLEAR (R106). -/
abbrev Reg.quClear (e : Nat) : Nat := regAddr e 0x818

/-- QU.WATCHn (R107). -/
abbrev Reg.quWatch (e : Nat) (n : Nat) : Nat := regAddr e (0x900 + 8 * n)

/-- QU.SATCNTn (R108). -/
abbrev Reg.quSatcnt (e : Nat) (n : Nat) : Nat := regAddr e (0xB00 + 8 * n)

/-- IP.INFO (R507). -/
abbrev Reg.ipInfo : Nat := regAddr 11 0x0

/-- IP.ERR (R507). -/
abbrev Reg.ipErr : Nat := regAddr 11 0x4

/-- IP.INJECT (R507). -/
abbrev Reg.ipInject : Nat := regAddr 11 0x8

/-- IP.GATE (R507). -/
abbrev Reg.ipGate : Nat := regAddr 11 0x10

/-- IP.GATEENTRY (R507). -/
abbrev Reg.ipGateentry : Nat := regAddr 11 0x18

/-- IP.GATESCORE (R507). -/
abbrev Reg.ipGatescore : Nat := regAddr 11 0x1C

/-- IP.GATECNT (R507). -/
abbrev Reg.ipGatecnt : Nat := regAddr 11 0x20

/-- IP.PORTp.CTL (R507). -/
abbrev Reg.ipPortCTL (n : Nat) : Nat := regAddr 11 (0x100 + 64 * n)

/-- IP.PORTp.STATUS (R507). -/
abbrev Reg.ipPortSTATUS (n : Nat) : Nat := regAddr 11 (0x104 + 64 * n)

/-- IP.PORTp.PARAM (R507). -/
abbrev Reg.ipPortPARAM (n : Nat) : Nat := regAddr 11 (0x108 + 64 * n)

/-- IP.PORTp.CNT0 (R507). -/
abbrev Reg.ipPortCNT0 (n : Nat) : Nat := regAddr 11 (0x110 + 64 * n)

/-- IP.PORTp.CNT1 (R507). -/
abbrev Reg.ipPortCNT1 (n : Nat) : Nat := regAddr 11 (0x118 + 64 * n)

/-- AF.INFO (R477). -/
abbrev Reg.afInfo : Nat := regAddr 12 0x0

/-- AF.CFG (R477). -/
abbrev Reg.afCfg : Nat := regAddr 12 0x4

/-- AF.STATUS (R477). -/
abbrev Reg.afStatus : Nat := regAddr 12 0x8

/-- AF.ERR (R477). -/
abbrev Reg.afErr : Nat := regAddr 12 0xC

/-- AF.INJECT (R477). -/
abbrev Reg.afInject : Nat := regAddr 12 0x10

/-- AF.SAMPLE (R477). -/
abbrev Reg.afSample : Nat := regAddr 12 0x14

/-- AF.SPLICE (R477). -/
abbrev Reg.afSplice : Nat := regAddr 12 0x18

/-- AF.BEAMCTL (R477). -/
abbrev Reg.afBeamctl : Nat := regAddr 12 0x20

/-- AF.CLIP (R477). -/
abbrev Reg.afClip : Nat := regAddr 12 0x24

/-- AF.MICm (R477). -/
abbrev Reg.afMic (n : Nat) : Nat := regAddr 12 (0x40 + 4 * n)

/-- LO.INFO (R477). -/
abbrev Reg.loInfo : Nat := regAddr 13 0x0

/-- LO.STATUS (R477). -/
abbrev Reg.loStatus : Nat := regAddr 13 0x4

/-- LO.ERR (R477). -/
abbrev Reg.loErr : Nat := regAddr 13 0x8

/-- LO.INJECT (R477). -/
abbrev Reg.loInject : Nat := regAddr 13 0xC

/-- LO.HIT0 (R477). -/
abbrev Reg.loHit0 : Nat := regAddr 13 0x10

/-- LO.HIT1 (R477). -/
abbrev Reg.loHit1 : Nat := regAddr 13 0x14

/-- LO.CNT (R477). -/
abbrev Reg.loCnt : Nat := regAddr 13 0x18

/-- CM.ERR (R390). -/
abbrev Reg.cmErr : Nat := regAddr 14 0x0

/-- CM.INJECT (R390). -/
abbrev Reg.cmInject : Nat := regAddr 14 0x4

/-- CM.CNT (R390). -/
abbrev Reg.cmCnt : Nat := regAddr 14 0x8

/-- MC.INFO (R390). -/
abbrev Reg.mcInfo : Nat := regAddr 15 0x0

/-- MC.ERR (R390). -/
abbrev Reg.mcErr : Nat := regAddr 15 0x4

/-- MC.INJECT (R390). -/
abbrev Reg.mcInject : Nat := regAddr 15 0x8

/-- MC.TRAIN (R667). -/
abbrev Reg.mcTrain : Nat := regAddr 15 0x10

/-- MC.TSTAT (R667). -/
abbrev Reg.mcTstat : Nat := regAddr 15 0x18

/-- MC.TTIME (R667). -/
abbrev Reg.mcTtime : Nat := regAddr 15 0x20

/-- MC.CHc (R390). -/
abbrev Reg.mcCh (n : Nat) : Nat := regAddr 15 (0x100 + 8 * n)

/-- TU.INFO (R390). -/
abbrev Reg.tuInfo : Nat := regAddr 31 0x0

/-- TU.CTL (R390). -/
abbrev Reg.tuCtl : Nat := regAddr 31 0x4

/-- TU.ERR (R390). -/
abbrev Reg.tuErr : Nat := regAddr 31 0x8

/-- TU.INJECT (R390). -/
abbrev Reg.tuInject : Nat := regAddr 31 0xC

/-- TU.LEND (R390). -/
abbrev Reg.tuLend : Nat := regAddr 31 0x10

/-- TU.FURROW (R390). -/
abbrev Reg.tuFurrow : Nat := regAddr 31 0x14

/-- TU.SOW (R390). -/
abbrev Reg.tuSow : Nat := regAddr 31 0x18

/-- TU.SEL (R390). -/
abbrev Reg.tuSel : Nat := regAddr 31 0x20

/-- TU.DESC0 (R390). -/
abbrev Reg.tuDesc0 : Nat := regAddr 31 0x28

/-- TU.DESC1 (R390). -/
abbrev Reg.tuDesc1 : Nat := regAddr 31 0x30

/-- TU.NBRn (R390). -/
abbrev Reg.tuNbr (n : Nat) : Nat := regAddr 31 (0x40 + 8 * n)

/-- TU.FIELDf (R390). -/
abbrev Reg.tuField (n : Nat) : Nat := regAddr 31 (0x80 + 8 * n)

/-- TU.FCNTf (R390). -/
abbrev Reg.tuFcnt (n : Nat) : Nat := regAddr 31 (0xC0 + 8 * n)

/-- DM.INFO (R414). -/
abbrev Reg.dmInfo : Nat := regAddr 32 0x0

/-- DM.ERR (R414). -/
abbrev Reg.dmErr : Nat := regAddr 32 0x4

/-- DM.INJECT (R414). -/
abbrev Reg.dmInject : Nat := regAddr 32 0x8

/-- DM.BUSY (R414). -/
abbrev Reg.dmBusy : Nat := regAddr 32 0xC

/-- DM.DROPPED (R414). -/
abbrev Reg.dmDropped : Nat := regAddr 32 0x10

/-- DM.CHn.CFG (R414). -/
abbrev Reg.dmChCFG (n : Nat) : Nat := regAddr 32 (0x100 + 64 * n)

/-- DM.CHn.SRC (R414). -/
abbrev Reg.dmChSRC (n : Nat) : Nat := regAddr 32 (0x108 + 64 * n)

/-- DM.CHn.DST (R414). -/
abbrev Reg.dmChDST (n : Nat) : Nat := regAddr 32 (0x110 + 64 * n)

/-- DM.CHn.TIMER (R414). -/
abbrev Reg.dmChTIMER (n : Nat) : Nat := regAddr 32 (0x118 + 64 * n)

/-- DM.CHn.STAT (R414). -/
abbrev Reg.dmChSTAT (n : Nat) : Nat := regAddr 32 (0x120 + 64 * n)

/-- DM.CHn.RUNS (R414). -/
abbrev Reg.dmChRUNS (n : Nat) : Nat := regAddr 32 (0x128 + 64 * n)

/-- DM.CHn.CTL (R414). -/
abbrev Reg.dmChCTL (n : Nat) : Nat := regAddr 32 (0x130 + 64 * n)

/-- LX.INFO (R570). -/
abbrev Reg.lxInfo (p : Nat) : Nat := regAddr (33 + p) 0x0

/-- LX.CTL (R570). -/
abbrev Reg.lxCtl (p : Nat) : Nat := regAddr (33 + p) 0x4

/-- LX.ERR (R570). -/
abbrev Reg.lxErr (p : Nat) : Nat := regAddr (33 + p) 0x8

/-- LX.INJECT (R570). -/
abbrev Reg.lxInject (p : Nat) : Nat := regAddr (33 + p) 0xC

/-- LX.ID (R570). -/
abbrev Reg.lxId (p : Nat) : Nat := regAddr (33 + p) 0x10

/-- LX.STATUS (R570). -/
abbrev Reg.lxStatus (p : Nat) : Nat := regAddr (33 + p) 0x18

/-- LX.EQ (R570). -/
abbrev Reg.lxEq (p : Nat) : Nat := regAddr (33 + p) 0x1C

/-- LX.CNT0 (R570). -/
abbrev Reg.lxCnt0 (p : Nat) : Nat := regAddr (33 + p) 0x20

/-- LX.CNT1 (R570). -/
abbrev Reg.lxCnt1 (p : Nat) : Nat := regAddr (33 + p) 0x28

/-- SX.INFO (R602). -/
abbrev Reg.sxInfo : Nat := regAddr 37 0x0

/-- SX.STATUS (R602). -/
abbrev Reg.sxStatus : Nat := regAddr 37 0x4

/-- SX.ERR (R602). -/
abbrev Reg.sxErr : Nat := regAddr 37 0x8

/-- SX.INJECT (R602). -/
abbrev Reg.sxInject : Nat := regAddr 37 0xC

/-- SX.TALLY (R602). -/
abbrev Reg.sxTally : Nat := regAddr 37 0x10

/-- SX.TELEM (R602). -/
abbrev Reg.sxTelem : Nat := regAddr 37 0x14

/-- SX.KEYS (R602). -/
abbrev Reg.sxKeys : Nat := regAddr 37 0x18

/-- SX.CNT (R602). -/
abbrev Reg.sxCnt : Nat := regAddr 37 0x20

/-- SX.EPOCHf (R602). -/
abbrev Reg.sxEpoch (n : Nat) : Nat := regAddr 37 (0x40 + 4 * n)

/-- KM.INFO (R276). -/
abbrev Reg.kmInfo : Nat := regAddr 38 0x0

/-- KM.CTL (R276). -/
abbrev Reg.kmCtl : Nat := regAddr 38 0x4

/-- KM.ERR (R276). -/
abbrev Reg.kmErr : Nat := regAddr 38 0x8

/-- KM.INJECT (R276). -/
abbrev Reg.kmInject : Nat := regAddr 38 0xC

/-- KM.FRAMEQ (R276). -/
abbrev Reg.kmFrameq : Nat := regAddr 38 0x10

/-- KM.SEL (R276). -/
abbrev Reg.kmSel : Nat := regAddr 38 0x18

/-- KM.REC (R276). -/
abbrev Reg.kmRec : Nat := regAddr 38 0x20

/-- KM.FIELDf (R276). -/
abbrev Reg.kmField (n : Nat) : Nat := regAddr 38 (0x40 + 8 * n)

/-- KM.FCNTf (R276). -/
abbrev Reg.kmFcnt (n : Nat) : Nat := regAddr 38 (0x80 + 8 * n)

/-- DX.INFO (R446). -/
abbrev Reg.dxInfo : Nat := regAddr 39 0x0

/-- DX.CTL (R446). -/
abbrev Reg.dxCtl : Nat := regAddr 39 0x4

/-- DX.ERR (R446). -/
abbrev Reg.dxErr : Nat := regAddr 39 0x8

/-- DX.INJECT (R446). -/
abbrev Reg.dxInject : Nat := regAddr 39 0xC

/-- DX.ROUND (R446). -/
abbrev Reg.dxRound : Nat := regAddr 39 0x10

/-- DX.DERATE (R446). -/
abbrev Reg.dxDerate : Nat := regAddr 39 0x14

/-- DX.ENGINES (R446). -/
abbrev Reg.dxEngines : Nat := regAddr 39 0x18

/-- DX.SEL (R446). -/
abbrev Reg.dxSel : Nat := regAddr 39 0x1C

/-- DX.REC (R446). -/
abbrev Reg.dxRec : Nat := regAddr 39 0x20

/-- DX.RECJOBS (R205). -/
abbrev Reg.dxRecjobs : Nat := regAddr 39 0x28

/-- DX.FSUBf (R205). -/
abbrev Reg.dxFsub (n : Nat) : Nat := regAddr 39 (0x40 + 8 * n)

/-- DX.FDONEf (R205). -/
abbrev Reg.dxFdone (n : Nat) : Nat := regAddr 39 (0x80 + 8 * n)

/-- DX.FENDf (R205). -/
abbrev Reg.dxFend (n : Nat) : Nat := regAddr 39 (0xC0 + 8 * n)

/-- DX.FOVERf (R446). -/
abbrev Reg.dxFover (n : Nat) : Nat := regAddr 39 (0x100 + 8 * n)

/-- HP.INFO (R667). -/
abbrev Reg.hpInfo : Nat := regAddr 40 0x0

/-- HP.STATUS (R667). -/
abbrev Reg.hpStatus : Nat := regAddr 40 0x4

/-- HP.ERR (R667). -/
abbrev Reg.hpErr : Nat := regAddr 40 0x8

/-- HP.INJECT (R667). -/
abbrev Reg.hpInject : Nat := regAddr 40 0xC

/-- HP.CNT0 (R667). -/
abbrev Reg.hpCnt0 : Nat := regAddr 40 0x10

/-- HP.CNT1 (R667). -/
abbrev Reg.hpCnt1 : Nat := regAddr 40 0x18

/-- HP.APERr (R667). -/
abbrev Reg.hpAper (n : Nat) : Nat := regAddr 40 (0x40 + 8 * n)

/-- PW.INFO (R537). -/
abbrev Reg.pwInfo : Nat := regAddr 41 0x0

/-- PW.STATUS (R537). -/
abbrev Reg.pwStatus : Nat := regAddr 41 0x4

/-- PW.ERR (R537). -/
abbrev Reg.pwErr : Nat := regAddr 41 0x8

/-- PW.INJECT (R537). -/
abbrev Reg.pwInject : Nat := regAddr 41 0xC

/-- PW.LINKWAKE (R537). -/
abbrev Reg.pwLinkwake : Nat := regAddr 41 0x10

/-- PW.LAST (R537). -/
abbrev Reg.pwLast : Nat := regAddr 41 0x18

/-- PW.CNT (R537). -/
abbrev Reg.pwCnt : Nat := regAddr 41 0x20

/-- CK.INFO (R689). -/
abbrev Reg.ckInfo : Nat := regAddr 42 0x0

/-- CK.STATUS (R689). -/
abbrev Reg.ckStatus : Nat := regAddr 42 0x4

/-- CK.ERR (R689). -/
abbrev Reg.ckErr : Nat := regAddr 42 0x8

/-- CK.INJECT (R689). -/
abbrev Reg.ckInject : Nat := regAddr 42 0xC

/-- CK.RUN (R689). -/
abbrev Reg.ckRun : Nat := regAddr 42 0x10

/-- CK.CNT (R689). -/
abbrev Reg.ckCnt : Nat := regAddr 42 0x18

/-- WP.INFO (R631). -/
abbrev Reg.wpInfo : Nat := regAddr 43 0x0

/-- WP.CTL (R631). -/
abbrev Reg.wpCtl : Nat := regAddr 43 0x4

/-- WP.STATUS (R631). -/
abbrev Reg.wpStatus : Nat := regAddr 43 0x8

/-- WP.ERR (R631). -/
abbrev Reg.wpErr : Nat := regAddr 43 0xC

/-- WP.TRIG (R631). -/
abbrev Reg.wpTrig : Nat := regAddr 43 0x10

/-- WP.INJECT (R631). -/
abbrev Reg.wpInject : Nat := regAddr 43 0x14

/-- WP.MISSING (R631). -/
abbrev Reg.wpMissing : Nat := regAddr 43 0x18

/-- WP.CNT (R631). -/
abbrev Reg.wpCnt : Nat := regAddr 43 0x20

/-- SD.INFO (R631). -/
abbrev Reg.sdInfo : Nat := regAddr 44 0x0

/-- SD.CTL (R631). -/
abbrev Reg.sdCtl : Nat := regAddr 44 0x4

/-- SD.AREA (R631). -/
abbrev Reg.sdArea : Nat := regAddr 44 0x8

/-- SD.ERR (R631). -/
abbrev Reg.sdErr : Nat := regAddr 44 0xC

/-- SD.INJECT (R631). -/
abbrev Reg.sdInject : Nat := regAddr 44 0x10

/-- SD.STATUS (R631). -/
abbrev Reg.sdStatus : Nat := regAddr 44 0x14

/-- SD.LOADED (R631). -/
abbrev Reg.sdLoaded : Nat := regAddr 44 0x18

/-- SD.CNT (R631). -/
abbrev Reg.sdCnt : Nat := regAddr 44 0x20

/-- SD.LASTx (R631). -/
abbrev Reg.sdLast (n : Nat) : Nat := regAddr 44 (0x40 + 4 * n)

/-- FC.INFO (R631). -/
abbrev Reg.fcInfo : Nat := regAddr 63 0x0

/-- FC.CTL (R631). -/
abbrev Reg.fcCtl : Nat := regAddr 63 0x4

/-- FC.SAFE (R631). -/
abbrev Reg.fcSafe : Nat := regAddr 63 0x8

/-- FC.RESET (R631). -/
abbrev Reg.fcReset : Nat := regAddr 63 0xC

/-- FC.STATUS (R631). -/
abbrev Reg.fcStatus : Nat := regAddr 63 0x10

/-- FC.CLEAR (R631). -/
abbrev Reg.fcClear : Nat := regAddr 63 0x18

/-- FC.FORCE (R631). -/
abbrev Reg.fcForce : Nat := regAddr 63 0x20

/-- FC.FENCE (R631). -/
abbrev Reg.fcFence : Nat := regAddr 63 0x28

/-- FC.INJECT (R631). -/
abbrev Reg.fcInject : Nat := regAddr 63 0x2C

/-- FC.CNT (R631). -/
abbrev Reg.fcCnt : Nat := regAddr 63 0x30

/-- SNAP.HDR (R631). -/
abbrev Reg.snapHdr (b : Nat) : Nat := regAddr b 0xFF00

/-- SNAP.A (R631). -/
abbrev Reg.snapA (b : Nat) : Nat := regAddr b 0xFF08

/-- SNAP.B (R631). -/
abbrev Reg.snapB (b : Nat) : Nat := regAddr b 0xFF10

end Sys2Proof.Machine
end

