-- ==== Sys2Proof/Machine/Ops.lean ====
section
/-!
DEFINITION. The named operations of State: finite maps, memory bytes, register fields, saturating counts,
events and replies, pulses, and hails raised. Every meaning is written over these.
-/
namespace Sys2Proof.Machine

/-! ### Finite maps -/

/-- The entry of a key. -/
def Map.find {β : Type} : Map β → Nat → Option β
  | [], _ => none
  | (k, v) :: m, x => if k = x then some v else Map.find m x

/-- The map with `x` bound to `v`, keys still rising. -/
def Map.put {β : Type} : Map β → Nat → β → Map β
  | [], x, v => [(x, v)]
  | (k, w) :: m, x, v =>
    if x < k then (x, v) :: (k, w) :: m
    else if x = k then (x, v) :: m
    else (k, w) :: Map.put m x v

/-- The map without `x`. -/
def Map.del {β : Type} : Map β → Nat → Map β
  | [], _ => []
  | (k, w) :: m, x => if k = x then m else (k, w) :: Map.del m x

/-- The entry of a key, or a default. -/
def Map.get {β : Type} (m : Map β) (k : Nat) (d : β) : β := (Map.find m k).getD d

/-- The map with the entry of `x` changed, where there is one. -/
def Map.upd {β : Type} (m : Map β) (x : Nat) (f : β → β) : Map β :=
  match Map.find m x with
  | none => m
  | some v => Map.put m x (f v)

/-- Element `i` of a list changed. -/
def listUpd {α : Type} (l : List α) (i : Nat) (f : α → α) : List α :=
  match l, i with
  | [], _ => []
  | a :: l, 0 => f a :: l
  | a :: l, i + 1 => a :: listUpd l i f

/-! ### Memory -/

/-- The byte at a device-physical address. An address that is not listed reads 0x00: the commons is zeroed at
cold boot (R662), GDDR6 by start-up stage 7 (R659). -/
def State.byte (s : State) (a : Nat) : Byte := Map.get s.mem a 0

/-- Memory with the `n` bytes from `a` replaced by cells that lie there. -/
def memPlace (m : List Host.Cell) (a n : Nat) (cells : List Host.Cell) : List Host.Cell :=
  m.filter (fun c => decide (c.1 < a)) ++ cells ++ m.filter (fun c => decide (a + n ≤ c.1))

/-- The cells of bytes that lie from an address on: none for 0x00. -/
def memCells (a : Nat) : List Byte → List Host.Cell
  | [] => []
  | b :: bs => if b = 0 then memCells (a + 1) bs else (a, b) :: memCells (a + 1) bs

/-- Memory with bytes written from an address. -/
def memWrite (m : List Host.Cell) (a : Nat) (bs : List Byte) : List Host.Cell := memPlace m a bs.length (memCells a bs)

/-- The bytes from an address, one by one. -/
def memBytes (m : List Host.Cell) (a : Nat) : Nat → List Byte
  | 0 => []
  | n + 1 => Map.get m a 0 :: memBytes m (a + 1) n

/-- `n` bytes from an address. -/
def memRead (m : List Host.Cell) (a n : Nat) : List Byte :=
  memBytes (m.filter (fun c => decide (a ≤ c.1) && decide (c.1 < a + n))) a n

/-- Memory with `n` bytes from `a` reading 0x00. -/
def memZero (m : List Host.Cell) (a n : Nat) : List Host.Cell := memPlace m a n []

/-- The canonical form: addresses strictly rising, and no entry equal to what an unlisted address reads as. -/
def Memory.wf : List Host.Cell → Bool
  | [] => true
  | c :: m => c.2 != 0 && (match m with | [] => true | d :: _ => decide (c.1 < d.1)) && Memory.wf m

/-- `n` bytes at a device-physical address. -/
def State.read (s : State) (a n : Nat) : List Byte := memRead s.mem a n

/-- The state with bytes written at a device-physical address. -/
def State.write (s : State) (a : Nat) (bs : List Byte) : State := { s with mem := memWrite s.mem a bs }

/-- The state with `n` bytes zeroed. -/
def State.zero (s : State) (a n : Nat) : State := { s with mem := memZero s.mem a n }

/-! ### Registers -/

/-- The register at `a` set to `v`. -/
def State.setReg (s : State) (a v : Nat) : State := { s with regs := Map.put s.regs a (BitVec.ofNat 64 v) }

/-- Bits `[hi:lo]` of the register at `a` set. -/
def State.setF (s : State) (a hi lo v : Nat) : State := s.setReg a (setBits (s.reg a) hi lo v)

/-- The register after a write of `v` to one of its words (R16, R19): rw bits take the value, w1c bits clear where it
holds 1, and every other bit stands. -/
def mergeWord (d : RegDesc) (old : Nat) (hi : Bool) (v : W32) : Nat :=
  let w : Nat := if hi then v.toNat * 2 ^ 32 else v.toNat
  let m : Nat := if hi then 0xFFFFFFFF00000000 else 0xFFFFFFFF
  let rw := BitVec.ofNat 64 (d.rw &&& m)
  let clr := BitVec.ofNat 64 (w &&& d.w1c)
  (((BitVec.ofNat 64 old &&& ~~~rw) ||| (BitVec.ofNat 64 w &&& rw)) &&& ~~~clr).toNat

/-- A write of one word of the register at `a`, with no effect beyond R19. -/
def State.putWord (s : State) (a : Nat) (hi : Bool) (v : W32) : State :=
  match regAt a with
  | none => s
  | some (d, _, _, _) => s.setReg a (mergeWord d (s.reg a) hi v)

/-- Every register of block `b` back at its reset value, every role's copy of a SEL among them. -/
def State.resetRegs (s : State) (b : Nat) : State :=
  { s with
    regs := s.regs.filter (fun p => !(decide (regAddr b 0 ≤ p.1) && decide (p.1 < regAddr b 0x10000)))
    sel := s.sel.filter (fun p => p.1 / 16 != b) }

/-- FC.SAFE.ACTIVE: the device is in the safe state (R617). -/
def State.safe (s : State) : Bool := s.getF Reg.fcSafe 31 31 == 1

/-- A fresh free value, and the state that has drawn it (log 3). -/
def State.draw (s : State) : Nat × State := (Config.freeNat s.free, { s with free := s.free + 1 })

/-- A choice among `n` equally eligible things that no rule makes (log 8). -/
def State.pick (s : State) (n : Nat) : Nat × State := (Config.choose s.free % n, { s with free := s.free + 1 })

/-! ### Rungs -/

/-- The code of R134. -/
def Rung.code : Rung → Nat
  | .moor => 0
  | .listen => 1
  | .nap => 2
  | .doze => 3
  | .idle => 4
  | .run => 5
  | .fallow => 6

/-- The height of a rung in the order of R514: Fallow 0 to Run 6. -/
def Rung.height : Rung → Nat
  | .fallow => 0
  | .moor => 1
  | .listen => 2
  | .nap => 3
  | .doze => 4
  | .idle => 5
  | .run => 6

/-- The rung of a code of R134. -/
def Rung.ofCode : Nat → Option Rung
  | 0 => some .moor
  | 1 => some .listen
  | 2 => some .nap
  | 3 => some .doze
  | 4 => some .idle
  | 5 => some .run
  | 6 => some .fallow
  | _ => none

/-- The core's blocks run: the device stands on Doze or above, CK has not stopped their clocks (R681), and
RESET_N is high. -/
def State.coreUp (s : State) : Bool :=
  decide (Rung.height .doze ≤ s.pw.rung.height) && !s.ck.stopped && !s.ck.gaveUp && !s.resetLow

/-- The island runs: every rung but Fallow (R25), with RESET_N high and the I-clock present (R682). -/
def State.islandUp (s : State) : Bool :=
  s.pw.rung != .fallow && !s.resetLow && !s.ck.gaveUp && s.getF Reg.ckStatus 29 29 == 1

/-- A block reset of `b` is in progress (R614). -/
def State.inReset (s : State) (b : Nat) : Bool := s.fc.resets.contains b

/-! ### Frames, replies and events -/

/-- The bytes a frame takes (R640). -/
def OutFrame.size (f : OutFrame) : Nat :=
  32 + f.payload.length + (if f.role = .anon then 0 else 16) + 4

/-- The bytes in the outbound queue. -/
def State.outUsed (s : State) : Nat := (s.hp.outq.map OutFrame.size).sum

/-- IN_FREE: the bytes free in the inbound buffer of 256 KiB (R636, R637). -/
def State.inFree (s : State) : Nat := 262144 - (s.hp.requests.map Request.size).sum

/-- The session key of a role. -/
def State.sessionKey (s : State) (r : Role) : Option (List Byte) := Map.find s.sx.sessionKeys r.code

/-- A frame queued for its destination, sealed under that session with its outbound counter (R580, R643). A
session that holds no key gets no frame. -/
def State.queueFrame (s : State) (r : Role) (typ rid : Nat) (payload : List Byte) : State :=
  match r with
  | .anon => { s with hp := { s.hp with outq := s.hp.outq ++ [⟨r, typ, rid, 0, none, payload⟩] } }
  | _ =>
    match s.sessionKey r with
    | none => s
    | some k =>
      let c := Map.get s.sx.outCtr r.code 0
      { s with
        hp := { s.hp with outq := s.hp.outq ++ [⟨r, typ, rid, c, some k, payload⟩] }
        sx := { s.sx with outCtr := Map.put s.sx.outCtr r.code (c + 1) } }

/-- The reply to a request (R644): TYPE + 0x8000, the status, three zero bytes, the results. One to a request that HP had
passed on before its own reset is discarded (R665), and so is one that comes during that reset. -/
def State.reply (s : State) (r : Role) (typ rid status : Nat) (results : List Byte) : State :=
  if s.hp.discard.contains (r, typ, rid) then { s with hp := { s.hp with discard := s.hp.discard.erase (r, typ, rid) } }
  else if s.inReset 40 then s
  else s.queueFrame r (typ + 0x8000) rid ([BitVec.ofNat 8 status, 0, 0, 0] ++ results)

/-- A saturating sticky count of R625 in bits `[hi:lo]` of the register at `a`, capped flag in bit `cap`,
raised by `n`: the new state, and whether it has just stopped. -/
def State.bumpQuiet (s : State) (a hi lo cap n : Nat) : State × Bool :=
  let top := 2 ^ (hi + 1 - lo) - 1
  let v := min top (s.getF a hi lo + n)
  let s1 := s.setF a hi lo v
  if v = top ∧ s.getF a cap cap = 0 ∧ 0 < n then (s1.setF a cap cap 1, true) else (s1, false)

/-- EVLOST raised by one (R651, R652). COUNTER_CAPPED of EVLOST itself finds no room and is lost with it. -/
def State.evLost (s : State) : State := (s.bumpQuiet Reg.hpCnt0 47 32 50 1).1

/-- The frame payload of an event (R650). -/
def eventBytes (code blk dest serial : Nat) (items : List Byte) : List Byte :=
  [BitVec.ofNat 8 code, BitVec.ofNat 8 blk, BitVec.ofNat 8 dest, 0] ++ natLE 4 serial ++ items

/-- The role in whose frames a destination's events travel (R651). -/
def State.eventRole (s : State) (dest : Nat) : Role :=
  if h : dest < 8 then .field ⟨dest, h⟩
  else if (s.sessionKey .owner).isSome then .owner else .anon

/-- An event posted by block `blk` to field `dest`, or the owner for 8 (R650 to R652): the block's serial
rises, and for a field its own serial; it is dropped and counted when the field holds no key, or when the queue
holds no room beyond the 72 KiB kept for replies, or while HP is in reset. -/
def State.post (s : State) (code blk dest : Nat) (items : List Byte) : State :=
  let ser := Map.get s.hp.evSerial blk 0 + 1
  let s1 := { s with hp := { s.hp with evSerial := Map.put s.hp.evSerial blk ser } }
  let key := 8 * blk + dest
  let fser := Map.get s1.hp.fldSerial key 0 + 1
  let s2 := if dest < 8 then { s1 with hp := { s1.hp with fldSerial := Map.put s1.hp.fldSerial key fser } } else s1
  let role := s.eventRole dest
  let bytes := eventBytes code blk dest (if dest < 8 then fser.toNat else ser.toNat) items
  let f : OutFrame := ⟨role, 0x7F00, 0, 0, none, bytes⟩
  if role ≠ .anon ∧ (s.sessionKey role).isNone then s2.evLost
  else if role ≠ .anon ∧ 2 ^ 64 - 1 ≤ Map.get s.sx.outCtr role.code 0 then s2.evLost
  else if s2.outUsed + f.size ≤ 262144 - 73728 ∧ !s.inReset 40 then s2.queueFrame role 0x7F00 0 bytes
  else
    { s2.evLost with
      hp := { s2.evLost.hp with lost := Map.put s2.hp.lost dest (Map.get s2.hp.lost dest 0 + 1) } }

/-- An event to the owner. -/
def State.postOwner (s : State) (code blk : Nat) (items : List Byte) : State := s.post code blk 8 items

/-- An owner event of PW (R654): below Doze it is held, at most one per code and hail number, a later one in
place of the earlier; `hail` is 0xFF for a code that names none. -/
def State.postPw (s : State) (code hail : Nat) (items : List Byte) : State :=
  if s.coreUp then s.postOwner code 41 items
  else { s with pw := { s.pw with
    held := s.pw.held.filter (fun e => !(e.code == code && e.hail == hail)) ++ [⟨code, hail, items⟩] } }

/-- A saturating sticky count raised by `n` (R625): when it stops it posts COUNTER_CAPPED to the owner, and to
`field` when a session of that field may read it, with block, register offset and bit position. -/
def State.bump (s : State) (a hi lo cap n : Nat) (field : Option Nat) : State :=
  match s.bumpQuiet a hi lo cap n with
  | (s1, false) => s1
  | (s1, true) =>
    let blk := a / 0x10000 - 0x100
    let items := [BitVec.ofNat 8 blk] ++ natLE 8 (a % 0x10000) ++ [BitVec.ofNat 8 lo]
    let s2 := s1.postOwner Code.counterCapped blk items
    match field with
    | none => s2
    | some f => s2.post Code.counterCapped blk f items

/-- A count in the layout of R205: COUNT in [31:0], CAPPED in bit 32. -/
def State.bump32 (s : State) (a n : Nat) (field : Option Nat) : State := s.bump a 31 0 32 n field

/-- A 16-bit count with its capped flag in bit 16. -/
def State.bump16 (s : State) (a n : Nat) (field : Option Nat) : State := s.bump a 15 0 16 n field

/-! ### Pulses and hails -/

/-- One pulse on source `bit`, naming a context and step or none (R605). -/
def State.pulse (s : State) (bit : Nat) (step : Option (Nat × W32)) : State :=
  { s with fc := { s.fc with pulses := s.fc.pulses ++ [⟨bit, step⟩] } }

/-- A detection (R605): bit `k` of the ERR register at `err`, and a pulse on source `bit`. -/
def State.detect (s : State) (err k bit : Nat) (step : Option (Nat × W32)) : State :=
  (s.setF err k k 1).pulse bit step

/-- The injection armed in bit `k` of the INJECT register at `a` (R607). -/
def State.armed (s : State) (a k : Nat) : Bool := s.getF a k k == 1

/-- The access or check of a kind is made (R607): an armed injection clears its bit and is detected as a real
error is. -/
def State.check (s : State) (inject err k bit : Nat) (step : Option (Nat × W32)) : State :=
  if s.armed inject k then (s.setF inject k k 0).detect err k bit step else s

/-- The hail table in force: the image's, or the island set's after an exit from Fallow (R526, R656). -/
def State.hailEntry (s : State) (h : Nat) : Option HailEntry :=
  match s.pw.island with
  | none => none
  | some (_, _, t) => t[h]?

/-- A hail raised (R26, R29): discarded when its entry is not enabled, when no table is in force, or in the safe
state; held until PW serves it. -/
def State.raiseHail (s : State) (h : Nat) (verdict : Option Nat) : State :=
  match s.hailEntry h with
  | none => s
  | some e =>
    if e.enable ∧ !s.safe ∧ !(s.pw.raised.any (fun r => r.hail == h)) then
      { s with pw := { s.pw with raised := s.pw.raised ++ [⟨h, verdict⟩] } }
    else s

/-! ### Fields and the image -/

/-- Clock domain `d` is held stopped by code 2 of R135. -/
def State.domainHeld (s : State) (d : Nat) : Bool :=
  match s.pw.island with
  | none => false
  | some (_, ds, _) => ds[d]? == some 2

/-- The record of an enabled field. -/
def State.fieldRec (s : State) (f : Nat) : Option FieldRec :=
  match s.image with
  | none => none
  | some im => im.fields.find? (fun r => r.id == f)

/-- The enabled fields. -/
def State.fields (s : State) : List FieldRec :=
  match s.image with
  | none => []
  | some im => im.fields

/-- The field whose context range holds `c` (R417). -/
def State.ctxField (s : State) (c : Nat) : Option Nat :=
  (s.fields.find? (fun r => decide (r.ctxFirst ≤ c) && decide (c < r.ctxFirst + r.ctxCount))).map FieldRec.id

/-- Every enabled field is isolated. -/
def State.allIsolated (s : State) : Bool := s.fields.all FieldRec.isolated

/-- A role may act on field `f`: the owner, or that field's own session. -/
def Role.mayField (r : Role) (f : Nat) : Bool :=
  match r with
  | .owner => true
  | .field g => g.val == f
  | .anon => false

/-- The first byte address of a region. -/
def Region.base (r : Region) : Nat := 0x200000 * r.first

/-- The bytes of a region. -/
def Region.size (r : Region) : Nat := 0x200000 * r.banks

/-- `n` bytes from `a` lie wholly in the region. -/
def Region.holds (r : Region) (a n : Nat) : Bool := decide (r.base ≤ a) && decide (a + n ≤ r.base + r.size)

/-- `n` bytes from `a` touch a region. -/
def Region.touches (r : Region) (a n : Nat) : Bool :=
  decide (0 < n) && decide (0 < r.size) && decide (a < r.base + r.size) && decide (r.base < a + n)

/-- The partition in force; without an image, no region but the whole commons as scratch. -/
def State.part (s : State) : Partition :=
  match s.image with
  | none => ⟨⟨0, 128⟩, ⟨0, 0⟩, ⟨0, 0⟩, 0, ⟨0, 0⟩⟩
  | some im => im.part

/-- R142, R144: the bytes of a KV page frame. -/
def State.frameBytes (s : State) : Nat :=
  match s.image with
  | none => 262144
  | some im => 262144 * 2 ^ im.frame

/-- The bank groups that a client's CONNECT record names (R126). -/
def State.groups (s : State) (client : Nat) : Nat :=
  match s.image with
  | none => 0
  | some im => ((im.connect.find? (fun p => p.1 == client)).map Prod.snd).getD 0

/-- `n` bytes of the commons from `a` lie in bank groups that the mask names (R125). -/
def inGroups (mask a n : Nat) : Bool :=
  decide (a + n ≤ 0x10000000) &&
  (List.range 16).all (fun g =>
    bit mask g || decide (a + n ≤ 0x1000000 * g) || decide (0x1000000 * (g + 1) ≤ a))

end Sys2Proof.Machine
end

