-- ==== Sys2Proof/Machine/Jobs.lean ====
section
/-!
DEFINITION. The shared operations of the dispatcher over contexts, jobs, strands, engines and counters (R156 to
R174, R417 to R428): what the tape commands, the commit point and the fault collector are written over.
-/
namespace Sys2Proof.Machine

/-! ### Contexts -/

/-- The open context `c`. -/
def State.ctx (s : State) (c : Nat) : Option Ctx := Map.find s.dx.ctxs c

/-- Context `c` replaced. -/
def State.setCtx (s : State) (c : Nat) (x : Ctx) : State :=
  { s with dx := { s.dx with ctxs := Map.put s.dx.ctxs c x } }

/-- Context `c` changed, where it is open. -/
def State.updCtx (s : State) (c : Nat) (f : Ctx → Ctx) : State :=
  match s.ctx c with
  | none => s
  | some x => s.setCtx c (f x)

/-- The running job of context `c` changed, where there is one. -/
def State.updRun (s : State) (c : Nat) (f : JobRun → JobRun) : State :=
  s.updCtx c (fun x => { x with running := x.running.map f })

/-- A job is queued or running on the context. -/
def Ctx.busy (x : Ctx) : Bool := !x.queue.isEmpty || x.running.isSome

/-- The next stamp, which orders the moments at which strands become ready (R424). -/
def State.stamp (s : State) : Nat × State := (s.dx.stamp, { s with dx := { s.dx with stamp := s.dx.stamp + 1 } })

/-- The strand `sid` of a job. -/
def JobRun.strand (j : JobRun) (sid : Nat) : Option Strand := j.strands.find? (fun t => t.sid == sid)

/-- Strand `sid` of a job changed. -/
def JobRun.updStrand (j : JobRun) (sid : Nat) (f : Strand → Strand) : JobRun :=
  { j with strands := j.strands.map (fun t => if t.sid = sid then f t else t) }

/-- Strand `sid` of context `c` changed. -/
def State.updStrand (s : State) (c sid : Nat) (f : Strand → Strand) : State :=
  s.updRun c (fun j => j.updStrand sid f)

/-! ### Engines -/

/-- Engine `e` (0 to 10). -/
def State.engine (s : State) (e : Nat) : Engine := (s.engines[e]?).getD Engine.reset

/-- Engine `e` changed. -/
def State.updEngine (s : State) (e : Nat) (f : Engine → Engine) : State :=
  { s with engines := listUpd s.engines e f }

/-- The tape kind that engine `e` runs (R142). -/
def engineKind (e : Nat) : Nat :=
  if e ≤ 4 then 0 else if e ≤ 6 then 1 else if e = 7 then 2 else if e ≤ 9 then 3 else 4

/-- The engine is fenced out of placement (R613). -/
def State.fenced (s : State) (e : Nat) : Bool := s.getF Reg.fcFence e e == 1

/-- A write of one word of QU.WATCHn, or of QU.CTL with n = 64, takes effect (R99): a watch's counts, prescaler and
DRIFT bit clear with it. -/
def State.writeWatch (s : State) (e n : Nat) (hi : Bool) (v : W32) : State :=
  if n = 64 then s.putWord (Reg.quCtl e) hi v
  else
    let s := ((s.putWord (Reg.quWatch e n) hi v).setReg (Reg.quSatcnt e n) 0).setF (Reg.quDrift e) n n 0
    s.updEngine e (fun g => { g with prescale := Map.del g.prescale n, drifted := g.drifted.filter (fun k => k != n) })

/-- A command boundary of engine `e`: the watch writes that waited for it take effect (R99). -/
def State.boundary (s : State) (e : Nat) : State :=
  (s.engine e).heldWatch.foldl (fun s w => s.writeWatch e w.1 w.2.1 w.2.2) (s.updEngine e (fun g => { g with heldWatch := [] }))

/-- The strand that engine `e` holds waits on this. -/
def State.engWaits (s : State) (e : Nat) : Option Wait :=
  match (s.engine e).strand with
  | none => none
  | some (c, sid) => (((s.ctx c).bind Ctx.running).bind (fun j => j.strand sid)).bind Strand.wait

/-- A wait inside a command: for furrow segments, the walker, a staging half, a halo row, the stream, or digests. -/
def Wait.inner : Wait → Bool
  | .furrow _ => true
  | .walker => true
  | .block _ _ _ => true
  | .append _ => true
  | .halo _ _ => true
  | .stream => true
  | .digest => true
  | _ => false

/-- A wait that engine `e` counts in F-cycles: FURROW_WAIT on ME (R190), WALK_WAIT on AE (R226), SWAP_WAIT on SE (R304),
HALO_WAIT on WE (R329). -/
def Wait.counts (e : Nat) : Wait → Bool
  | .furrow _ => decide (e ≤ 4)
  | .walker => e == 5 || e == 6
  | .block _ _ _ => e == 5 || e == 6
  | .stream => e == 7
  | .halo _ _ => e == 8 || e == 9
  | _ => false

/-- A wait of engine `e` that no COMMAND_END will count is counted: its cycles are time, so their number is free (log 69). -/
def State.countWait (s : State) (e : Nat) : State :=
  let (n, s) := s.draw
  s.bump32 (Reg.engWait e) n none

/-- Engine `e` stops running its command before the command's end; what it has waited is counted. -/
def State.dropRun (s : State) (e : Nat) : State :=
  let s := if (s.engine e).running.any Running.waited || (s.engWaits e).any (Wait.counts e) then s.countWait e else s
  s.updEngine e (fun g => { g with running := none })

/-- Engine `e` holds no strand and runs nothing. -/
def State.freeEngine (s : State) (e : Nat) : State :=
  ((s.dropRun e).updEngine e (fun g => { g with strand := none, yield := false })).boundary e

/-! ### Tapes -/

/-- The directory entry of a tape. -/
def State.tapeDir (s : State) (t : Nat) : Option TapeDir :=
  match s.image with
  | none => none
  | some im => im.tapes.find? (fun d => d.id == t)

/-- The kind of a tape. -/
def State.tapeKind (s : State) (t : Nat) : Nat := ((s.tapeDir t).map TapeDir.kind).getD 0

/-- Word `off` of a tape, read from the tape area; none beyond its last word (R694). -/
def State.tapeWord (s : State) (t off : Nat) : Option Nat :=
  match s.tapeDir t with
  | none => none
  | some d => if off < d.words then some (leNat (s.read (d.base + 8 * off) 8)) else none

/-- The words of a header's group (R148): only COMPUTE carries operand words. -/
def groupWords (h : Nat) : Nat := if bits h 63 59 = 1 then 1 + bits h 15 12 else 1

/-- Offset `off` names a header word of the tape, walking its groups from `at_` (R150). -/
def State.headerAt (s : State) (t off : Nat) : Nat → Nat → Bool
  | 0, _ => false
  | fuel + 1, at_ =>
    if at_ = off then (s.tapeWord t off).isSome
    else if off < at_ then false
    else match s.tapeWord t at_ with
      | none => false
      | some h => s.headerAt t off fuel (at_ + groupWords h)

/-- R150: an entry point names an existing tape, a header word of it, and `f` may run the tape. -/
def State.entryOk (s : State) (f entry : Nat) : Bool :=
  match s.tapeDir (entry / 65536) with
  | none => false
  | some d => bit d.fields f && s.headerAt d.id (entry % 65536) (entry % 65536 + 1) 0

/-! ### Counters (R165, R166) -/

/-- Shared counter `i` of field `f`. -/
def State.shared (s : State) (f i : Nat) : W32 := Map.get s.dx.shared (512 * f + i) 0

/-- Shared counter `i` of field `f` set. -/
def State.setShared (s : State) (f i : Nat) (v : W32) : State :=
  { s with dx := { s.dx with shared := Map.put s.dx.shared (512 * f + i) v } }

/-- RAISE of a shared counter. -/
def State.raiseShared (s : State) (f i : Nat) (v : W32) : State := s.setShared f i (raiseTo (s.shared f i) v)

/-- Context counter `i`. -/
def Ctx.counter (x : Ctx) (i : Nat) : W32 := (x.counters[i]?).getD 0

/-- The counter that a strand of context `x` names. -/
def State.counterOf (s : State) (x : Ctx) (shared : Bool) (i : Nat) : W32 :=
  if shared then s.shared x.field i else x.counter i

/-- RAISE of a counter that a strand of context `c` names. -/
def State.raiseCounter (s : State) (c : Nat) (shared : Bool) (i : Nat) (v : W32) : State :=
  match s.ctx c with
  | none => s
  | some x =>
    if shared then s.raiseShared x.field i v
    else s.setCtx c { x with counters := listUpd x.counters i (fun o => raiseTo o v) }

/-! ### Waits -/

/-- A block of a stretch of field `f`'s unified range is poisoned and not lost: its refetch is under way (R375). -/
def State.refetching (s : State) (f ua n : Nat) : Bool :=
  s.tu.poison.any (fun b => b.field == f && !b.lost && decide (b.ua < ua + n) &&
    decide (ua < b.ua + (if b.whole then 65536 else 64)))

/-- What a strand of context `c` waits on has come about. -/
def State.waitDone (s : State) (c : Nat) (x : Ctx) : Option Wait → Bool
  | none => true
  | some (.counter sh i t) => atOrAfter (s.counterOf x sh i) t
  | some (.furrow segs) =>
    match s.tu.sow with
    | none => false
    | some w => segs.all (fun k => w.filled.any (fun p => p.1 == k))
  | some (.halo i t) => atOrAfter (s.shared x.field i) t
  | some .walker =>
    match Map.find s.km.recs c with
    | none => true
    | some r => !r.held
  | some (.append n) =>
    match Map.find s.km.recs c with
    | none => true
    | some r => !r.both && (r.flush == 0 || (r.tc + n - 1) / 64 == r.tc / 64)
  | some .stream =>
    match Map.find s.se.streams c with
    | none => true
    | some r => r.state == 1 || r.lost
  | some (.block f ua n) => !s.refetching f ua n
  | some _ => false

/-- The wait is one that gives up the engine when another strand needs it, whatever the command's P bit (R149, R191, R198,
R226, R251, R304, R329, R426): every wait but that of a fenced signal or of the commit itself. -/
def Strand.waitYields (t : Strand) : Bool :=
  match t.wait with
  | none => false
  | some (.fence _ signal) => !signal
  | some .commit => false
  | some _ => true

/-- A wait whose end DX sees by itself, without an event of its own in the command list. -/
def Wait.wakes : Wait → Bool
  | .furrow _ => true
  | .halo _ _ => true
  | .walker => true
  | .append _ => true
  | .stream => true
  | .block _ _ _ => true
  | _ => false

/-- The strand waits only for an engine. -/
def Strand.ready (t : Strand) : Bool := t.engine.isNone && t.wait.isNone

/-- Strands of one context that hold no engine and whose segment, halo row, walk or stream has come about are
ready from now on, in strand order. -/
def State.wakeCtx (s : State) (c : Nat) (x : Ctx) : State :=
  match x.running with
  | none => s
  | some j =>
    j.strands.foldl (fun s t =>
      if t.engine.isNone && t.wait.any Wait.wakes && s.waitDone c x t.wait then
        let (n, s) := s.stamp
        s.updStrand c t.sid (fun u => { u with wait := none, stamp := n })
      else s) s

/-- `wakeCtx` over every context. -/
def State.wake (s : State) : State := s.dx.ctxs.foldl (fun s p => s.wakeCtx p.1 p.2) s

/-- Strand `sid` of `c` waits on nothing; without an engine it is ready from now on. -/
def State.unblock (s : State) (c sid : Nat) : State :=
  let (n, s) := s.stamp
  s.updStrand c sid (fun t => { t with wait := none, stamp := n })

/-! ### Walks and stopping -/

/-- A walk that strand `sid` of `c` has open closes (R258). -/
def State.closeWalk (s : State) (c sid : Nat) : State :=
  let ws := s.km.walks.filter (fun w => !(w.1 == c && w.2 == sid))
  let open_ := ws.any (fun w => w.1 == c)
  { s with km := { s.km with
    walks := ws
    recs := Map.upd s.km.recs c (fun r => { r with walk := open_ }) } }

/-- A write of one word of ME.DGRPn, or of ME.DPEERn with `peer`, takes effect: one that sets EN clears EXPELLED,
HALTED and DSTATn (R200). -/
def State.writeDgrp (s : State) (n : Nat) (peer hi : Bool) (v : W32) : State :=
  if peer then s.putWord (Reg.meDpeer n) hi v
  else
    let s := s.putWord (Reg.meDgrp n) hi v
    if hi ∧ v.getLsbD 31 then ((s.setF (Reg.meDgrp n) 62 61 0).setReg (Reg.meDstat n) 0) else s

/-- The DIGEST that strand `sid` of context `c` waits in ends, and the writes of its group that waited take effect (R200). -/
def State.endDigest (s : State) (c sid : Nat) : State :=
  match s.dig.waiting.find? (fun w => w.2.ctx == c && w.2.sid == sid) with
  | none => s
  | some (n, _) =>
    let mine := s.dig.held.filter (fun h => h.1 == n)
    let s := { s with dig := { s.dig with
      waiting := Map.del s.dig.waiting n, held := s.dig.held.filter (fun h => h.1 != n) } }
    mine.foldl (fun s h => s.writeDgrp n h.2.1 h.2.2.1 h.2.2.2) s

/-- Strand `sid` of `c` is gone: its engine is free and its walk closed. -/
def State.dropStrand (s : State) (c : Nat) (t : Strand) : State :=
  let s := s.endDigest c t.sid
  let s := match t.engine with
    | none => s
    | some e => s.freeEngine e
  (s.closeWalk c t.sid).updRun c (fun j => { j with strands := j.strands.filter (fun u => u.sid != t.sid) })

/-- Every DIGEST that waits ends. -/
def State.endDigests (s : State) : State := s.dig.waiting.foldl (fun s p => s.endDigest p.2.ctx p.2.sid) s

/-- Every engine holds nothing. -/
def State.freeEngines (s : State) : State := (List.range 11).foldl State.freeEngine s

/-- The strand waits in a fenced signal, which runs to its end (R149). -/
def Strand.signals (t : Strand) : Bool :=
  match t.wait with
  | some (.fence _ signal) => signal
  | _ => false

/-- Every strand of the job stops at its next command boundary (R162, R173): one that runs no command is gone at
once, one that does, or that waits in a fenced signal, is asked to suspend and goes when its command ends or suspends. -/
def State.stopStrands (s : State) (c : Nat) : State :=
  match (s.ctx c).bind Ctx.running with
  | none => s
  | some j =>
    j.strands.foldl (fun s t =>
      match t.engine with
      | none => s.dropStrand c t
      | some e => if (s.engine e).running.isSome || t.signals then s.updEngine e (fun g => { g with yield := true })
          else s.dropStrand c t) s

/-- The running job of `c` ends with a code (R422): it takes hold unless the job has completed or has already
ended; its strands stop. -/
def State.endJob (s : State) (c code : Nat) : State :=
  match (s.ctx c).bind Ctx.running with
  | none => s
  | some j =>
    match j.phase with
    | .completed => s
    | .ending _ => s
    | _ => (s.updRun c (fun j => { j with phase := .ending code })).stopStrands c

/-- An abort of the running job takes hold (R172, R173). -/
def State.abortJob (s : State) (c : Nat) (who : Option (Role × Nat)) : State :=
  (s.updRun c (fun j => { j with
    phase := .ending Code.aborted
    aborts := j.aborts ++ who.toList })).stopStrands c

/-- The open step of the running job of `c` is to restart (R162): its attempt is abandoned. A step already being
abandoned, or a job that no longer runs, is left as it is. -/
def State.replayStep (s : State) (c : Nat) : State :=
  match (s.ctx c).bind Ctx.running with
  | none => s
  | some j =>
    match j.phase, j.open_ with
    | .active, some _ => (s.updRun c (fun j => { j with phase := .replaying })).stopStrands c
    | _, _ => s

/-- The uncommitted state writes of the context's stream are dropped (R287). -/
def State.dropWrites (s : State) (c : Nat) : State :=
  { s with se := { s.se with
    slots := s.se.slots.map (fun p => if p.2.owner = c then (p.1, { p.2 with wr := 0 }) else p) } }

/-! ### Reads of the commons -/

/-- CM serves a read of `n` bytes from `a` (R345): an armed injection on a bank it touches is corrected and
counted, or found uncorrectable. -/
def State.cmRead (s : State) (a n : Nat) : State × Bool :=
  let b := s.getF Reg.cmInject 14 8
  if n = 0 ∨ b < a / 0x200000 ∨ (a + n - 1) / 0x200000 < b then (s, false)
  else if s.armed Reg.cmInject 0 then ((s.setF Reg.cmInject 0 0 0).bump16 Reg.cmCnt 1 none, false)
  else if s.armed Reg.cmInject 1 then ((s.setF Reg.cmInject 1 1 0).detect Reg.cmErr 0 14 none, true)
  else (s, false)

/-! ### Moving on a tape -/

/-- The sequencer of context `c` reads word `off` of a tape in the commons: a word found uncorrectable ends the job with
MEM_POISON (R345; log 34). -/
def State.fetchWord (s : State) (c tape off : Nat) : State :=
  match s.tapeDir tape with
  | none => s
  | some d =>
    match s.cmRead (d.base + 8 * off) 8 with
    | (s, true) => s.endJob c Code.memPoison
    | (s, false) => s

/-- The strand's next word is word `pc` of its tape; beyond the last word the job ends with TAPE_END (R694). -/
def State.goto (s : State) (c sid : Nat) (t : Strand) (tape : Nat) (pc : Int) : State :=
  if 0 ≤ pc ∧ (s.tapeWord tape pc.toNat).isSome then
    (s.updStrand c sid (fun u => { u with tape := tape, pc := pc.toNat })).fetchWord c tape pc.toNat
  else (s.updStrand c t.sid (fun u => { u with tape := tape })).endJob c Code.tapeEnd

/-- Strand `sid` of context `c`, with its job. -/
def State.strandAt (s : State) (c sid : Nat) : Option (Ctx × JobRun × Strand) :=
  match s.ctx c with
  | none => none
  | some x =>
    match x.running with
    | none => none
    | some j => (j.strand sid).map (fun t => (x, j, t))

/-! ### Which engines run -/

/-- The vision gate runs (R45). -/
def State.visionGate (s : State) : Bool :=
  match s.pw.island with
  | none => false
  | some (p, _, t) =>
    s.image.isSome && (decide (Rung.height .doze ≤ p.floor.height) ||
      s.pw.claims.any (fun c => match t[c.hail]? with | none => false | some e => e.vision))

/-- The field's jobs other than gate jobs demand Run (R513): one runs, or one is queued in a context that is not
HALTED. -/
def Ctx.demands (x : Ctx) : Bool :=
  (match x.running with | none => false | some j => j.job.gate.isNone) ||
  (!x.halted && x.queue.any (fun j => j.gate.isNone))

/-- The hail entries of the standing claims on Run. -/
def State.runEntries (s : State) : List HailEntry :=
  (s.pw.claims.filter (fun c => c.rung == .run)).filterMap (fun c => s.hailEntry c.hail)

/-- R29, R32: the supporting blocks that the standing claims ungate: bit 0 IP, 1 KM, 2 TU, 3 DM, 4 to 7 LX0 to LX3. The
rungs that power them run them all (R510), so what the mask adds is the clock of a block that would gate itself (log 68). -/
def State.blockMask (s : State) : Nat := (s.pw.claims.filterMap (fun c => s.hailEntry c.hail)).foldl (fun m e => m ||| e.blocks) 0

/-- R32, R513, R649: the engines that the claims standing on Run ungate. -/
def State.runMask (s : State) : Nat :=
  let hails := s.runEntries.foldl (fun m e => m ||| e.engines) 0
  let all := s.fields.foldl (fun m r => m ||| r.engines) 0
  let demand := s.fields.foldl (fun m r =>
    if s.dx.ctxs.any (fun p => p.2.field == r.id && p.2.demands) then m ||| r.engines else m) 0
  if s.pw.hostClaim = some .run then hails ||| all
  else if s.runEntries.isEmpty then demand else hails

/-- Engine `e` is powered and clocked (R510, R511): ungated in Run, or EE while the vision gate runs. -/
def State.engineOn (s : State) (e : Nat) : Bool :=
  s.coreUp && !s.domainHeld e && !s.domainHeld 11 &&
    ((s.pw.rung == .run && bit s.runMask e) || (e == 10 && s.visionGate))

/-- The field's work may start: it is not isolated, or its slot is open outside the guard (R423, R432). -/
def State.slotOpen (s : State) (f : Nat) : Bool :=
  match s.fieldRec f with
  | none => false
  | some r => !r.isolated || (r.phase == s.dx.phase && !s.dx.guard)

/-- The strand that engine `e` holds, with its context and job, when it can execute its next word: its engine is
on, runs no command and is not asked for, its job is active, and its field's slot is open. -/
def State.current (s : State) (e : Nat) : Option (Nat × Ctx × JobRun × Strand) :=
  match (s.engine e).strand with
  | none => none
  | some (c, sid) =>
    match s.ctx c with
    | none => none
    | some x =>
      match x.running with
      | none => none
      | some j =>
        match j.strand sid with
        | none => none
        | some t =>
          if (s.engine e).running.isNone && !(s.engine e).yield && j.phase == .active && s.engineOn e &&
              s.slotOpen x.field && !s.safe && !s.inReset e && !s.inReset 39 then
            some (c, x, j, t) else none

/-- The header word that engine `e`'s strand meets, when it is of class `cls`. -/
def State.meets (s : State) (e cls : Nat) : Option (Nat × Ctx × JobRun × Strand × Nat) :=
  match s.current e with
  | none => none
  | some (c, x, j, t) =>
    match s.tapeWord t.tape t.pc with
    | none => none
    | some h => if bits h 63 59 == cls && (t.wait.isNone || s.waitDone c x t.wait) then some (c, x, j, t, h) else none

end Sys2Proof.Machine
end

