-- ==== Sys2Proof/Machine/Message.lean ====
section
/-!
DEFINITION. Messages (R640 to R652): the types and the roles that may send them, the payload layouts, and how a
block takes an accepted request and answers it.
-/
namespace Sys2Proof.Machine

/-! ### Types and roles (R645) -/

/-- Message types by their codes. -/
abbrev Msg.echo : Nat := 0x0001
/-- REG_READ. -/
abbrev Msg.regRead : Nat := 0x0002
/-- REG_WRITE. -/
abbrev Msg.regWrite : Nat := 0x0003
/-- MEM_READ. -/
abbrev Msg.memRead : Nat := 0x0004
/-- MEM_WRITE. -/
abbrev Msg.memWrite : Nat := 0x0005
/-- APERTURE. -/
abbrev Msg.aperture : Nat := 0x0006
/-- HOST_CLAIM. -/
abbrev Msg.hostClaim : Nat := 0x0010
/-- HAIL. -/
abbrev Msg.hail : Nat := 0x0011
/-- RELEASE. -/
abbrev Msg.release : Nat := 0x0012
/-- IMG_BEGIN. -/
abbrev Msg.imgBegin : Nat := 0x0020
/-- IMG_DATA. -/
abbrev Msg.imgData : Nat := 0x0021
/-- QUOTE. -/
abbrev Msg.quote : Nat := 0x0022
/-- KEY_RELEASE. -/
abbrev Msg.keyRelease : Nat := 0x0023
/-- KEY_DROP. -/
abbrev Msg.keyDrop : Nat := 0x0024
/-- WEIGHT_LOAD. -/
abbrev Msg.weightLoad : Nat := 0x0025
/-- OWNER_SET. -/
abbrev Msg.ownerSet : Nat := 0x0026
/-- SD_LOAD. -/
abbrev Msg.sdLoad : Nat := 0x0027
/-- CTX_OPEN. -/
abbrev Msg.ctxOpen : Nat := 0x0030
/-- CTX_CLOSE. -/
abbrev Msg.ctxClose : Nat := 0x0031
/-- JOB_SUBMIT. -/
abbrev Msg.jobSubmit : Nat := 0x0032
/-- JOB_ABORT. -/
abbrev Msg.jobAbort : Nat := 0x0033
/-- CTX_RESUME. -/
abbrev Msg.ctxResume : Nat := 0x0034
/-- COUNTER. -/
abbrev Msg.counter : Nat := 0x0035
/-- KV. -/
abbrev Msg.kv : Nat := 0x0040
/-- ST. -/
abbrev Msg.st : Nat := 0x0041
/-- TU. -/
abbrev Msg.tu : Nat := 0x0042
/-- DM_START. -/
abbrev Msg.dmStart : Nat := 0x0043
/-- DM_ABORT. -/
abbrev Msg.dmAbort : Nat := 0x0044

/-- The roles column of R645: any role; a field session or the owner; the owner alone. -/
def msgRoleOk (typ : Nat) (r : Role) : Bool :=
  if [0x01, 0x02, 0x20, 0x21, 0x22, 0x23, 0x26].contains typ then true
  else if [0x10, 0x12, 0x27].contains typ then r == .owner
  else r != .anon

/-- The message needs an image in force (R645). -/
def msgNeedsImage (typ : Nat) : Bool := decide (0x10 ≤ typ) && !([0x20, 0x21, 0x22, 0x23, 0x26].contains typ)

/-- The block that serves messages of the type, where it can be reset. -/
def msgServer (typ : Nat) : Option Nat :=
  if 0x30 ≤ typ ∧ typ ≤ 0x35 then some 39
  else if typ = Msg.kv then some 38
  else if typ = Msg.st then some 7
  else if typ = Msg.tu then some 31
  else if typ = Msg.dmStart ∨ typ = Msg.dmAbort then some 32
  else if typ = Msg.sdLoad then some 44
  else none

/-- R645: a request of the type from the role is answered at once with a code; a block in reset ends it with
BLOCK_RESET (R614). -/
def State.msgGate (s : State) (r : Role) (typ : Nat) : Option Nat :=
  if !msgRoleOk typ r then some Code.sxRole
  else if msgNeedsImage typ && s.image.isNone then some Code.noImage
  else if (msgServer typ).any s.inReset then some Code.blockReset
  else none

/-! ### Taking a request and answering it -/

/-- The bytes of a reply frame with `n` result bytes. -/
def replySize (r : Role) (n : Nat) : Nat := 32 + 4 + n + (if r = .anon then 0 else 16) + 4

/-- HP can hand over a request: it runs, and the outbound queue has room for its largest reply (R639, R652). -/
def State.canTake (s : State) (r : Role) (n : Nat) : Bool :=
  s.coreUp && !s.inReset 40 && decide (s.outUsed + replySize r n ≤ 262144)

/-- The list without the first element that satisfies `p`. -/
def eraseFirst {α : Type} (p : α → Bool) : List α → List α
  | [] => []
  | a :: l => if p a then l else a :: eraseFirst p l

/-- The request leaves the inbound buffer. -/
def State.takeRequest (s : State) (r : Role) (rid typ : Nat) : State :=
  { s with hp := { s.hp with requests := eraseFirst (fun q => q.role == r && q.rid == rid && q.typ == typ) s.hp.requests } }

/-- A request performed whole: it waits while HP cannot hand it over; it is turned away under R645; otherwise `f`
gives its effect, its status and its results, which are replied. `n` is the most result bytes. -/
def State.message (s : State) (r : Role) (rid typ n : Nat) (f : State → State × Nat × List Byte) : State :=
  if s.canTake r n then
    let s := s.takeRequest r rid typ
    match s.msgGate r typ with
    | some c => s.reply r typ rid c []
    | none =>
      let (s, c, res) := f s
      s.reply r typ rid c res
  else s

/-- A request whose reply may come later: `f` performs it and replies in its own time. -/
def State.messageLater (s : State) (r : Role) (rid typ n : Nat) (f : State → State) : State :=
  if s.canTake r n then
    let s := s.takeRequest r rid typ
    match s.msgGate r typ with
    | some c => s.reply r typ rid c []
    | none => f s
  else s

/-! ### SX's checks (R600) -/

/-- A key-store error (R600): the whole key store is erased and the epoch ends. -/
def State.eraseStore (s : State) : State :=
  { s with sx := { s.sx with
    kems := [], modelKeys := [], memKeys := [], prefixKeys := [], sessionKeys := [], epoch := none } }

/-- SX uses its key store: an armed injection is detected (R600, R607). -/
def State.keyCheck (s : State) : State :=
  if s.armed Reg.sxInject 2 then (s.check Reg.sxInject Reg.sxErr 2 37 none).eraseStore else s

/-- SX uses its working buffers and its key store. -/
def State.sxChecks (s : State) : State := (s.check Reg.sxInject Reg.sxErr 1 37 none).keyCheck

/-! ### Payloads (R645, R646) -/

/-- The KV message (R267). -/
def kvCommand (r : Role) (rid : Nat) (p : List Byte) : Option Instr :=
  match fld p 0 1, p.length with
  | 0, 11 => some (.kvInit r rid (fld p 1 2) (fld p 3 8))
  | 1, 19 => some (.kvAdopt r rid (fld p 1 2) (fld p 3 8) (fld p 11 4) (fld p 15 4))
  | 2, 19 => some (.kvPublish r rid (fld p 1 2) (fld p 3 8) (fld p 11 4) (fld p 15 4))
  | 3, 7 => some (.kvTruncate r rid (fld p 1 2) (fld p 3 4))
  | 4, 3 => some (.kvFree r rid (fld p 1 2))
  | 5, 2 => some (.kvPrune r rid (fld p 1 1))
  | 6, 9 => some (.kvFork r rid (fld p 1 2) (fld p 3 2) (fld p 5 4))
  | 7, 15 => some (.kvLoad r rid (fld p 1 2) (fld p 3 4) (fld p 7 8))
  | _, _ => none

/-- The ST message (R308). -/
def stCommand (r : Role) (rid : Nat) (p : List Byte) : Option Instr :=
  match fld p 0 1, p.length with
  | 0, 15 => some (.stInit r rid (fld p 1 2) (fld p 3 4) (fld p 7 8))
  | 1, 3 => some (.stReset r rid (fld p 1 2))
  | 2, 3 => some (.stEvict r rid (fld p 1 2))
  | 3, 3 => some (.stFree r rid (fld p 1 2))
  | _, _ => none

/-- The TU message (R387). -/
def tuCommand (r : Role) (rid : Nat) (p : List Byte) : Option Instr :=
  match fld p 0 1, p.length with
  | 0, 21 => some (.tuMap r rid (fld p 1 1) (fld p 2 2) (fld p 4 8) (fld p 12 4) (fld p 16 1) (fld p 17 1) (fld p 18 1)
      (fld p 19 2))
  | 1, 4 => some (.tuUnmap r rid (fld p 1 1) (fld p 2 2))
  | 2, 5 => some (.tuHint r rid (fld p 1 1) (fld p 2 2) (fld p 4 1))
  | 3, 15 => some (.tuPlace r rid (fld p 1 1) (fld p 2 8) (fld p 10 4) (fld p 14 1))
  | 4, 14 => some (.tuPin r rid (fld p 1 1) (fld p 2 8) (fld p 10 4))
  | 5, 14 => some (.tuUnpin r rid (fld p 1 1) (fld p 2 8) (fld p 10 4))
  | 6, 2 => some (.tuEvacuate r rid (fld p 1 1))
  | 7, 15 => some (.tuSow r rid (fld p 1 2) (fld p 3 8) (fld p 11 4))
  | _, _ => none

/-- The COUNTER message (R648). -/
def counterCommand (r : Role) (rid : Nat) (p : List Byte) : Option Instr :=
  if p.length = 10 ∧ fld p 1 1 ≤ 1 then
    let sc := fld p 1 1
    let id := fld p 2 2
    let ix := fld p 4 2
    let v := fld p 6 4
    match fld p 0 1 with
    | 0 => some (.counterRead r rid sc id ix)
    | 1 => some (.counterAdd r rid sc id ix v)
    | 2 => some (.counterRaise r rid sc id ix v)
    | _ => none
  else none

/-- The words of a REG_WRITE. -/
def wordsOf (p : List Byte) (n : Nat) : List W32 := (chunksOf 4 n p).map (fun b => BitVec.ofNat 32 (leNat b))

/-- The messages whose payload has one fixed length. -/
def fixedCommand (r : Role) (typ rid : Nat) (p : List Byte) : Option Instr :=
  match typ, p.length with
  | 0x0006, 8 => some (.aperture r rid (fld p 0 8))
  | 0x0010, 1 => some (.hostClaim r rid (fld p 0 1))
  | 0x0011, 0 => some (.hail r rid)
  | 0x0012, 1 => some (.release r rid (fld p 0 1))
  | 0x0020, 8 => some (.imgBegin r rid (fld p 0 8))
  | 0x0022, 32 => some (.quote r rid p)
  | 0x0024, 5 => some (.keyDrop r rid (fld p 0 1) (fld p 1 4))
  | 0x0027, 5 => some (.sdLoad r rid (fld p 0 1) (fld p 1 4))
  | 0x0030, 15 => some (.ctxOpen r rid (fld p 0 2) (fld p 2 8) (fld p 10 4) (fld p 14 1))
  | 0x0031, 2 => some (.ctxClose r rid (fld p 0 2))
  | 0x0032, 6 => some (.jobSubmit r rid (fld p 0 2) (fld p 2 4))
  | 0x0033, 6 => some (.jobAbort r rid (fld p 0 2) (fld p 2 4))
  | 0x0034, 3 => some (.ctxResume r rid (fld p 0 2) (fld p 2 1 != 0))
  | 0x0043, 1 => some (.dmStart r rid (fld p 0 1))
  | 0x0044, 1 => some (.dmAbort r rid (fld p 0 1))
  | _, _ => none

/-- The command that an accepted request asks for; none for an unknown TYPE, a payload of the wrong length, or an op
code outside its table (R645). -/
def messageOf (r : Role) (typ rid : Nat) (p : List Byte) : Option Instr :=
  let n := p.length
  if typ = Msg.echo then some (.echo r rid p)
  else if typ = Msg.regRead then
    if n = 8 ∧ 1 ≤ fld p 4 2 ∧ fld p 4 2 ≤ 256 ∧ fld p 6 2 = 0 then some (.regRead r rid (fld p 0 4) (fld p 4 2)) else none
  else if typ = Msg.regWrite then
    let k := fld p 4 2
    if 8 ≤ n ∧ 1 ≤ k ∧ k ≤ 256 ∧ fld p 6 2 = 0 ∧ n = 8 + 4 * k then
      some (.regWrite r rid (fld p 0 4) (wordsOf (p.drop 8) k)) else none
  else if typ = Msg.memRead then
    if n = 8 ∧ 1 ≤ fld p 4 4 ∧ fld p 4 4 ≤ 65536 then some (.memRead r rid (fld p 0 4) (fld p 4 4)) else none
  else if typ = Msg.memWrite then
    let k := fld p 4 4
    if 8 ≤ n ∧ 1 ≤ k ∧ k ≤ 65536 ∧ n = 8 + k then some (.memWrite r rid (fld p 0 4) k (p.drop 8)) else none
  else if typ = Msg.imgData then
    if 9 ≤ n ∧ n ≤ 65544 then some (.imgData r rid (fld p 0 8) (p.drop 8)) else none
  else if typ = Msg.keyRelease then some (.keyRelease r rid p)
  else if typ = Msg.weightLoad then some (.weightLoad r rid p)
  else if typ = Msg.ownerSet then
    if (fld p 0 1 = 0 ∧ n = 33) ∨ (0 < fld p 0 1 ∧ 97 ≤ n ∧ n = 97 + fld p 93 4) then
      some (.ownerSet r rid (fld p 0 1) (slice p 1 32) (p.drop 33)) else none
  else if typ = Msg.counter then counterCommand r rid p
  else if typ = Msg.kv then kvCommand r rid p
  else if typ = Msg.st then stCommand r rid p
  else if typ = Msg.tu then tuCommand r rid p
  else fixedCommand r typ rid p

end Sys2Proof.Machine
end

