-- ==== Sys2Proof/Machine/Queue.lean ====
section
/-!
DEFINITION. What the host's, the power manager's and the camera's submissions share: the checks and the queueing of a
job (R420, R421), and the engines that Run ungates (R511).
-/
namespace Sys2Proof.Machine

/-- DX runs: the core is up, DX is not in reset, and the device is not in the safe state. -/
def State.dxUp (s : State) : Bool := s.coreUp && !s.domainHeld 15 && !s.inReset 39 && !s.safe

/-- DX's parity checks (R444): 0 the context table, 1 the job queues, 2 the commit point's queue. -/
def State.dxCheck (s : State) (k : Nat) : State := s.check Reg.dxInject Reg.dxErr k 39 none

/-- R419: a CTX_CLOSE of the context waits. -/
def Ctx.isClosing (x : Ctx) : Bool := x.closing.isSome

/-- R420: the code with which a submission to context `c` is refused. -/
def State.submitRefusal (s : State) (c entry : Nat) : Option Nat :=
  match s.ctx c with
  | none => some Code.ctxClosed
  | some x =>
    if x.isClosing then some Code.ctxClosed
    else if !s.entryOk x.field entry then some Code.ctxArg
    else if 8 ≤ x.queue.length + (if x.running.isSome then 1 else 0) then some Code.queueFull
    else none

/-- An accepted job joins its context's queue under the next submission serial (R421, R447). -/
def State.queueJob (s : State) (c entry : Nat) (hail gate : Option Nat) : State :=
  match s.ctx c with
  | none => s
  | some x =>
    let s := (s.dxCheck 0).dxCheck 1
    let s := s.setCtx c { x with queue := x.queue ++ [⟨BitVec.ofNat 32 x.accepted, entry, hail, gate⟩], accepted := x.accepted + 1 }
    s.bump32 (Reg.dxFsub x.field) 1 (some x.field)

/-- Engine `e` is power-gated: the rung is Doze or below, or Run does not ungate it (R511). -/
def State.gated (s : State) (e : Nat) : Bool :=
  !s.engineOn e && (s.pw.rung == .run || decide (s.pw.rung.height ≤ Rung.height .doze))

/-- R511: in Run, an engine that no claim ungates any more is to give up its strand; once it is idle it is gated, and
a gated SE holds no stages. -/
def State.settleEngines (s : State) : State :=
  let s := if s.pw.rung = .run ∧ s.coreUp then
      (List.range 11).foldl (fun s e =>
        if (s.engine e).strand.isSome && !s.engineOn e then s.updEngine e (fun g => { g with yield := true }) else s) s
    else s
  if s.gated 7 && (s.engine 7).strand.isNone then { s with se := { s.se with stages := [] } } else s

end Sys2Proof.Machine
end

