-- ==== Sys2Proof/Machine/Acoustic.lean ====
section
/-!
DEFINITION. The acoustic front end AF and the Lookout LO (chapter 14): the rings, the beam, launch streams, the model's
frames, and a slot-0 frame's verdict. Samples are numbered here without wrapping; registers show the number modulo 2^32.
-/
namespace Sys2Proof.Machine

/-! ### AF's rings (R453 to R458) -/

/-- AF runs: the island runs, AF was started, and it is not in reset. -/
def State.afUp (s : State) : Bool := s.islandUp && !s.domainHeld 37 && s.af.running && !s.inReset 12

/-- The tier-0 microphone (R451). -/
def State.t0mic (s : State) : Nat := s.getF Reg.afCfg 16 16

/-- The index of the latest sample. -/
def State.lastSample (s : State) : Nat := s.af.count - 1

/-- The sample number that a 32-bit index names, at or before the latest. -/
def State.nearIndex (s : State) (i : Nat) : Nat := s.lastSample - (4294967296 + s.lastSample - i) % 4294967296

/-- The pre-roll ring holds index `n` (R454). -/
def State.ringHolds (s : State) (n : Nat) : Bool := decide (n < s.af.count) && decide (s.af.count ≤ 98304 + n)

/-- The beam ring holds index `n` (R454, R458). -/
def State.beamHolds (s : State) (n : Nat) : Bool :=
  match s.af.splice with
  | none => false
  | some b => decide (b ≤ n) && decide (n < s.af.count) && decide (s.af.count ≤ 16384 + n)

/-- Sample `n` of a stream with anchor `a` (R459), 0 where no ring holds it. -/
def State.streamSample (s : State) (a n : Nat) : Int :=
  if a < n && s.beamHolds n then (Map.get s.af.beam (n % 16384) 0).toInt
  else if s.ringHolds n then (Map.get s.af.ring (n % 98304) 0).toInt else 0

/-- AF stops (R455): the rings are empty, streams end without a marker, and the slot-1 session ends. -/
def State.stopAf (s : State) : State :=
  { s with
    af := { s.af with
      running := false, ring := [], beam := [], hist := [], pdm := [], array := none, splice := none, streams := [] }
    lo := { s.lo with session := none } }

/-- AF starts (R453): sample numbering and slot 0's frames begin anew. -/
def State.startAf (s : State) : State :=
  let s := s.stopAf
  { s with af := { s.af with running := true, count := 0 }, lo := { s.lo with run0 := LoRun.reset } }

/-- SETTLE of the policy record, in µs (R134). -/
def State.settleTime (s : State) : Nat :=
  match s.pw.island with
  | none => 0
  | some (p, _, _) => p.settle

/-- The indices of a session's stream that the beam ring holds now, with their samples. -/
def State.beamTaken (s : State) (r : LoRun) : Map (BitVec 16) :=
  (s.af.beam.length.fold (fun i _ l => (s.af.count - 1 - i) :: l) []).filterMap (fun n =>
    if r.anchor < n && s.beamHolds n then some (n, Map.get s.af.beam (n % 16384) 0) else none)

/-- The array stops (R458, R459): the beam ring is invalid, and the session keeps what it took from it. -/
def State.stopArray (s : State) : State :=
  { s with
    lo := { s.lo with session := s.lo.session.map (fun r => { r with kept := r.kept ++ s.beamTaken r }) }
    af := { s.af with array := none, splice := none, beam := [] } }

/-- The array starts or stops with the claims that ask for it (R458). Starting sets the splice index that AF.SPLICE
shows to the first sample produced at least SETTLE µs later; where in a sample period the start falls is time, and
decides between two indices (log 54). -/
def State.settleArray (s : State) : State :=
  let want := s.af.running && s.pw.claims.any (fun c => (s.hailEntry c.hail).any HailEntry.array)
  match s.af.array with
  | none =>
    if want then
      let (k, s) := s.pick 2
      let b := max s.af.count (s.af.count + ceilDiv (2 * s.settleTime) 125 + k - 1)
      { s.setF Reg.afSplice 31 0 b with af := { s.af with array := some b } }
    else s
  | some _ => if want then s else s.stopArray

/-- R456: the beam sample over the latest samples of each microphone, before the clamp. -/
def State.beamSum (s : State) : Int :=
  let mask := s.getF Reg.afCfg 15 8 &&& s.getF Reg.afCfg 31 24
  Dy.roundEven ⟨((List.range 8).map (fun m =>
    if bit mask m then
      let (d, g) := (s.af.active[m]?).getD (0, 0)
      let h := (s.af.hist[m]?).getD []
      let x (k : Nat) : Int := ((h[k]?).getD 0).toInt
      g.toInt * ((8 - d % 8 : Int) * x (d / 8) + (d % 8 : Int) * x (d / 8 + 1))
    else 0)).sum, -17⟩

/-! ### Launch streams (R469 to R474) -/

/-- A ROUTE entry (R469). -/
structure Route where
  buf : Nat
  area : Nat
  counter : Nat
  valid : Bool
  deriving DecidableEq, Repr

/-- ROUTE `h` of a slot-0 blob. -/
def Route.of (blob : List Byte) (h : Nat) : Route :=
  let b := slice blob (512 + 16 * h) 16
  ⟨fld b 0 4 * 64, fld b 4 4, fld b 8 2, bit (fld b 10 1) 0⟩

/-- A marker of kind `kind` written into the head of the stream's buffer (R474). -/
def State.marker (s : State) (t : Stream) (kind index short : Nat) : State :=
  let (p, n) := Map.get s.af.bufs t.buf (0, 0)
  let b := natLE 4 p ++ natLE 4 index ++ natLE 1 kind ++ natLE 1 n ++ natLE 1 t.hail ++ natLE 1 s.t0mic ++
    natLE 4 short ++ s.af.active.flatMap (fun q => natLE 1 q.1) ++ s.af.active.flatMap (fun q => natLE 2 q.2.toNat) ++
    natLE 1 (s.getF Reg.afCfg 15 8)
  let s := s.write (t.buf + 64 * (n % 8)) (b ++ List.replicate (64 - b.length) 0)
  { s with af := { s.af with bufs := Map.put s.af.bufs t.buf (p, n + 1) } }

/-- Sample `n` of a stream is written, with the marker of a change of source before it, and the counter is raised
(R459, R472 to R474). -/
def State.feed (s : State) (t : Stream) (n : Nat) : State × Stream :=
  let beam := decide (t.anchor < n) && s.beamHolds n
  let s := if beam = t.beam then s else s.marker t (if beam then 2 else 3) n 0
  let v := s.streamSample t.anchor n
  let (p, k) := Map.get s.af.bufs t.buf (0, 0)
  let s := s.write (t.buf + 512 + 2 * (p % (t.area / 2))) (natLE 2 (v % 65536).toNat)
  let s := { s with af := { s.af with bufs := Map.put s.af.bufs t.buf (p + 1, k) } }
  let s := match s.ctxField t.ctx with
    | none => s
    | some f => s.raiseShared f t.counter (BitVec.ofNat 32 (p + 1))
  (s, { t with next := n + 1, beam := beam })

/-- Samples from the stream's next to the latest are written. -/
def State.feedAll (s : State) (t : Stream) : Nat → State × Stream
  | 0 => (s, t)
  | n + 1 =>
    if t.next < s.af.count then
      let (s, t) := s.feed t t.next
      s.feedAll t n
    else (s, t)

/-- The streams that satisfy `p` close, each with its CLOSE marker (R471, R474). -/
def State.closeStreams (s : State) (p : Stream → Bool) : State :=
  let s := (s.af.streams.filter p).foldl (fun s t => s.marker t 4 t.next 0) s
  { s with af := { s.af with streams := s.af.streams.filter (fun t => !p t) } }

/-- AF's parity checks of a read of the rings (R475): 0 the pre-roll ring, 1 the beam ring while it holds samples. -/
def State.ringChecks (s : State) : State :=
  let s := s.check Reg.afInject Reg.afErr 0 12 none
  if s.af.splice.isSome then s.check Reg.afInject Reg.afErr 1 12 none else s

/-- A launch stream of hail `h` opens for context `c` (R471): a stream open on its buffer closes first; it starts at
its lookback or the oldest sample held, with the missing indices as its shortfall (R460), and takes at once what the rings
hold. An anchor recorded before AF started anew keeps its number, so that the stream waits for that index (log 67). -/
def State.openStream (s : State) (h c anchor lookback : Nat) : State :=
  match s.lo.model0 with
  | none => s
  | some blob =>
    let r := Route.of blob h
    if !r.valid || !s.afUp then s
    else
      let s := s.closeStreams (fun t => t.buf == r.buf)
      let start := max (anchor + 1 - lookback) (s.af.count - 98304)
      let t : Stream := ⟨h, c, r.buf, r.area, r.counter, anchor, start, false⟩
      let s := s.ringChecks.marker t 1 start (start + lookback - (anchor + 1))
      let (s, t) := s.feedAll t 98304
      { s with af := { s.af with streams := s.af.streams ++ [t] } }.wake

/-- PDM bits of one microphone in a sample period (R452). -/
def State.pdmRatio (s : State) : Nat :=
  match s.pw.island with
  | none => 192
  | some (p, _, _) => 768 / p.pdmDiv

/-- The bits of microphone `m` among the levels of the data pins at the clock's edges, rising and falling in turn: it
shares pin m / 2, and the even microphone is sampled at the rising edges (R449). -/
def micBits (pins : List (List Bool)) (ratio m : Nat) : List Bool :=
  (List.range ratio).map (fun k => (((pins[m / 2]?).getD [])[2 * k + m % 2]?).getD false)

/-- The sample a decimator delivers from the bits of its latest sample periods (R452). Its exact group delay of 18 samples
makes it a symmetric filter over 37; one that has read the same bits throughout stands at its steady output, within 1. -/
def decimate (ratio : Nat) (h : List (List Bool)) : BitVec 16 :=
  let v := Config.decimated h
  match h with
  | [] => v
  | p :: ps =>
    if ps.length = 36 ∧ p.length = ratio ∧ ps.all (· == p) = true ∧ ratio ≠ 0 then
      let x := (2 * (p.count true : Int) - ratio) * 32767
      BitVec.ofInt 16 (max (-32768) (min 32767 ((2 * x + ratio) / (2 * ratio) + (v.toNat % 3 : Int) - 1)))
    else v

/-- Microphone `m` is read: it is fitted, and its clock runs (R450, R451). -/
def State.micRead (s : State) (m : Nat) : Bool :=
  bit (s.getF Reg.afCfg 31 24) m && (decide (m < 2) || s.af.array.isSome)

/-- AF_SAMPLE (R449 to R459): the next sample of every microphone, from the levels of PDM_D0 to PDM_D3 at the clock edges
of its period; the rings, the splice index, the beam and the open streams take it. A microphone that is absent, or whose
clock does not run, is not read, and counts as 0 (log 54). -/
def execAfSample (pins : List (List Bool)) (s : State) : Host.Outcome State Fault Refusal :=
  if !s.afUp then .next s
  else
    let n := s.af.count
    let pdm := (List.range 8).map (fun m =>
      ((if s.micRead m then micBits pins s.pdmRatio m else []) :: (s.af.pdm[m]?).getD []).take 37)
    let here (m : Nat) : BitVec 16 := if s.micRead m then decimate s.pdmRatio ((pdm[m]?).getD []) else 0
    let hist := (List.range 8).map (fun m => (here m :: (s.af.hist[m]?).getD []).take 33)
    let s := s.check Reg.afInject Reg.afErr 0 12 none
    let s := { s with af := { s.af with
      count := n + 1, pdm := pdm, hist := hist, ring := Map.put s.af.ring (n % 98304) (here s.t0mic) } }
    let splice := match s.af.array, s.af.splice with
      | some b, none => if b ≤ n then some b else none
      | _, b => b
    let s := { s with af := { s.af with splice := splice } }
    let s :=
      if splice.isNone then s
      else
        let s := s.check Reg.afInject Reg.afErr 1 12 none
        let y := s.beamSum
        let c := max (-32768) (min 32767 y)
        let s := if c = y then s else s.bump16 Reg.afClip 1 none
        { s with af := { s.af with beam := Map.put s.af.beam (n % 16384) (BitVec.ofInt 16 c) } }
    let s := s.af.streams.foldl (fun s t =>
      let (s, u) := s.feedAll t 98304
      { s with af := { s.af with streams := s.af.streams.map (fun q => if q.buf = t.buf then u else q) } }) s
    .next s.wake

/-- AF.BEAMCTL.COMMIT (R457): every shadow is copied to the active set. -/
def State.commitBeam (s : State) : State :=
  { s with af := { s.af with active := (List.range 8).map (fun m =>
      (s.getF (Reg.afMic m) 7 0, BitVec.ofNat 16 (s.getF (Reg.afMic m) 31 16))) } }

/-! ### The Lookout's model (R461 to R463, R467, R468) -/

/-- A layer of a Lookout model (R468). -/
structure LoLayer where
  kind : Nat
  wfmt : Nat
  ofmt : Nat
  kt : Nat
  dil : Nat
  mapen : Nat
  nin : Nat
  nout : Nat
  woff : Nat
  roff : Nat
  map : Nat
  deriving DecidableEq, Repr

/-- Layer `i` of a blob. -/
def LoLayer.of (blob : List Byte) (i : Nat) : LoLayer :=
  let b := slice blob (1024 + 32 * i) 32
  ⟨fld b 0 1, fld b 1 1, fld b 2 1, fld b 3 1, fld b 4 1, fld b 5 1, fld b 8 2, fld b 10 2, fld b 12 4, fld b 16 4, fld b 20 8⟩

/-- Layers of a blob. -/
def loLayerCount (blob : List Byte) : Nat := fld blob 4 1

/-- Samples per frame. -/
def loHop (blob : List Byte) : Nat := fld blob 6 2

/-- A complex number in units of 2^−128. -/
abbrev Cx := Int × Int

/-- The product, rounded down to the unit. -/
def Cx.mul (a b : Cx) : Cx := ((a.1 * b.1 - a.2 * b.2) / 2 ^ 128, (a.1 * b.2 + a.2 * b.1) / 2 ^ 128)

/-- exp(−2πi / 2^(9 − k)): the root of 512 points squared `k` times. -/
def fftRoot : Nat → Cx
  | 0 => (340256744284537774291616451567166656226, -4175788093625692072829030064408394408)
  | k + 1 => (fftRoot k).mul (fftRoot k)

/-- A list with element `i` multiplied by `w` × `r`^i. -/
def twist (r : Cx) : Cx → List Cx → List Cx
  | _, [] => []
  | w, x :: xs => x.mul w :: twist r (w.mul r) xs

/-- Every other element, from the first. -/
def evens {α : Type} : List α → List α
  | [] => []
  | [a] => [a]
  | a :: _ :: l => a :: evens l

/-- The discrete Fourier transform of 2^d points. -/
def fft : Nat → List Cx → List Cx
  | 0, xs => xs
  | d + 1, xs =>
    let e := fft d (evens xs)
    let o := twist (fftRoot (8 - d)) (2 ^ 128, 0) (fft d (evens xs.tail))
    List.zipWith (fun a b => (a.1 + b.1, a.2 + b.2)) e o ++ List.zipWith (fun a b => (a.1 - b.1, a.2 - b.2)) e o

/-- R462, steps 1 and 2: the transform of a frame's 512 samples under the Hann window (1 − cos(2πi / 512)) / 2 (log 10), in
units of 2^−144. -/
def loSpectrum (x : List Int) : List Cx :=
  let w := twist (fftRoot 0) (2 ^ 128, 0) (List.replicate 512 (2 ^ 128, 0))
  fft 9 (List.zipWith (fun v c => (v * (2 ^ 128 - c.1), 0)) x w)

/-- R462, step 3: a band's energy over bins `lo` to `hi`, in units of 2^−288. -/
def bandEnergy (xs : List Cx) (lo hi : Nat) : Nat :=
  (((xs.drop lo).take (hi + 1 - lo)).map (fun (c : Cx) => c.1 * c.1 + c.2 * c.2)).sum.toNat

/-- R462, step 4: the feature code of a band energy `n` × 2^−288. Where 2 × log2 E lies within 2^−10 of an integer, `side`
says on which side of it the part finds it. -/
def loFeature (off : Int) (side : Bool) (n : Nat) : Int :=
  let a := n * n
  let k := a.log2
  let f : Int := (k : Int) - 576
  let f := if a * 1000000 ≤ 2 ^ k * 1000678 then (if side then f else f - 1)
    else if 2 ^ (k + 1) * 1000000 ≤ a * 1000678 then (if side then f + 1 else f) else f
  if n = 0 then 0 else max 0 (min 15 (f + off))

/-- R462: the feature codes of a frame. -/
def loFeatures (blob : List Byte) (x : List Int) : List Int :=
  let xs := loSpectrum x
  (List.range (fld blob 5 1)).map (fun b =>
    let lo := fld blob (32 + 4 * b) 2
    let hi := fld blob (34 + 4 * b) 2
    loFeature (signed 8 (fld blob 24 1)) (Config.featureSide x lo hi) (bandEnergy xs lo hi))

/-- R463: the accumulator of output `n` of a layer over its input history, newest first. -/
def LoLayer.acc (y : LoLayer) (blob : List Byte) (hist : List (List Int)) (n : Nat) : Int :=
  let row := slice blob (y.woff + n * ceilDiv (y.kt * y.nin) 2) (ceilDiv (y.kt * y.nin) 2)
  dot ((List.range (y.kt * y.nin)).map (fun i => lane4 y.wfmt (nibble row i)))
    ((List.range y.kt).flatMap (fun t =>
      (hist[(y.kt - 1 - t) * y.dil]?).getD (List.replicate y.nin 0)))

/-- One frame through the layers (R463): the input of each layer joins its history; the score is the last rescale. -/
def loFrame (blob : List Byte) (hists : List (List (List Int))) (x : List Int) : List (List (List Int)) × Dy :=
  let last := loLayerCount blob - 1
  let r := (List.range (loLayerCount blob)).foldl (fun (a : List (List (List Int)) × List Int × Dy) i =>
    let y := LoLayer.of blob i
    let h := (a.2.1 :: (hists[i]?).getD []).take ((y.kt - 1) * y.dil + 1)
    let rec_ (n : Nat) : ChanRec := ChanRec.ofBytes (slice blob (y.roff + 8 * n) 8)
    if i = last then (a.1 ++ [h], [], rescale (y.acc blob h 0) (rec_ 0).mul (rec_ 0).add)
    else
      let out := (List.range y.nout).map (fun n =>
        let q := ((rec_ n).output y.ofmt true (y.acc blob h n) 0).q
        lane4 y.ofmt (applyMap (if y.mapen = 1 then some y.map else none) (laneCode y.ofmt q)))
      (a.1 ++ [h], out, a.2.2)) ([], loFeatures blob x, ⟨0, 0⟩)
  (r.1, r.2.2)

/-- A run takes its next frame (R464, R465): its consecutive counts follow the score. -/
def LoRun.take (r : LoRun) (blob : List Byte) (x : List Int) : LoRun :=
  let (h, t) := loFrame blob r.hist x
  let th := (single (fld blob 8 4)).getD ⟨0, 0⟩
  let rj := (single (fld blob 12 4)).getD ⟨0, 0⟩
  { r with
    frames := r.frames + 1, hist := h
    high := if th.le t then r.high + 1 else 0
    low := if t.le rj then r.low + 1 else 0
    since := r.since.map (· + 1) }

/-- The 512 samples of a frame of a stream that ends at index `n`: those before the stream's first index read 0, and those
its reader has kept are as it took them. -/
def State.frameSamples (s : State) (kept : Map (BitVec 16)) (anchor first n : Nat) : List Int :=
  (List.range 512).map (fun k =>
    if n + k + 1 < first + 512 then 0
    else match Map.find kept (n + k + 1 - 512) with
      | some v => v.toInt
      | none => s.streamSample anchor (n + k + 1 - 512))

/-- LO runs: AF runs and LO is not in reset. -/
def State.loUp (s : State) : Bool := s.afUp && !s.inReset 13

/-- LO's parity checks (R475). -/
def State.loChecks (s : State) : State :=
  (s.check Reg.loInject Reg.loErr 0 13 none).check Reg.loInject Reg.loErr 1 13 none

/-- LO_FRAME (R464): slot 0's next frame, once its last sample is held; a hit records its index and raises LO_HIT. -/
def execLoFrame (s : State) : Host.Outcome State Fault Refusal :=
  match s.lo.model0 with
  | none => .next s
  | some blob =>
    let n := (s.lo.run0.frames + 1) * loHop blob - 1
    if !s.loUp ∨ s.af.count ≤ n then .next s
    else
      let s := (s.check Reg.afInject Reg.afErr 0 12 none).loChecks
      let r := s.lo.run0.take blob (s.frameSamples [] n 0 n)
      let free : Bool := match r.since with
        | none => true
        | some k => decide (fld blob 17 1 < k)
      if fld blob 16 1 ≤ r.high ∧ free = true then
        let s := { s with lo := { s.lo with run0 := { r with since := some 0 } } }
        .next (((s.setReg Reg.loHit0 (n % 4294967296)).bump Reg.loCnt 15 0 48 1 none).raiseHail 0 (some n))
      else .next { s with lo := { s.lo with run0 := r } }

/-- R465: a slot-1 session opens on LO.HIT0 when none is open and slot 1 holds a model. -/
def State.openSession (s : State) : State :=
  match s.lo.session, s.lo.model1 with
  | none, some blob =>
    let a := s.nearIndex (s.reg Reg.loHit0)
    let first := max (a + 1 - fld blob 20 4) (s.af.count - 98304)
    { s with lo := { s.lo with session := some { LoRun.reset with anchor := a, start := first } } }
  | _, _ => s

end Sys2Proof.Machine
end

