-- ==== Sys2Proof/Machine/Slots.lean ====
section
/-!
DEFINITION. State slots and stream records (R282 to R287), room for a stream and its displacement (R304, R305, R436 to R438), and
the steps of a strand along its tape, after which DX observes its context.
-/
namespace Sys2Proof.Machine

/-! ### Slots (R282 to R287) -/

/-- The slots of the state store (R129, R282). -/
def State.slotTotal (s : State) : Nat := if s.part.store.banks = 0 then 0 else 2048

/-- The commons address of bank `h` of slot `k`. -/
def State.slotBank (s : State) (k h : Nat) : Nat := s.part.store.base + 12288 * k + 6144 * h

/-- A bank of blank blocks (R284). -/
def blankBank : List Byte := List.replicate 63 1 ++ List.replicate 6081 0

/-- The stream record of context `c`. -/
def State.stream (s : State) (c : Nat) : Option StreamRec := Map.find s.se.streams c

/-- The stream record of context `c` changed. -/
def State.updStream (s : State) (c : Nat) (g : StreamRec → StreamRec) : State :=
  { s with se := { s.se with streams := Map.upd s.se.streams c g } }

/-- The slots of a list of `n` from `k` on. -/
def State.slotList (s : State) (k : Nat) : Nat → List Nat
  | 0 => []
  | n + 1 => k :: s.slotList ((Map.find s.se.slots k).map SlotEntry.next |>.getD 0) n

/-- The slots of a resident stream, in order. -/
def State.streamSlots (s : State) (r : StreamRec) : List Nat := s.slotList r.first r.nslot

/-- Slots that the streams of a field hold. -/
def State.heldSlots (s : State) (f : Nat) : Nat :=
  (s.se.slots.filter (fun p => s.ctxField p.2.owner == some f)).length

/-- SE checks slot entries and stream records (R310): a check outside a command names no step. -/
def State.slotCheck (s : State) (step : Option (Nat × W32)) : State := s.check Reg.seInject Reg.seErr 1 7 step

/-- A read of stream block `b` (R287): its exponent and its 96 bytes. -/
def State.getBlock (s : State) (slots : List Nat) (b : Nat) : Nat × List Byte :=
  let k := (slots[b / 63]?).getD 0
  let i := b % 63
  match Map.find s.se.slots k with
  | none => (1, List.replicate 96 0)
  | some e =>
    let a := s.slotBank k (b2n (bit e.cur i != bit e.wr i))
    ((s.byte (a + i)).toNat, s.read (a + 64 + 96 * i) 96)

/-- The commons bytes of `n` stream blocks from `b` on, exponents and data (R283, R287). -/
def State.blockReads (s : State) (slots : List Nat) (b n : Nat) : List (Nat × Nat) :=
  (List.range n).flatMap (fun q =>
    let k := (slots[(b + q) / 63]?).getD 0
    let i := (b + q) % 63
    match Map.find s.se.slots k with
    | none => []
    | some e =>
      let a := s.slotBank k (b2n (bit e.cur i != bit e.wr i))
      [(a + i, 1), (a + 64 + 96 * i, 96)])

/-- A write of stream block `b` (R287): to the bank that is not committed, setting its WR bit. -/
def State.putBlock (s : State) (slots : List Nat) (b e : Nat) (bs : List Byte) : State :=
  let k := (slots[b / 63]?).getD 0
  let i := b % 63
  match Map.find s.se.slots k with
  | none => s
  | some en =>
    let a := s.slotBank k (1 - b2n (bit en.cur i))
    let s := (s.write (a + i) [BitVec.ofNat 8 e]).write (a + 64 + 96 * i) bs
    { s with se := { s.se with slots := Map.put s.se.slots k { en with wr := en.wr ||| 2 ^ i } } }

/-- Commit of a step of context `c` of field `f` (R286, R287). -/
def State.commitSlots (s : State) (c f : Nat) : State :=
  let u := Map.get s.se.commits f 0 + 1
  { s with se := { s.se with
    commits := Map.put s.se.commits f u
    lastUse := if (Map.find s.se.streams c).isSome then Map.put s.se.lastUse c u else s.se.lastUse
    slots := s.se.slots.map (fun p => if p.2.owner = c then (p.1, { p.2 with cur := p.2.cur ^^^ p.2.wr, wr := 0, use := u }) else p) } }

/-! ### Swapping (R304 to R307, R436 to R438) -/

/-- R305: the field may take `n` free slots; with `ahead`, swap-outs in progress count as done. -/
def State.slotsFit (s : State) (f n : Nat) (ahead : Bool) : Bool :=
  let out (p : Nat × StreamRec) : Bool := ahead && p.2.state == 3
  let coming := ((s.se.streams.filter out).map (fun p => p.2.nslot)).sum
  let free := s.slotTotal - s.se.slots.length + coming
  let held (g : Nat) : Nat := s.heldSlots g -
    ((s.se.streams.filter (fun p => out p && s.ctxField p.1 == some g)).map (fun p => p.2.nslot)).sum
  match s.fieldRec f with
  | none => false
  | some r =>
    decide (n ≤ free) && (decide (held f + n ≤ r.stateSlots) ||
      decide (((s.fields.filter (fun g => g.id != f)).map (fun g => g.stateSlots - held g.id)).sum ≤ free - n))

/-- A swap-out of context `c`'s stream is requested (R306, R307): its uncommitted writes are lost, and, with its step
open, the step will restart (R437). -/
def State.requestOut (s : State) (c : Nat) : State :=
  let open_ := match (s.ctx c).bind Ctx.running with
    | none => false
    | some j => j.open_.isSome
  let s := (((s.slotCheck none).updStream c (fun r => { r with state := 3 })).dropWrites c)
  { s with se := { s.se with
    swapQ := s.se.swapQ ++ [.out c]
    displaced := if open_ && !s.se.displaced.contains c then s.se.displaced ++ [c] else s.se.displaced } }

/-- The context has no job running or queued. -/
def State.idleCtx (s : State) (c : Nat) : Bool :=
  match s.ctx c with
  | none => true
  | some x => !x.busy

/-- The resident streams of field `f` that may be swapped out, in order: those without a job, oldest USE first in
the half-range order of R624 (R286, R305), then the displaceable ones by the earliest moment DX observed a condition of theirs,
ties to the lower context (R436). -/
def State.victims (s : State) (f : Nat) : List Nat :=
  let mine := (s.se.streams.filter (fun p => p.2.state == 1 && s.ctxField p.1 == some f)).map (fun p => (p.1, p.2))
  let use (p : Nat × StreamRec) : W32 := ((Map.find s.se.slots p.2.first).map SlotEntry.use).getD 0
  let insert (le : Nat × StreamRec → Nat × StreamRec → Bool) (l : List (Nat × StreamRec)) (p : Nat × StreamRec) :
      List (Nat × StreamRec) := l.takeWhile (fun q => le q p) ++ p :: l.dropWhile (fun q => le q p)
  let idle := (mine.filter (fun p => s.idleCtx p.1)).foldl (insert (fun q p => atOrAfter (use p) (use q))) []
  let stamp (p : Nat × StreamRec) : Option Nat := ((s.ctx p.1).map (fun x => x.displaceable.map Prod.snd)).bind List.min?
  let out := (mine.filter (fun p => !s.idleCtx p.1 && (stamp p).isSome)).foldl
    (insert (fun q p => decide ((stamp q).getD 0 ≤ (stamp p).getD 0))) []
  idle.map Prod.fst ++ out.map Prod.fst

/-- Swap-outs are requested, in that order, until `n` slots would fit. -/
def State.makeRoom (s : State) (f n : Nat) : List Nat → State
  | [] => s
  | c :: cs => if s.slotsFit f n true then s else (s.requestOut c).makeRoom f n cs

/-- `n` free slots are taken for context `c`, with the USE of its stream's last commit (R286); which ones is not stated (log 8),
nor the USE of a stream that has never committed (log 36). -/
def State.takeSlots (s : State) (c : Nat) : Nat → State × List Nat
  | 0 => (s, [])
  | n + 1 =>
    let free := (List.range s.slotTotal).filter (fun k => (Map.find s.se.slots k).isNone)
    let (i, s) := s.pick free.length
    let k := (free[i]?).getD 0
    let s := { s with se := { s.se with slots := Map.put s.se.slots k ⟨c, 0, 0, 0, Map.get s.se.lastUse c 0⟩ } }
    let (s, l) := s.takeSlots c n
    let s := { s with se := { s.se with slots := Map.upd s.se.slots k (fun e => { e with next := l.head?.getD 0 }) } }
    (s, k :: l)

/-- The stream of context `c` is asked to be resident (R304, R305): a swap-in is requested, or room is made for it. -/
def State.ensureStream (s : State) (c : Nat) : State :=
  match s.stream c, s.ctxField c with
  | some r, some f =>
    if r.state ≠ 2 ∨ r.lost ∨ s.safe then s
    else if s.slotsFit f r.nslot false then
      let (s, l) := (s.slotCheck none).takeSlots c r.nslot
      let s := s.updStream c (fun r => { r with state := 4, first := l.head?.getD 0 })
      { s with se := { s.se with swapQ := s.se.swapQ ++ [.into c] } }
    else s.makeRoom f r.nslot (s.victims f)
  | _, _ => s

/-- Contexts with a strand that waits for its stream ask again, in ascending order (log 36). -/
def State.retryStreams (s : State) : State :=
  (s.dx.ctxs.filter (fun p => match p.2.running with
    | none => false
    | some j => j.strands.any (fun t => t.wait == some .stream))).foldl (fun s p => s.ensureStream p.1) s

/-- The slots of context `c` are free. -/
def State.freeSlots (s : State) (c : Nat) : State :=
  { s with se := { s.se with slots := s.se.slots.filter (fun p => p.2.owner != c) } }

/-- ST_FREE's effect (R308): the slots are free and the record is zero. -/
def State.freeStream (s : State) (c : Nat) : State :=
  let s := s.freeSlots c
  { s with se := { s.se with
    streams := Map.del s.se.streams c
    lastUse := Map.del s.se.lastUse c
    swapQ := s.se.swapQ.filter (fun q => match q with | .out d => d != c | .into d => d != c)
    displaced := s.se.displaced.filter (fun d => d != c) } }

/-- The saved state of context `c` is lost (R307): LOST, STATE 2, no slots; a job of the context that runs ends with STATE_LOST,
and the slots may serve a stream that waits (R438). -/
def State.loseStream (s : State) (c : Nat) : State :=
  let s := (s.freeSlots c).updStream c (fun r => { r with state := 2, lost := true, first := 0 })
  let s := { s with se := { s.se with
    swapQ := s.se.swapQ.filter (fun q => match q with | .out d => d != c | .into d => d != c)
    displaced := s.se.displaced.filter (fun d => d != c) } }
  (s.endJob c Code.stateLost).retryStreams

/-! ### Displacement (R436) -/

/-- The conditions of R436 under which the stream of context `c` is displaceable: 0 HALTED, 1 STARVED, 2 every live strand of
its running job waits on a counter. -/
def State.conditions (s : State) (c : Nat) (x : Ctx) : List Nat :=
  (if x.halted then [0] else []) ++ (if (Map.find s.km.recs c).any (fun r => r.flush == 2) then [1] else []) ++
  (match x.running with
    | none => []
    | some j =>
      if !j.strands.isEmpty && j.strands.all (fun t => match t.wait with | some (.counter _ _ _) => true | _ => false) then [2]
      else [])

/-- DX observes the conditions of context `c`: it records when each of them first held (R436), and a stream that becomes
displaceable may make room for one that waits. -/
def State.observe (s : State) (c : Nat) : State :=
  match s.ctx c with
  | none => s
  | some x =>
    let now := s.conditions c x
    let kept := x.displaceable.filter (fun p => now.contains p.1)
    let fresh := now.filter (fun k => !(kept.any (fun p => p.1 == k)))
    if fresh.isEmpty then s.setCtx c { x with displaceable := kept }
    else
      let (n, s) := s.stamp
      (s.setCtx c { x with displaceable := fresh.foldl (fun m k => Map.put m k n) kept }).retryStreams

/-! ### A strand goes on -/

/-- Strand `sid` of `c` goes on at a word of a tape, waiting on nothing. -/
def State.proceed (s : State) (c : Nat) (t : Strand) (tape : Nat) (pc : Int) : State :=
  ((s.updStrand c t.sid (fun t => { t with wait := none })).goto c t.sid t tape pc).observe c

/-- The strand goes to the word after the one it stands on. -/
def State.pass (s : State) (c : Nat) (t : Strand) : State := s.proceed c t t.tape (t.pc + 1)

end Sys2Proof.Machine
end

