-- ==== Sys2Proof/Machine/Operands.lean ====
section
/-!
DEFINITION. Every operand form of the tapes: the command header (R151), the single-word classes (R156), and the
operand words of the matrix (R182), attention (R211), state (R289) and window and edge tapes (R318). Addresses
are given in bytes.
-/
namespace Sys2Proof.Machine

/-! ### Headers -/

/-- Bits [63:59]: the class of R149. -/
def hClass (h : Nat) : Nat := bits h 63 59

/-- The header of a COMPUTE command (R151). -/
structure Hdr where
  preempt : Bool
  nearest : Bool
  op : Nat
  key : Nat
  t0 : Nat
  bound : Nat
  words : Nat
  rep : Nat
  deriving DecidableEq, Repr

/-- The fields of a COMPUTE header. -/
def Hdr.of (h : Nat) : Hdr :=
  ⟨bit h 58, bit h 57, bits h 55 48, bits h 47 32, bits h 31 26, bits h 25 16, bits h 15 12, bits h 11 0⟩

/-- The drill key k of pass `r` (R77, R152). -/
def Hdr.drillKey (h : Hdr) (r : Nat) : Nat := h.key * 4096 + r % 4096

/-- The signed word offset of JUMP (R156). -/
def jumpOffset (h : Nat) : Int := signed 32 (bits h 31 0)

/-! ### Matrix words (R182) -/

/-- Word X. -/
structure MatX where
  addr : Nat
  fmt : Nat
  batch : Nat
  k : Nat
  pitch : Nat
  stride : Nat
  deriving DecidableEq, Repr

/-- The fields of X. -/
def MatX.of (w : Nat) : MatX :=
  ⟨bits w 63 42 * 64, bits w 41 40, bits w 39 34 + 1, (bits w 33 22 + 1) * 32, bits w 21 11 * 64, bits w 10 0 * 64⟩

/-- Word S; `waddr` and `saddr` are furrow offsets when `src` is 1. -/
structure MatS where
  src : Nat
  wfmt : Nat
  waddr : Nat
  saddr : Nat
  sa : Nat
  sb : Nat
  deriving DecidableEq, Repr

/-- The fields of S. -/
def MatS.of (w : Nat) : MatS :=
  ⟨bits w 63 62, bits w 61 59, bits w 58 37 * 64, bits w 36 15 * 64, bits w 14 12, bits w 10 8⟩

/-- Word Y. -/
structure MatY where
  addr : Nat
  ofmt : Nat
  n : Nat
  group : Nat
  pitch : Nat
  stride : Nat
  deriving DecidableEq, Repr

/-- The fields of Y. -/
def MatY.of (w : Nat) : MatY :=
  ⟨bits w 63 42 * 64, bits w 41 40, bits w 39 28 + 1, bits w 27 23 + 1, bits w 22 11 * 64, bits w 10 0 * 64⟩

/-- Word A of SUMQ. -/
structure MatA where
  addr : Nat
  parts : Nat
  batch : Nat
  pstride : Nat
  deriving DecidableEq, Repr

/-- The fields of A. -/
def MatA.of (w : Nat) : MatA := ⟨bits w 63 42 * 64, bits w 41 40 + 2, bits w 39 34 + 1, bits w 33 12 * 64⟩

/-- Word G of UPDATE. -/
structure MatG where
  addr : Nat
  k : Nat
  pitch : Nat
  deriving DecidableEq, Repr

/-- The fields of G. -/
def MatG.of (w : Nat) : MatG := ⟨bits w 63 42 * 64, (bits w 33 22 + 1) * 32, bits w 21 0 * 64⟩

/-- Word D of DIGEST. -/
structure MatD where
  addr : Nat
  len : Nat
  group : Nat
  deriving DecidableEq, Repr

/-- The fields of D. -/
def MatD.of (w : Nat) : MatD := ⟨bits w 63 42 * 64, bits w 41 20 * 64, bits w 19 17⟩

/-! ### Attention words (R211) -/

/-- Word Q. -/
structure AttQ where
  addr : Nat
  fmt : Nat
  q : Nat
  g : Nat
  d : Nat
  pitch : Nat
  deriving DecidableEq, Repr

/-- The fields of Q. -/
def AttQ.of (w : Nat) : AttQ :=
  ⟨bits w 63 42 * 64, bits w 41 40, bits w 39 34 + 1, bits w 33 28 + 1, 32 * 2 ^ bits w 27 26, bits w 25 14 * 64⟩

/-- Word C. -/
structure AttC where
  layer : Nat
  fmt : Nat
  start : Nat
  own : Nat
  nOwn : Nat
  deriving DecidableEq, Repr

/-- The fields of C. -/
def AttC.of (w : Nat) : AttC :=
  ⟨bits w 63 58, bits w 57 56, bits w 55 40, bits w 39 18 * 64, bits w 17 10⟩

/-- Word U. -/
structure AttU where
  src : Nat
  wfmt : Nat
  waddr : Nat
  saddr : Nat
  deriving DecidableEq, Repr

/-- The fields of U. -/
def AttU.of (w : Nat) : AttU := ⟨bits w 63 62, bits w 61 59, bits w 58 37 * 64, bits w 36 15 * 64⟩

/-- Word K. -/
structure AttK where
  maddr : Nat
  mode : Nat
  mpitch : Nat
  spill : Nat
  deriving DecidableEq, Repr

/-- The fields of K. -/
def AttK.of (w : Nat) : AttK := ⟨bits w 63 42 * 64, bits w 41 40, bits w 39 28 * 64, bits w 27 6 * 64⟩

/-- Word Y of ATTEND, and of the state tapes. -/
structure RowY where
  addr : Nat
  ofmt : Nat
  pitch : Nat
  deriving DecidableEq, Repr

/-- The fields of that Y. -/
def RowY.of (w : Nat) : RowY := ⟨bits w 63 42 * 64, bits w 41 40, bits w 39 28 * 64⟩

/-- Word L of APPEND. -/
structure AttL where
  addr : Nat
  layer : Nat
  n : Nat
  deriving DecidableEq, Repr

/-- The fields of that L. -/
def AttL.of (w : Nat) : AttL := ⟨bits w 63 42 * 64, bits w 41 36, bits w 35 30 + 1⟩

/-! ### State words (R289, R290) -/

/-- Word X. -/
structure StX where
  addr : Nat
  fmt : Nat
  t : Nat
  k : Nat
  pitch : Nat
  deriving DecidableEq, Repr

/-- The fields of that X. -/
def StX.of (w : Nat) : StX :=
  ⟨bits w 63 42 * 64, bits w 41 40, bits w 39 32 + 1, (bits w 31 25 + 1) * 32, bits w 24 13 * 64⟩

/-- Word L of SCAN. -/
structure StL where
  table : Nat
  layers : Nat
  mark : Nat
  mk_ : Bool
  renorm : Nat
  deriving DecidableEq, Repr

/-- The fields of that L. -/
def StL.of (w : Nat) : StL := ⟨bits w 63 42 * 64, bits w 41 39 + 1, bits w 38 17 * 64, bit w 16, bits w 15 0⟩

/-- Word H of HOLD; `taps` is k. -/
structure StH where
  boff : Nat
  taps : Nat
  mark : Nat
  mk_ : Bool
  deriving DecidableEq, Repr

/-- The fields of H. -/
def StH.of (w : Nat) : StH := ⟨bits w 63 55, bits w 54 52 + 1, bits w 51 30 * 64, bit w 29⟩

/-- A layer-table entry (R290), with the value of its reserved bytes and flag bits. -/
structure Layer where
  n : Nat
  flags : Nat
  wfmt : Nat
  waddr : Nat
  lam : Nat
  boff : Nat
  opitch : Nat
  out : Nat
  reserved : Nat
  deriving DecidableEq, Repr

/-- The entry in 32 bytes. -/
def Layer.of (b : List Byte) : Layer :=
  ⟨fld b 0 2, fld b 2 1, fld b 3 1, fld b 4 4 * 64, fld b 8 4 * 64, fld b 12 2, fld b 14 2 * 64, fld b 16 4 * 64, fld b 20 12⟩

/-- FLAGS bit 0. -/
def Layer.gated (l : Layer) : Bool := bit l.flags 0

/-- FLAGS bit 1. -/
def Layer.coupled (l : Layer) : Bool := bit l.flags 1

/-- FLAGS bit 2. -/
def Layer.outs (l : Layer) : Bool := bit l.flags 2

/-! ### Window and edge words (R318) -/

/-- Word X. -/
structure WinX where
  addr : Nat
  fmt : Nat
  h : Nat
  w : Nat
  pitch : Nat
  pad : Nat
  deriving DecidableEq, Repr

/-- The fields of that X. -/
def WinX.of (w : Nat) : WinX :=
  ⟨bits w 63 42 * 64, bits w 41 40, bits w 39 28 + 1, bits w 27 16 + 1, bits w 15 4 * 64, bits w 3 0⟩

/-- Word F. -/
structure WinF where
  c : Nat
  n : Nat
  kh : Nat
  kw : Nat
  sh : Nat
  sw : Nat
  dh : Nat
  dw : Nat
  pt : Nat
  pb : Nat
  pl : Nat
  pr : Nat
  aux : Nat
  deriving DecidableEq, Repr

/-- The fields of F. -/
def WinF.of (w : Nat) : WinF :=
  ⟨bits w 63 52 + 1, bits w 51 40 + 1, bits w 39 36 + 1, bits w 35 32 + 1, bits w 31 29 + 1, bits w 28 26 + 1,
   bits w 25 23 + 1, bits w 22 20 + 1, bits w 19 16, bits w 15 12, bits w 11 8, bits w 7 4, bits w 3 0⟩

/-- Word S; `g` is the number of convolution groups. -/
structure WinS where
  src : Nat
  wfmt : Nat
  waddr : Nat
  saddr : Nat
  g : Nat
  deriving DecidableEq, Repr

/-- The fields of that S. -/
def WinS.of (w : Nat) : WinS := ⟨bits w 63 62, bits w 61 59, bits w 58 37 * 64, bits w 36 15 * 64, bits w 14 3 + 1⟩

/-- Word Y. -/
structure WinY where
  addr : Nat
  ofmt : Nat
  pitch : Nat
  group : Nat
  deriving DecidableEq, Repr

/-- The fields of that Y. -/
def WinY.of (w : Nat) : WinY := ⟨bits w 63 42 * 64, bits w 41 40, bits w 39 28 * 64, bits w 27 23 + 1⟩

/-- Word HX. -/
structure WinH where
  oy0 : Nat
  oh : Nat
  own0 : Nat
  own1 : Nat
  exch : Bool
  deriving DecidableEq, Repr

/-- The fields of HX. -/
def WinH.of (w : Nat) : WinH := ⟨bits w 63 52, bits w 51 40 + 1, bits w 39 28, bits w 27 16, bit w 15⟩

/-- Word CN. -/
structure WinC where
  rdy : Nat
  low : Nat
  high : Nat
  devlo : Nat
  devhi : Nat
  nlo : Nat
  nhi : Nat
  deriving DecidableEq, Repr

/-- The fields of CN. -/
def WinC.of (w : Nat) : WinC :=
  ⟨bits w 63 55, bits w 54 46, bits w 45 37, bits w 36 27, bits w 26 17, bits w 16 12, bits w 11 7⟩

/-- A window or edge command: its words, the stripe and counters where it carries them, and its map word. -/
structure WinCmd where
  x : WinX
  f : WinF
  s : WinS
  y : WinY
  hx : Option WinH
  cn : Option WinC
  map : Option Nat
  edge : Bool
  pool : Bool
  deriving DecidableEq, Repr

/-- Operand word `i` of a group. -/
def opWord (ws : List Nat) (i : Nat) : Nat := (ws[i]?).getD 0

/-- The window or edge command of header fields `h` and its operand words (R317). -/
def WinCmd.of (h : Hdr) (ws : List Nat) : WinCmd :=
  let n := h.words
  ⟨WinX.of (opWord ws 0), WinF.of (opWord ws 1), WinS.of (opWord ws 2), WinY.of (opWord ws 3),
   if 6 ≤ n then some (WinH.of (opWord ws 4)) else none,
   if 6 ≤ n then some (WinC.of (opWord ws 5)) else none,
   if n = 5 then some (opWord ws 4) else if n = 7 then some (opWord ws 6) else none,
   h.op == 0x48, h.op == 0x41⟩

/-- R320: the output height, 0 where the rule gives less than 1. -/
def WinCmd.oht (w : WinCmd) : Nat :=
  let span := (w.f.kh - 1) * w.f.dh + 1
  if w.x.h + w.f.pt + w.f.pb < span then 0 else (w.x.h + w.f.pt + w.f.pb - span) / w.f.sh + 1

/-- R320: the output width, 0 where the rule gives less than 1. -/
def WinCmd.owt (w : WinCmd) : Nat :=
  let span := (w.f.kw - 1) * w.f.dw + 1
  if w.x.w + w.f.pl + w.f.pr < span then 0 else (w.x.w + w.f.pl + w.f.pr - span) / w.f.sw + 1

/-- The requantise format of the outputs: on EE code 3 is S16. -/
def WinCmd.outFmt (w : WinCmd) : Nat := if w.y.ofmt = 3 then 4 else w.y.ofmt

/-- Input channels per convolution group. -/
def WinCmd.cg (w : WinCmd) : Nat := w.f.c / w.s.g

/-- Output channels per convolution group. -/
def WinCmd.ng (w : WinCmd) : Nat := w.f.n / w.s.g

/-- Elements of a weight row (R326). -/
def WinCmd.rowLen (w : WinCmd) : Nat := w.f.kh * w.f.kw * w.cg

/-- Bytes of a weight row, rounded up to blocks (R185): E8 on EE, 4-bit elsewhere. -/
def WinCmd.rowBytes (w : WinCmd) : Nat := ceilDiv (if w.edge then w.rowLen else ceilDiv w.rowLen 2) 64 * 64

/-- Bytes of `n` input elements. -/
def WinCmd.inBytes (w : WinCmd) (n : Nat) : Nat :=
  if w.edge then (if w.x.fmt = 2 then 2 * n else ceilDiv n 2 * 3) else ceilDiv n 2

/-- Bytes of `n` output elements. -/
def WinCmd.outBytes (w : WinCmd) (n : Nat) : Nat := if w.outFmt = 4 then 2 * n else ceilDiv n 2

/-- The first output row the command computes, and how many (R328). -/
def WinCmd.rows (w : WinCmd) : Nat × Nat :=
  match w.hx with
  | none => (0, w.oht)
  | some h => (h.oy0, h.oh)

/-- The channel counts of consecutive groups of at most `g` of `n` channels (R185). -/
def groupCounts (n g : Nat) : List Nat :=
  (List.range (ceilDiv n g)).map (fun j => min g (n - j * g))

end Sys2Proof.Machine
end

