-- ==== Sys2Proof/Machine/Tape.lean ====
section
/-!
DEFINITION. Decoding of tape commands (R149, R151, R156, R158, R181, R210, R288, R317) and the load checks of one
command (R143, R189, R228, R231, R335), with the commons ranges a command names.
-/
namespace Sys2Proof.Machine

/-! ### Decoding -/

/-- Bits `[hi:lo]` of a word are zero. -/
def zeroBits (w hi lo : Nat) : Bool := bits w hi lo == 0

/-- A single-word command decodes (R149, R156, R158). A counter index beyond its table does not (log 30). -/
def singleOk (h : Nat) : Bool :=
  let index (shared : Bool) := decide (bits h 43 32 ≤ (if shared then 511 else 7))
  match hClass h with
  | 0x00 => zeroBits h 58 0
  | 0x02 => zeroBits h 58 0
  | 0x03 => zeroBits h 58 0
  | 0x04 => zeroBits h 58 0
  | 0x05 => zeroBits h 58 32
  | 0x06 => zeroBits h 58 32
  | 0x07 => zeroBits h 55 48 && (if bit h 58 then bits h 47 32 != 0 else zeroBits h 47 32)
  | 0x08 => zeroBits h 57 44 && index (bit h 58)
  | 0x09 => index (bit h 58) && bits h 56 55 != 3 && bit h 58 == bit h 57 && (!bit h 54 || bit h 58)
  | 0x0A => (bits h 58 57 == 1 || bits h 58 57 == 2) && zeroBits h 56 0
  | 0x0B => zeroBits h 58 3
  | 0x0C => zeroBits h 58 4 && decide (bits h 3 0 ≤ 13)
  | 0x0D => zeroBits h 58 32
  | 0x0E => zeroBits h 58 5 && decide (4 ≤ bits h 4 0)
  | _ => false

/-- The operand words of an operator without M, whether M may follow, and its P column: 0 no, 1 yes, 2 required. -/
def opForm (kind op : Nat) : Option (Nat × Bool × Nat) :=
  match kind, op with
  | 0, 0x10 => some (4, true, 1)
  | 0, 0x11 => some (4, true, 1)
  | 0, 0x12 => some (3, true, 1)
  | 0, 0x13 => some (3, true, 1)
  | 0, 0x14 => some (4, true, 1)
  | 0, 0x18 => some (3, false, 1)
  | 0, 0x19 => some (4, false, 1)
  | 0, 0x1C => some (1, false, 2)
  | 1, 0x20 => some (6, false, 1)
  | 1, 0x21 => some (1, false, 0)
  | 2, 0x30 => some (4, true, 0)
  | 2, 0x31 => some (3, false, 0)
  | 3, 0x40 => some (4, true, 1)
  | 3, 0x41 => some (4, true, 1)
  | 4, 0x48 => some (4, true, 1)
  | _, _ => none

/-- The operator's WORDS is one the tables allow; on window tapes HX and CN add two (R317). -/
def wordsOk (kind words base : Nat) (m : Bool) : Bool :=
  words == base || (m && words == base + 1) || (kind == 3 && (words == base + 2 || words == base + 3))

/-- The reserved and required-zero bits of a matrix command's words (R182). -/
def matZeros (op : Nat) (w : List Nat) : Bool :=
  let s (i : Nat) : Bool := !bit (opWord w i) 11 && zeroBits (opWord w i) 7 0
  let sPlain (i : Nat) : Bool := s i && (op == 0x11 || (zeroBits (opWord w i) 14 12 && zeroBits (opWord w i) 10 8)) &&
    (op == 0x12 || (zeroBits (opWord w i) 63 62 && zeroBits (opWord w i) 61 37))
  match op with
  | 0x10 => sPlain 2
  | 0x11 => sPlain 2
  | 0x12 => sPlain 1
  | 0x13 => sPlain 1 && bits (opWord w 0) 41 40 != 3 && zeroBits (opWord w 0) 11 0
  | 0x14 => sPlain 1 && zeroBits (opWord w 3) 63 32
  | 0x18 => true
  | 0x19 => sPlain 2 && zeroBits (opWord w 1) 41 34
  | _ => zeroBits (opWord w 0) 16 0

/-- The reserved bits and undecodable formats of an attention command's words (R211). -/
def attZeros (op : Nat) (w : List Nat) : Bool :=
  if op = 0x20 then
    zeroBits (opWord w 0) 13 0 && bits (opWord w 0) 41 40 != 3 && zeroBits (opWord w 1) 9 0 &&
    bits (opWord w 1) 57 56 != 3 && zeroBits (opWord w 2) 14 0 && bits (opWord w 2) 61 59 != 3 &&
    zeroBits (opWord w 3) 5 0 && zeroBits (opWord w 4) 27 0 && bits (opWord w 4) 41 40 != 3 &&
    zeroBits (opWord w 5) 63 32
  else zeroBits (opWord w 0) 29 0

/-- The reserved bits and undecodable formats of a state command's words (R289). -/
def stZeros (op : Nat) (w : List Nat) : Bool :=
  zeroBits (opWord w 0) 12 0 && bits (opWord w 0) 41 40 != 3 &&
  (if op = 0x30 then
    zeroBits (opWord w 2) 41 0 && zeroBits (opWord w 3) 27 0 && bits (opWord w 3) 41 40 != 3
   else zeroBits (opWord w 1) 28 0 && bits (opWord w 1) 54 52 != 0 && zeroBits (opWord w 2) 27 0 &&
    bits (opWord w 2) 41 40 == 0)

/-- The reserved bits and undecodable forms of a window or edge command's words (R318). -/
def winZeros (h : Hdr) (w : List Nat) : Bool :=
  let c := WinCmd.of h w
  bits (opWord w 0) 41 40 != 3 && (!c.edge || c.x.pad == 0) && zeroBits (opWord w 2) 2 0 &&
  zeroBits (opWord w 3) 22 0 && (c.edge || c.y.ofmt != 3) &&
  (if c.edge then decide (c.f.aux ≤ 4) && (c.x.fmt == 2 || c.f.aux == 0)
   else if c.pool then decide (c.f.aux ≤ 1) else c.f.aux == 0) &&
  (if c.edge || c.pool then c.s.g == 1 else true) && !(c.y.ofmt == 3 && c.map.isSome) &&
  (if c.hx.isSome then zeroBits (opWord w 4) 14 0 && zeroBits (opWord w 5) 6 0 else true)

/-- R143: the command of a tape of `kind` whose header is `h` and operand words `ops` decodes. -/
def decodes (kind h : Nat) (ops : List Nat) : Bool :=
  if hClass h ≠ 1 then singleOk h
  else
    let c := Hdr.of h
    match opForm kind c.op with
    | none => false
    | some (base, m, p) =>
      !bit h 56 && wordsOk kind c.words base m && ops.length == c.words &&
      (if p = 0 then !c.preempt else if p = 2 then c.preempt else true) &&
      (kind == 0 || c.rep == 0) &&
      (if kind = 0 then matZeros c.op ops
       else if kind = 1 then attZeros c.op ops && (c.op != 0x21 || decide (c.bound ≤ 2))
       else if kind = 2 then stZeros c.op ops
       else winZeros c ops)

/-- The groups of a tape: offset, header, operand words; none where a group runs past the last word. -/
def groupsOf (at_ : Nat) (ws : List Nat) : Nat → Option (List (Nat × Nat × List Nat))
  | 0 => if ws.isEmpty then some [] else none
  | fuel + 1 =>
    match ws with
    | [] => some []
    | h :: rest =>
      let n := if hClass h = 1 then bits h 15 12 else 0
      if rest.length < n then none
      else (groupsOf (at_ + 1 + n) (rest.drop n) fuel).map (fun l => (at_, h, rest.take n) :: l)

/-! ### The bytes a command names -/

/-- The bytes from the first to the last row of a tensor over its passes. -/
def spanLen (passes stride rows pitch row : Nat) : Nat := (passes - 1) * stride + (rows - 1) * pitch + row

/-- Bytes of a row of `n` outputs: 4-bit, or accumulators for format code 3. -/
def matRow (fmt n : Nat) : Nat := if fmt = 3 then 4 * n else ceilDiv n 2

/-- Bytes of the scale blocks of `n` channels in groups of `g` (R83). -/
def scaleBytes (n g : Nat) : Nat := ((groupCounts n g).map scaleBlockBytes).sum

/-- Bytes of the data groups of `n` channels in groups of `g` with rows of `row` bytes (R185). -/
def dataBytes (n g row : Nat) : Nat := ((groupCounts n g).map (fun c => 64 + c * row)).sum

/-- The commons ranges of a matrix command: first byte and length. -/
def matRanges (c : Hdr) (w : List Nat) : List (Nat × Nat) :=
  let r := c.rep + 1
  let x (i : Nat) : Nat × Nat :=
    let v := MatX.of (opWord w i)
    (v.addr, spanLen r v.stride v.batch v.pitch (ceilDiv v.k 2))
  let s (i n g : Nat) : Nat × Nat := ((MatS.of (opWord w i)).saddr, r * scaleBytes n g)
  let y (i batch : Nat) : Nat × Nat :=
    let v := MatY.of (opWord w i)
    (v.addr, spanLen r v.stride batch v.pitch (matRow v.ofmt v.n))
  let yn (i : Nat) := MatY.of (opWord w i)
  match c.op with
  | 0x12 =>
    let v := MatX.of (opWord w 0)
    let sv := MatS.of (opWord w 1)
    [x 0, y 2 v.batch] ++
    (if sv.src = 0 then
      [(sv.waddr, r * dataBytes (yn 2).n (yn 2).group (rowBytes sv.wfmt v.k))] ++
      (if (yn 2).ofmt = 3 then [] else [s 1 (yn 2).n (yn 2).group])
     else [])
  | 0x13 =>
    let a := MatA.of (opWord w 0)
    [(a.addr, (a.parts - 1) * a.pstride + (a.batch - 1) * (yn 2).pitch + 4 * (yn 2).n), y 2 a.batch,
      s 1 (yn 2).n (yn 2).group]
  | 0x14 => [x 0, y 2 (MatX.of (opWord w 0)).batch, s 1 (yn 2).n (yn 2).group]
  | 0x18 =>
    let v := yn 2
    [x 0, x 1, (v.addr, spanLen r v.stride v.n v.pitch (4 * (MatX.of (opWord w 0)).k))]
  | 0x19 =>
    let g := MatG.of (opWord w 1)
    let t (i : Nat) : Nat × Nat := ((yn i).addr, spanLen r (yn i).stride (yn i).n (yn i).pitch (ceilDiv g.k 2))
    [t 0, t 3, (g.addr, (( yn 0).n - 1) * g.pitch + 4 * g.k), s 2 (yn 0).n (yn 0).group]
  | 0x1C => [((MatD.of (opWord w 0)).addr, (MatD.of (opWord w 0)).len)]
  | _ => [x 0, x 1, y 3 (MatX.of (opWord w 0)).batch, s 2 (yn 3).n (yn 3).group]

/-- R221: the bytes of one head's weight stream. -/
def headWeightBytes (wfmt d : Nat) : Nat :=
  16 * (64 + 32 * rowBytes wfmt d) + d / 32 * (64 + 32 * rowBytes wfmt 512)

/-- The commons ranges of an attention command. -/
def attRanges (c : Hdr) (w : List Nat) : List (Nat × Nat) :=
  if c.op = 0x21 then
    let l := AttL.of (opWord w 0)
    [(l.addr, 256 * l.n)]
  else
    let q := AttQ.of (opWord w 0)
    let o := AttC.of (opWord w 1)
    let u := AttU.of (opWord w 2)
    let k := AttK.of (opWord w 3)
    let y := RowY.of (opWord w 4)
    [(q.addr, (q.q - 1) * q.pitch + ceilDiv (q.g * q.d) 2), (y.addr, (q.q - 1) * y.pitch + ceilDiv (q.g * q.d) 2)] ++
    (if o.nOwn = 0 then [] else [(o.own, 256 * o.nOwn)]) ++
    (if bit k.mode 1 then [(k.maddr, q.q * k.mpitch)] else []) ++
    (if c.preempt then [(k.spill, 163840)] else []) ++
    (if u.src = 0 then [(u.waddr, q.g * headWeightBytes u.wfmt q.d), (u.saddr, q.g * (32 + q.d / 32) * 320)] else [])

/-- The commons ranges that a state command's own words name. What its layer table names is checked when the
command starts (R291). -/
def stRanges (c : Hdr) (w : List Nat) : List (Nat × Nat) :=
  let x := StX.of (opWord w 0)
  let xr := (x.addr, (x.t - 1) * x.pitch + ceilDiv x.k 2)
  if c.op = 0x31 then
    let h := StH.of (opWord w 1)
    let y := RowY.of (opWord w 2)
    [xr, (y.addr, (x.t - 1) * y.pitch + ceilDiv (h.taps * x.k) 2)] ++ (if h.mk_ then [(h.mark, 32)] else [])
  else
    let l := StL.of (opWord w 1)
    [xr, (l.table, 32 * l.layers), (bits (opWord w 2) 63 42 * 64, 1), ((RowY.of (opWord w 3)).addr, 1)] ++
    (if l.mk_ then [(l.mark, 32)] else [])

/-- The commons ranges of a window or edge command. -/
def winRanges (c : Hdr) (w : List Nat) : List (Nat × Nat) :=
  let v := WinCmd.of c w
  let map (addr rows pitch row : Nat) : List (Nat × Nat) := if rows = 0 then [] else [(addr, (rows - 1) * pitch + row)]
  map v.x.addr v.x.h v.x.pitch (v.inBytes (v.x.w * v.f.c)) ++
  (if v.owt = 0 then [] else map v.y.addr v.oht v.y.pitch (v.outBytes (v.owt * v.f.n))) ++
  [(v.s.saddr, scaleBytes v.f.n v.y.group)] ++
  (if v.pool then [] else [(v.s.waddr, dataBytes v.f.n v.y.group v.rowBytes)])

/-- The commons ranges of a command of a tape of `kind`. -/
def cmdRanges (kind : Nat) (c : Hdr) (w : List Nat) : List (Nat × Nat) :=
  if kind = 0 then matRanges c w
  else if kind = 1 then attRanges c w
  else if kind = 2 then stRanges c w
  else winRanges c w

/-! ### The bytes a command reads and writes, row by row -/

/-- The rows of a tensor over its passes: first byte and length. -/
def rowsAt (addr passes stride rows pitch len : Nat) : List (Nat × Nat) :=
  (List.range passes).flatMap (fun r => (List.range rows).map (fun i => (addr + r * stride + i * pitch, len)))

/-- The rows of an X tensor. -/
def MatX.rows (v : MatX) (passes : Nat) : List (Nat × Nat) := rowsAt v.addr passes v.stride v.batch v.pitch (ceilDiv v.k 2)

/-- The rows of a Y tensor of `batch` rows. -/
def MatY.rows (v : MatY) (passes batch : Nat) : List (Nat × Nat) :=
  rowsAt v.addr passes v.stride batch v.pitch (matRow v.ofmt v.n)

/-- The commons bytes that a matrix command reads; a furrow stream is none of them. -/
def matReads (c : Hdr) (w : List Nat) : List (Nat × Nat) :=
  let r := c.rep + 1
  let x (i : Nat) : List (Nat × Nat) := (MatX.of (opWord w i)).rows r
  let y (i : Nat) := MatY.of (opWord w i)
  let s (i j : Nat) : List (Nat × Nat) := [((MatS.of (opWord w i)).saddr, r * scaleBytes (y j).n (y j).group)]
  match c.op with
  | 0x12 =>
    let v := MatX.of (opWord w 0)
    let sv := MatS.of (opWord w 1)
    x 0 ++ (if sv.src = 1 then [] else
      (sv.waddr, r * dataBytes (y 2).n (y 2).group (rowBytes sv.wfmt v.k)) :: (if (y 2).ofmt = 3 then [] else s 1 2))
  | 0x13 =>
    let a := MatA.of (opWord w 0)
    rowsAt a.addr a.parts a.pstride a.batch (y 2).pitch (4 * (y 2).n) ++ s 1 2
  | 0x14 => x 0 ++ s 1 2
  | 0x18 => x 0 ++ x 1
  | 0x19 =>
    let g := MatG.of (opWord w 1)
    rowsAt (y 0).addr r (y 0).stride (y 0).n (y 0).pitch (ceilDiv g.k 2) ++
      rowsAt g.addr 1 0 (y 0).n g.pitch (4 * g.k) ++ s 2 3
  | 0x1C => [((MatD.of (opWord w 0)).addr, (MatD.of (opWord w 0)).len)]
  | _ => x 0 ++ x 1 ++ s 2 3

/-- The commons bytes that a matrix command writes. -/
def matWrites (c : Hdr) (w : List Nat) : List (Nat × Nat) :=
  let r := c.rep + 1
  let y (i batch : Nat) : List (Nat × Nat) := (MatY.of (opWord w i)).rows r batch
  match c.op with
  | 0x12 => y 2 (MatX.of (opWord w 0)).batch
  | 0x13 => y 2 (MatA.of (opWord w 0)).batch
  | 0x14 => y 2 (MatX.of (opWord w 0)).batch
  | 0x18 =>
    let v := MatY.of (opWord w 2)
    rowsAt v.addr r v.stride v.n v.pitch (4 * (MatX.of (opWord w 0)).k)
  | 0x19 =>
    let v := MatY.of (opWord w 3)
    rowsAt v.addr r v.stride v.n v.pitch (ceilDiv (MatG.of (opWord w 1)).k 2)
  | 0x1C => []
  | _ => y 3 (MatX.of (opWord w 0)).batch

/-- The commons bytes that an attention command reads when it starts; what the walker supplies and a furrow stream are none
of them. -/
def attReads (c : Hdr) (w : List Nat) : List (Nat × Nat) :=
  if c.op = 0x21 then
    let l := AttL.of (opWord w 0)
    [(l.addr, 256 * l.n)]
  else
    let q := AttQ.of (opWord w 0)
    let o := AttC.of (opWord w 1)
    let u := AttU.of (opWord w 2)
    let k := AttK.of (opWord w 3)
    rowsAt q.addr 1 0 q.q q.pitch (ceilDiv (q.g * q.d) 2) ++ (if o.nOwn = 0 then [] else [(o.own, 256 * o.nOwn)]) ++
    (if bit k.mode 1 then [(k.maddr, q.q * k.mpitch)] else []) ++
    (if u.src = 1 then [] else [(u.waddr, q.g * headWeightBytes u.wfmt q.d), (u.saddr, q.g * (32 + q.d / 32) * 320)])

/-- The commons bytes that an attention command writes: its outputs, and with P set its spill area (R230). -/
def attWrites (c : Hdr) (w : List Nat) : List (Nat × Nat) :=
  if c.op = 0x21 then []
  else
    let q := AttQ.of (opWord w 0)
    let y := RowY.of (opWord w 4)
    rowsAt y.addr 1 0 q.q y.pitch (ceilDiv (q.g * q.d) 2) ++
      (if c.preempt then [((AttK.of (opWord w 3)).spill, 163840)] else [])

/-- The commons bytes that a HOLD reads by its own words. -/
def holdReads (w : List Nat) : List (Nat × Nat) :=
  let x := StX.of (opWord w 0)
  let h := StH.of (opWord w 1)
  rowsAt x.addr 1 0 x.t x.pitch (ceilDiv x.k 2) ++ (if h.mk_ then [(h.mark, 32)] else [])

/-- The commons bytes that a HOLD writes. -/
def holdWrites (w : List Nat) : List (Nat × Nat) :=
  let x := StX.of (opWord w 0)
  let y := RowY.of (opWord w 2)
  rowsAt y.addr 1 0 x.t y.pitch (ceilDiv ((StH.of (opWord w 1)).taps * x.k) 2)

/-- The commons bytes that a window or edge command writes: its stripe's rows (R319, R328). -/
def winWrites (c : Hdr) (w : List Nat) : List (Nat × Nat) :=
  let v := WinCmd.of c w
  if v.owt = 0 then [] else rowsAt (v.y.addr + v.rows.1 * v.y.pitch) 1 0 v.rows.2 v.y.pitch (v.outBytes (v.owt * v.f.n))

/-- The commons bytes that a command of a tape of `kind` writes. SCAN's depend on its layer table. -/
def outRanges (kind : Nat) (c : Hdr) (w : List Nat) : List (Nat × Nat) :=
  if kind = 0 then matWrites c w
  else if kind = 1 then attWrites c w
  else if kind = 2 then (if c.op = 0x30 then [] else holdWrites w)
  else winWrites c w

/-! ### Load checks of one command -/

/-- An M word holds no 0b1000 (R189). -/
def mapF4Ok (m : Nat) : Bool := (List.range 16).all (fun c => m / 16 ^ c % 16 != 8)

/-- R189: the checks of a matrix command beyond its ranges. -/
def matOk (c : Hdr) (w : List Nat) : Bool :=
  let y (i : Nat) := MatY.of (opWord w i)
  let x (i : Nat) := MatX.of (opWord w i)
  let xOk (i : Nat) : Bool := (x i).fmt != 3
  let yFmt (i : Nat) : Bool := (y i).ofmt != 3 || c.op == 0x12 || c.op == 0x18
  let pass (i : Nat) : Bool := c.rep == 0 || (y i).stride == 0 ||
    (y i).n * (if (y i).ofmt = 3 then 32 else 4) % 512 == 0
  let mOk (base yi : Nat) : Bool := !(c.words == base + 1 && (y yi).ofmt == 2) || mapF4Ok (opWord w base)
  match c.op with
  | 0x12 => xOk 0 && yFmt 2 && pass 2 && mOk 3 2 && decide ((MatS.of (opWord w 1)).src ≤ 1) &&
      decide ((MatS.of (opWord w 1)).wfmt ≤ 4)
  | 0x13 => yFmt 2 && pass 2 && mOk 3 2
  | 0x14 =>
    let e := opWord w 3
    xOk 0 && yFmt 2 && pass 2 && mOk 4 2 && (y 2).n == (x 0).k &&
      !bit e 31 && bits e 30 0 != 0 && bits e 30 23 != 255
  | 0x18 => xOk 0 && xOk 1 && (y 2).ofmt == 3 && pass 2 && (x 0).batch == (x 1).batch && (y 2).n == (x 1).k
  | 0x19 =>
    let r := matRanges c w
    let a := (r[0]?).getD (0, 0)
    let b := (r[1]?).getD (0, 0)
    yFmt 0 && yFmt 3 && pass 0 && pass 3 && !(decide (a.1 < b.1 + b.2) && decide (b.1 < a.1 + a.2))
  | 0x1C => (MatD.of (opWord w 0)).len != 0
  | _ => xOk 0 && xOk 1 && yFmt 3 && pass 3 && mOk 4 3 && (x 0).batch == (x 1).batch && (x 0).k == (x 1).k &&
      (y 3).n == (x 0).k

/-- R228, R230, R231: the checks of an attention command beyond its ranges; `layers` is the frame's layer count. -/
def attOk (c : Hdr) (w : List Nat) (layers : Nat) (scratch : Region) : Bool :=
  if c.op = 0x21 then decide ((AttL.of (opWord w 0)).layer < layers)
  else
    let q := AttQ.of (opWord w 0)
    let o := AttC.of (opWord w 1)
    let u := AttU.of (opWord w 2)
    let k := AttK.of (opWord w 3)
    let e := opWord w 5
    decide (q.q * q.g ≤ 64) && !(bit k.mode 0 && decide (o.nOwn < q.q)) && decide (o.nOwn ≤ 64) &&
    decide (u.src ≤ 1) && decide (u.wfmt ≤ 2) && bits e 30 0 != 0 && bits e 30 23 != 255 &&
    decide (o.layer < layers) && (if c.preempt then scratch.holds k.spill 163840 else k.spill == 0)

/-- R335: the checks of a window or edge command beyond its ranges. An M entry 0b1000 under OFMT F4 is refused here as R189 refuses
it on matrix tapes; on state tapes, whose rules name no such check, it is not (log 73). -/
def winOk (c : Hdr) (w : List Nat) : Bool :=
  let v := WinCmd.of c w
  v.f.c % v.s.g == 0 && v.f.n % v.s.g == 0 && v.s.src == 0 &&
  (if v.pool then v.s.wfmt == 0 && v.s.waddr == 0 && v.f.c == v.f.n
   else if v.edge then v.s.wfmt == 5 else decide (v.s.wfmt ≤ 2)) &&
  (!v.edge || decide (v.rowLen ≤ (if v.x.fmt = 0 then 4097 else 8191))) &&
  decide (v.oht * v.owt * v.f.n ≤ 2 ^ 32) &&
  (match v.hx with
   | none => true
   | some h => decide (h.oy0 + h.oh ≤ v.oht) && decide (h.own0 ≤ h.own1) &&
      (match v.cn with
       | none => true
       | some n => decide (n.nlo ≤ h.oh) && decide (n.nhi ≤ h.oh) && (h.exch || (n.nlo == 0 && n.nhi == 0)))) &&
  (match v.map with
   | none => true
   | some m => v.y.ofmt != 2 || mapF4Ok m)

/-- The load checks of a COMPUTE command of `kind` (R143): `need` is the set of bank groups that every engine of
its kind reaches in every field that may run it. -/
def computeOk (kind : Nat) (h : Nat) (w : List Nat) (layers : Nat) (scratch : Region) (need : Nat) : Bool :=
  let c := Hdr.of h
  (if kind = 0 then matOk c w
   else if kind = 1 then attOk c w layers scratch
   else if kind = 2 then true
   else winOk c w) &&
  (cmdRanges kind c w).all (fun r => inGroups need r.1 r.2)

end Sys2Proof.Machine
end

