-- ==== Sys2Proof/Machine/Crypto.lean ====
section
/-!
DEFINITION. The standard functions the manual names, from their published definitions (log 31): CRC-32 (R641),
CRC-16 (R543), SHA-256, HSS and LMS verification of RFC 8554 (R113), SipHash-2-4 (R261), and AES-256 in GCM
(R579, R592) and XTS (R354).
-/
namespace Sys2Proof.Machine

/-! ### Cyclic redundancy checks -/

/-- `n` steps of the reflected CRC-32 register. -/
def crc32Bits (c : W32) : Nat → W32
  | 0 => c
  | n + 1 => crc32Bits (if c.getLsbD 0 then (c >>> 1) ^^^ 0xEDB88320 else c >>> 1) n

/-- CRC-32 of IEEE 802.3 over a list of bytes (R641). -/
def crc32 (bs : List Byte) : W32 :=
  (bs.foldl (fun c b => crc32Bits (c ^^^ b.setWidth 32) 8) 0xFFFFFFFF) ^^^ 0xFFFFFFFF

/-- `n` steps of the CRC-16 register of R543. -/
def crc16Bits (c : BitVec 16) : Nat → BitVec 16
  | 0 => c
  | n + 1 => crc16Bits (if c.msb then (c <<< 1) ^^^ 0x1021 else c <<< 1) n

/-- CRC-16 over a list of bytes (R543). -/
def crc16 (bs : List Byte) : BitVec 16 :=
  bs.foldl (fun c b => crc16Bits (c ^^^ BitVec.shiftLeft (b.setWidth 16) 8) 8) 0xFFFF

/-! ### SHA-256 (FIPS 180-4) -/

/-- The round constants. -/
def shaK : List W32 :=
  [0x428A2F98, 0x71374491, 0xB5C0FBCF, 0xE9B5DBA5, 0x3956C25B, 0x59F111F1, 0x923F82A4, 0xAB1C5ED5] ++
  [0xD807AA98, 0x12835B01, 0x243185BE, 0x550C7DC3, 0x72BE5D74, 0x80DEB1FE, 0x9BDC06A7, 0xC19BF174] ++
  [0xE49B69C1, 0xEFBE4786, 0x0FC19DC6, 0x240CA1CC, 0x2DE92C6F, 0x4A7484AA, 0x5CB0A9DC, 0x76F988DA] ++
  [0x983E5152, 0xA831C66D, 0xB00327C8, 0xBF597FC7, 0xC6E00BF3, 0xD5A79147, 0x06CA6351, 0x14292967] ++
  [0x27B70A85, 0x2E1B2138, 0x4D2C6DFC, 0x53380D13, 0x650A7354, 0x766A0ABB, 0x81C2C92E, 0x92722C85] ++
  [0xA2BFE8A1, 0xA81A664B, 0xC24B8B70, 0xC76C51A3, 0xD192E819, 0xD6990624, 0xF40E3585, 0x106AA070] ++
  [0x19A4C116, 0x1E376C08, 0x2748774C, 0x34B0BCB5, 0x391C0CB3, 0x4ED8AA4A, 0x5B9CCA4F, 0x682E6FF3] ++
  [0x748F82EE, 0x78A5636F, 0x84C87814, 0x8CC70208, 0x90BEFFFA, 0xA4506CEB, 0xBEF9A3F7, 0xC67178F2]

/-- The initial hash value. -/
def shaH : List W32 := [0x6A09E667, 0xBB67AE85, 0x3C6EF372, 0xA54FF53A, 0x510E527F, 0x9B05688C, 0x1F83D9AB, 0x5BE0CD19]

/-- Word `i` of a list. -/
def w32At (l : List W32) (i : Nat) : W32 := (l[i]?).getD 0

/-- The message schedule, newest word first, extended by `n` words. -/
def shaSchedule (w : List W32) : Nat → List W32
  | 0 => w
  | n + 1 =>
    let a := w32At w 14
    let b := w32At w 1
    let s0 := a.rotateRight 7 ^^^ a.rotateRight 18 ^^^ (a >>> 3)
    let s1 := b.rotateRight 17 ^^^ b.rotateRight 19 ^^^ (b >>> 10)
    shaSchedule ((w32At w 15 + s0 + w32At w 6 + s1) :: w) n

/-- One round on the eight working variables. -/
def shaRound (v : List W32) (kw : W32) : List W32 :=
  let a := w32At v 0
  let b := w32At v 1
  let c := w32At v 2
  let e := w32At v 4
  let t1 := w32At v 7 + (e.rotateRight 6 ^^^ e.rotateRight 11 ^^^ e.rotateRight 25) +
    ((e &&& w32At v 5) ^^^ (~~~e &&& w32At v 6)) + kw
  let t2 := (a.rotateRight 2 ^^^ a.rotateRight 13 ^^^ a.rotateRight 22) + ((a &&& b) ^^^ (a &&& c) ^^^ (b &&& c))
  [t1 + t2, a, b, c, w32At v 3 + t1, e, w32At v 5, w32At v 6]

/-- The compression of one 64-byte block. -/
def shaBlock (h : List W32) (block : List Byte) : List W32 :=
  let w := ((chunksOf 4 16 block).map (fun b => BitVec.ofNat 32 (beNat b))).reverse
  let ws := (shaSchedule w 48).reverse
  let v := (List.zipWith (· + ·) shaK ws).foldl shaRound h
  List.zipWith (· + ·) h v

/-- The padded message. -/
def shaPad (bs : List Byte) : List Byte :=
  bs ++ [0x80] ++ List.replicate ((119 - bs.length % 64) % 64) 0 ++ natBE 8 (8 * bs.length)

/-- SHA-256. -/
def sha256 (bs : List Byte) : List Byte :=
  let p := shaPad bs
  ((chunksOf 64 (p.length / 64) p).foldl shaBlock shaH).flatMap (fun w => natBE 4 w.toNat)

/-! ### LMS and HSS verification (RFC 8554; the types of R113) -/

/-- The height of an accepted LMS type. -/
def lmsHeight (t : Nat) : Option Nat :=
  if t = 5 then some 5 else if t = 6 then some 10 else if t = 7 then some 15 else if t = 8 then some 20 else none

/-- The Winternitz width w and the chain count p of an accepted LM-OTS type. -/
def otsParams (t : Nat) : Option (Nat × Nat) := if t = 3 then some (4, 67) else if t = 4 then some (8, 34) else none

/-- Digit `i` of width `w` of a byte string. -/
def otsDigit (w : Nat) (bs : List Byte) (i : Nat) : Nat :=
  if w = 8 then fld bs i 1 else fld bs (i / 2) 1 / 16 ^ (1 - i % 2) % 16

/-- A hash chain from step `j`, `n` steps. -/
def otsChain (pre : List Byte) (x : List Byte) (j : Nat) : Nat → List Byte
  | 0 => x
  | n + 1 => otsChain pre (sha256 (pre ++ [BitVec.ofNat 8 j] ++ x)) (j + 1) n

/-- The LM-OTS public key candidate for a message: identifier I, leaf q, signature parts C and y. -/
def otsCandidate (w p : Nat) (i : List Byte) (q : Nat) (c : List Byte) (y : List (List Byte)) (msg : List Byte) :
    List Byte :=
  let id := i ++ natBE 4 q
  let qh := sha256 (id ++ [0x81, 0x81] ++ c ++ msg)
  let sum := ((List.range (256 / w)).map (fun k => 2 ^ w - 1 - otsDigit w qh k)).sum
  let qa := qh ++ natBE 2 (sum * (if w = 4 then 16 else 1))
  let z := (List.range p).flatMap (fun k =>
    let a := otsDigit w qa k
    otsChain (id ++ natBE 2 k) ((y[k]?).getD []) a (2 ^ w - 1 - a))
  sha256 (id ++ [0x80, 0x80] ++ z)

/-- The root reached from a node along an authentication path. -/
def lmsRoot (i : List Byte) (node : Nat) (x : List Byte) : List (List Byte) → List Byte
  | [] => x
  | s :: path =>
    lmsRoot i (node / 2)
      (sha256 (i ++ natBE 4 (node / 2) ++ [0x83, 0x83] ++ (if node % 2 = 1 then s ++ x else x ++ s))) path

/-- The bytes of an LMS signature under a 56-byte LMS public key, where its types are accepted. -/
def lmsSigLen (pub : List Byte) : Option Nat :=
  match lmsHeight (beNat (slice pub 0 4)), otsParams (beNat (slice pub 4 4)) with
  | some h, some (_, p) => some (4 + 4 + 32 + 32 * p + 4 + 32 * h)
  | _, _ => none

/-- LMS verification of a signature of exactly the right length. -/
def lmsVerify (pub sig msg : List Byte) : Bool :=
  match lmsHeight (beNat (slice pub 0 4)), otsParams (beNat (slice pub 4 4)) with
  | some h, some (w, p) =>
    let i := slice pub 8 16
    let q := beNat (slice sig 0 4)
    let path := 4 + 4 + 32 + 32 * p
    decide (sig.length = path + 4 + 32 * h) && decide (q < 2 ^ h) &&
      slice sig 4 4 == slice pub 4 4 && slice sig path 4 == slice pub 0 4 &&
      lmsRoot i (2 ^ h + q)
        (sha256 (i ++ natBE 4 (2 ^ h + q) ++ [0x82, 0x82] ++
          otsCandidate w p i q (slice sig 8 32) (chunksOf 32 p (slice sig 40 (32 * p))) msg))
        (chunksOf 32 h (slice sig (path + 4) (32 * h))) == slice pub 24 32
  | _, _ => false

/-- HSS verification with a 60-byte public key of 1 or 2 levels (R113). -/
def hssVerify (pub sig msg : List Byte) : Bool :=
  let levels := beNat (slice pub 0 4)
  let top := slice pub 4 56
  if pub.length ≠ 60 ∨ beNat (slice sig 0 4) + 1 ≠ levels then false
  else if levels = 1 then lmsVerify top (sig.drop 4) msg
  else if levels = 2 then
    match lmsSigLen top with
    | none => false
    | some n =>
      let low := slice sig (4 + n) 56
      lmsVerify top (slice sig 4 n) low && lmsVerify low (sig.drop (60 + n)) msg
  else false

/-! ### SipHash-2-4 -/

/-- One SipRound. -/
def sipRound (v : W64 × W64 × W64 × W64) : W64 × W64 × W64 × W64 :=
  let (a, b, c, d) := v
  let a := a + b
  let b := b.rotateLeft 13 ^^^ a
  let a := a.rotateLeft 32
  let c := c + d
  let d := d.rotateLeft 16 ^^^ c
  let a := a + d
  let d := d.rotateLeft 21 ^^^ a
  let c := c + b
  let b := b.rotateLeft 17 ^^^ c
  (a, b, c.rotateLeft 32, d)

/-- One message word. -/
def sipWord (v : W64 × W64 × W64 × W64) (m : W64) : W64 × W64 × W64 × W64 :=
  let (a, b, c, d) := v
  let (a, b, c, d) := sipRound (sipRound (a, b, c, d ^^^ m))
  (a ^^^ m, b, c, d)

/-- SipHash-2-4 with 64-bit output (R261). -/
def sipHash (key msg : List Byte) : W64 :=
  let k0 := BitVec.ofNat 64 (fld key 0 8)
  let k1 := BitVec.ofNat 64 (fld key 8 8)
  let n := msg.length / 8
  let words := (chunksOf 8 n msg).map (fun b => BitVec.ofNat 64 (leNat b))
  let last := BitVec.ofNat 64 (leNat (msg.drop (8 * n)) + (msg.length % 256) * 2 ^ 56)
  let (a, b, c, d) := (words ++ [last]).foldl sipWord
    (k0 ^^^ 0x736F6D6570736575, k1 ^^^ 0x646F72616E646F6D, k0 ^^^ 0x6C7967656E657261, k1 ^^^ 0x7465646279746573)
  let (a, b, c, d) := sipRound (sipRound (sipRound (sipRound (a, b, c ^^^ 0xFF, d))))
  a ^^^ b ^^^ c ^^^ d

/-! ### AES-256 (FIPS 197) -/

/-- Multiplication by x in GF(2^8). -/
def xtime (b : Byte) : Byte := if b.msb then (b <<< 1) ^^^ 0x1B else b <<< 1

/-- Multiplication in GF(2^8), over `n` bits of the second factor. -/
def gmul (a b : Byte) : Nat → Byte
  | 0 => 0
  | n + 1 => (if b.getLsbD 0 then a else 0) ^^^ gmul (xtime a) (b >>> 1) n

/-- The S-box, a row of sixteen bytes per high digit, first byte first. -/
def sboxRows : List Nat :=
  [0x637C777BF26B6FC53001672BFED7AB76, 0xCA82C97DFA5947F0ADD4A2AF9CA472C0, 0xB7FD9326363FF7CC34A5E5F171D83115,
    0x04C723C31896059A071280E2EB27B275, 0x09832C1A1B6E5AA0523BD6B329E32F84, 0x53D100ED20FCB15B6ACBBE394A4C58CF,
    0xD0EFAAFB434D338545F9027F503C9FA8, 0x51A3408F929D38F5BCB6DA2110FFF3D2, 0xCD0C13EC5F974417C4A77E3D645D1973,
    0x60814FDC222A908846EEB814DE5E0BDB, 0xE0323A0A4906245CC2D3AC629195E479, 0xE7C8376D8DD54EA96C56F4EA657AAE08,
    0xBA78252E1CA6B4C6E8DD741F4BBD8B8A, 0x703EB5664803F60E613557B986C11D9E, 0xE1F8981169D98E949B1E87E9CE5528DF,
    0x8CA1890DBFE6426841992D0FB054BB16]

/-- The S-box. -/
def sbox (a : Byte) : Byte := BitVec.ofNat 8 ((sboxRows[a.toNat / 16]?).getD 0 >>> (8 * (15 - a.toNat % 16)))

/-- Byte `i` of a list of bytes. -/
def bAt (l : List Byte) (i : Nat) : Byte := (l[i]?).getD 0

/-- The exclusive or of two byte strings. -/
def xorBytes (a b : List Byte) : List Byte := List.zipWith (· ^^^ ·) a b

/-- The key schedule, words of 4 bytes, newest first, extended from word `i` by `n` words. -/
def aesExpand (ws : List (List Byte)) (i : Nat) (rcon : Byte) : Nat → List (List Byte)
  | 0 => ws
  | n + 1 =>
    let t := (ws[0]?).getD []
    let u := if i % 8 = 0 then
        let s := (t.drop 1 ++ t.take 1).map sbox
        (bAt s 0 ^^^ rcon) :: s.drop 1
      else if i % 8 = 4 then t.map sbox else t
    aesExpand (xorBytes ((ws[7]?).getD []) u :: ws) (i + 1) (if i % 8 = 0 then xtime rcon else rcon) n

/-- The fifteen round keys of a 32-byte key. -/
def aesKeys (key : List Byte) : List (List Byte) :=
  (chunksOf 4 15 ((aesExpand (chunksOf 4 8 key).reverse 8 1 52).reverse)).map List.flatten

/-- ShiftRows on a column-major block. -/
def shiftRows (b : List Byte) : List Byte := (List.range 16).map (fun i => bAt b ((i + 4 * (i % 4)) % 16))

/-- MixColumns on one column. -/
def mixColumn (c : List Byte) : List Byte :=
  (List.range 4).map (fun i =>
    let x := bAt c i
    let y := bAt c ((i + 1) % 4)
    xtime x ^^^ (xtime y ^^^ y) ^^^ bAt c ((i + 2) % 4) ^^^ bAt c ((i + 3) % 4))

/-- One middle round. -/
def aesRound (b k : List Byte) : List Byte :=
  xorBytes ((chunksOf 4 4 (shiftRows (b.map sbox))).flatMap mixColumn) k

/-- AES-256 encryption of a block under expanded keys. -/
def aesBlock (ks : List (List Byte)) (b : List Byte) : List Byte :=
  let s := ((ks.drop 1).take 13).foldl aesRound (xorBytes b ((ks[0]?).getD []))
  xorBytes (shiftRows (s.map sbox)) ((ks[14]?).getD [])

/-- The inverse S-box, by search. -/
def invSbox (a : Byte) : Byte := (((List.range 256).map (BitVec.ofNat 8)).find? (fun b => sbox b == a)).getD 0

/-- The inverse of ShiftRows. -/
def invShiftRows (b : List Byte) : List Byte := (List.range 16).map (fun i => bAt b ((i + 12 * (i % 4)) % 16))

/-- The inverse of MixColumns on one column. -/
def invMixColumn (c : List Byte) : List Byte :=
  (List.range 4).map (fun i => gmul (bAt c i) 14 8 ^^^ gmul (bAt c ((i + 1) % 4)) 11 8 ^^^
    gmul (bAt c ((i + 2) % 4)) 13 8 ^^^ gmul (bAt c ((i + 3) % 4)) 9 8)

/-- One middle round backwards. -/
def aesUnround (b k : List Byte) : List Byte :=
  (invShiftRows ((chunksOf 4 4 (xorBytes b k)).flatMap invMixColumn)).map invSbox

/-- AES-256 decryption of a block. -/
def aesUnblock (ks : List (List Byte)) (b : List Byte) : List Byte :=
  let s := (invShiftRows (xorBytes b ((ks[14]?).getD []))).map invSbox
  xorBytes (((ks.drop 1).take 13).reverse.foldl aesUnround s) ((ks[0]?).getD [])

/-! ### GCM (NIST SP 800-38D), 96-bit nonces -/

/-- Multiplication in the field of GHASH, over `n` remaining bits of `x` from the most significant. -/
def ghashMul (x v z : BitVec 128) : Nat → BitVec 128
  | 0 => z
  | n + 1 =>
    ghashMul (x <<< 1) (if v.getLsbD 0 then (v >>> 1) ^^^ 0xE1000000000000000000000000000000 else v >>> 1)
      (if x.msb then z ^^^ v else z) n

/-- Bytes padded to whole blocks. -/
def gcmPad (l : List Byte) : List Byte := l ++ List.replicate ((16 - l.length % 16) % 16) 0

/-- GHASH of additional data and ciphertext. -/
def ghash (h : BitVec 128) (aad ct : List Byte) : BitVec 128 :=
  let all := gcmPad aad ++ gcmPad ct ++ natBE 8 (8 * aad.length) ++ natBE 8 (8 * ct.length)
  (chunksOf 16 (all.length / 16) all).foldl (fun y b => ghashMul (y ^^^ BitVec.ofNat 128 (beNat b)) h 0 128) 0

/-- The counter-mode keystream applied to data. -/
def gcmCtr (ks : List (List Byte)) (nonce data : List Byte) : List Byte :=
  let n := ceilDiv data.length 16
  xorBytes data ((List.range n).flatMap (fun i => aesBlock ks (nonce ++ natBE 4 (i + 2))))

/-- The tag of a ciphertext. -/
def gcmTag (ks : List (List Byte)) (nonce aad ct : List Byte) : List Byte :=
  let h := BitVec.ofNat 128 (beNat (aesBlock ks (List.replicate 16 0)))
  xorBytes (natBE 16 (ghash h aad ct).toNat) (aesBlock ks (nonce ++ [0, 0, 0, 1]))

/-- AES-256-GCM encryption: ciphertext and tag. -/
def gcmSeal (key nonce aad data : List Byte) : List Byte × List Byte :=
  let ks := aesKeys key
  let ct := gcmCtr ks nonce data
  (ct, gcmTag ks nonce aad ct)

/-- AES-256-GCM decryption, where the tag matches. -/
def gcmOpen (key nonce aad ct tag : List Byte) : Option (List Byte) :=
  let ks := aesKeys key
  if gcmTag ks nonce aad ct = tag then some (gcmCtr ks nonce ct) else none

/-! ### XTS (IEEE Std 1619) -/

/-- The tweak of the next block: multiplication by α, little-endian. -/
def xtsNext (t : BitVec 128) : BitVec 128 := if t.msb then (t <<< 1) ^^^ 0x87 else t <<< 1

/-- XTS over whole blocks with a block function, from a tweak. -/
def xtsBlocks (f : List Byte → List Byte) (t : BitVec 128) : List (List Byte) → List Byte
  | [] => []
  | b :: l =>
    let tb := natLE 16 t.toNat
    xorBytes (f (xorBytes b tb)) tb ++ xtsBlocks f (xtsNext t) l

/-- XTS-AES-256 encryption of a 64-byte data unit under a data key, a tweak key and a tweak (R354). -/
def xtsEncrypt (key tweakKey : List Byte) (tweak : Nat) (unit : List Byte) : List Byte :=
  xtsBlocks (aesBlock (aesKeys key)) (BitVec.ofNat 128 (leNat (aesBlock (aesKeys tweakKey) (natLE 16 tweak))))
    (chunksOf 16 4 unit)

/-- XTS-AES-256 decryption of a 64-byte data unit. -/
def xtsDecrypt (key tweakKey : List Byte) (tweak : Nat) (unit : List Byte) : List Byte :=
  xtsBlocks (aesUnblock (aesKeys key)) (BitVec.ofNat 128 (leNat (aesBlock (aesKeys tweakKey) (natLE 16 tweak))))
    (chunksOf 16 4 unit)

end Sys2Proof.Machine
end

