-- ==== Sys2Proof/Machine/Link.lean ====
section
/-!
DEFINITION. The Retus ports (chapter 17): routes and virtual lanes, the sending of messages, frames and control
units, credits, and a port's states. A codeword's symbols and their Reed-Solomon decoding are not modelled: a
frame arrives as decoded or not, and leaves as its header, CRC and body.
-/
namespace Sys2Proof

/-! ### Messages -/

/-- The payload bytes a message of a type carries (R558). -/
def payloadLen (typ len : Nat) : Nat :=
  if typ = 0x01 ∨ typ = 0x04 ∨ typ = 0x06 ∨ typ = 0x82 then 0 else if typ = 0x03 then 16 else len

/-- The units a message takes. -/
def LinkMsg.unitCount (m : LinkMsg) : Nat := 1 + ceilDiv m.payload.length 16

/-- R565: the pool of a message. -/
def LinkMsg.pool (m : LinkMsg) : Nat :=
  4 * (if m.own then 8 else m.field) + 2 * (if m.typ < 0x80 then 0 else 1) + b2n m.vl

/-- The bytes of a message (R557). -/
def LinkMsg.bytes (m : LinkMsg) : List Byte :=
  let p := m.payload ++ List.replicate (ceilDiv m.payload.length 16 * 16 - m.payload.length) 0
  natLE 1 m.typ ++ natLE 1 (m.field + 8 * b2n m.own + 16 * b2n m.vl) ++ natLE 2 m.dst ++ natLE 2 m.src ++
    natLE 2 m.len ++ natLE 2 m.tag ++ natLE 6 m.arg ++ p

/-- The message whose header and payload lie in the bytes. -/
def LinkMsg.ofBytes (b : List Byte) : LinkMsg where
  typ := fld b 0 1
  field := fld b 1 1 % 8
  own := bit (fld b 1 1) 3
  vl := bit (fld b 1 1) 4
  dst := fld b 2 2 % 1024
  src := fld b 4 2 % 1024
  len := fld b 6 2
  tag := fld b 8 2 % 4096
  arg := fld b 10 6
  payload := slice b 16 (payloadLen (fld b 0 1) (fld b 6 2))

end Sys2Proof

namespace Sys2Proof.Machine

/-! ### Ids and routes (R552 to R555) -/

/-- This device's id. -/
def State.devId (s : State) : Nat := s.getF (Reg.lxId 0) 9 0

/-- The ring size P and the ring count Q. -/
def State.rings (s : State) : Nat × Nat := (s.getF (Reg.lxId 0) 14 10 + 1, s.getF (Reg.lxId 0) 19 15 + 1)

/-- The device id exists in the system. -/
def State.idExists (s : State) (d : Nat) : Bool :=
  decide (d < 1024) && decide (d % 32 < s.rings.1) && decide (d / 32 < s.rings.2)

/-- R554: the port a message for `d` leaves by; none delivers it here. -/
def State.route (s : State) (d : Nat) : Option Nat :=
  let (p, q) := s.rings
  let dx := (d % 32 + p - s.devId % 32 % p) % p
  let dy := (d / 32 + q - s.devId / 32 % q) % q
  if dx ≠ 0 then some (if 2 * dx ≤ p then 0 else 1)
  else if dy ≠ 0 then some (if 2 * dy ≤ q then 2 else 3)
  else none

/-- R553: the neighbour that port `p` joins. -/
def State.neighbourId (s : State) (p : Nat) : Nat :=
  let (rp, rq) := s.rings
  let x := s.devId % 32
  let y := s.devId / 32
  if p = 0 then y * 32 + (x + 1) % rp
  else if p = 1 then y * 32 + (x + rp - 1) % rp
  else if p = 2 then (y + 1) % rq * 32 + x
  else (y + rq - 1) % rq * 32 + x

/-- Port `p` has a partner: its ring holds more than one member (R553). -/
def State.hasRing (s : State) (p : Nat) : Bool := if p ≤ 1 then s.rings.1 != 1 else s.rings.2 != 1

/-- The hop by port `p` crosses its ring's wrap link (R555). -/
def State.wraps (s : State) (p : Nat) : Bool :=
  let (rp, rq) := s.rings
  let x := s.devId % 32
  let y := s.devId / 32
  if p = 0 then x + 1 == rp else if p = 1 then x == 0 else if p = 2 then y + 1 == rq else y == 0

/-- The port that port `p` is joined to (R549). -/
def partnerPort (p : Nat) : Nat := if p % 2 = 0 then p + 1 else p - 1

/-- A type of R558 that is a message, with its reserved bits, those of ARG among them, zero and its length in range. -/
def headerValid (b : List Byte) : Bool :=
  let t := fld b 0 1
  [0x01, 0x02, 0x03, 0x04, 0x05, 0x06, 0x81, 0x82].contains t && decide (fld b 1 1 < 32) &&
    decide (fld b 2 2 < 1024) && decide (fld b 4 2 < 1024) && decide (fld b 8 2 < 4096) && decide (fld b 6 2 ≤ 512) &&
    (if t = 0x03 then fld b 15 1 == 0 else if t = 0x04 then decide (fld b 10 2 < 512) else if t = 0x05 then fld b 11 1 == 0
     else if t = 0x06 then fld b 10 6 == 0 else if 0x80 < t then fld b 11 5 == 0 else true)

/-- A control unit of R558 with its reserved bits zero. -/
def ctrlValid (u : List Byte) : Bool :=
  let t := fld u 0 1
  fld u 1 3 == 0 &&
    (if t = 0xC0 then fld u 14 2 == 0
     else if t = 0xC2 then (List.range 3).all (fun k =>
      let w := fld u (4 + 4 * k) 4
      bits w 15 6 == 0 && bits w 31 26 == 0 && decide (bits w 25 16 ≤ 512))
     else if t = 0xC4 then fld u 4 12 == 0 else fld u 8 8 == 0)

/-! ### Ports -/

/-- Port `p`. -/
def State.port (s : State) (p : Nat) : LxPort := (s.lx.ports[p]?).getD LxPort.reset

/-- Port `p` changed. -/
def State.updPort (s : State) (p : Nat) (f : LxPort → LxPort) : State :=
  { s with lx := { s.lx with ports := listUpd s.lx.ports p f } }

/-- A message discarded at port `p` is counted in DROPS. -/
def State.drop (s : State) (p n : Nat) : State := if n = 0 then s else s.bump (Reg.lxCnt1 p) 31 16 49 n none

/-- Units returned to the pool of the receive buffer that a forwarded message took up (R565). -/
def State.leaveBuffer (s : State) (o : Option (Nat × Nat)) (units : Nat) : State :=
  match o with
  | none => s
  | some (p, pool) => s.updPort p (fun t => { t with owed := Map.put t.owed pool (Map.get t.owed pool 0 + units) })

/-- The discard of a list of waiting messages. -/
def State.dropAll (s : State) (p : Nat) (l : List (Option (Nat × Nat) × LinkMsg)) (count : Bool) : State :=
  let s := l.foldl (fun s q => s.leaveBuffer q.1 q.2.unitCount) s
  if count then s.drop p l.length else s

/-- A message leaves by port `p` (R555, R566): queued while the port is UP, held while the port trains or wakes its
partner, held too where AUTOWAKE is set, and otherwise discarded. `o` is the receive buffer it comes from. -/
def State.enqueue (s : State) (p : Nat) (o : Option (Nat × Nat)) (m : LinkMsg) : State :=
  let stays := match o with
    | none => false
    | some (q, _) => q / 2 == p / 2 && m.vl
  let m := { m with vl := stays || s.wraps p }
  let t := s.port p
  if t.state = 4 then s.updPort p (fun t => { t with txq := t.txq ++ [(o, m)] })
  else if t.state = 2 ∨ t.state = 3 ∨ t.back ≠ 0 ∨ ((t.state = 1 ∨ t.state = 5) ∧ bit t.ctl.toNat 30) then
    s.updPort p (fun t => { t with held := t.held ++ [(o, m)] })
  else (s.leaveBuffer o m.unitCount).drop p 1

/-- A message of this device is sent. Its destination exists and is another device. -/
def State.sendMsg (s : State) (m : LinkMsg) : State :=
  match s.route m.dst with
  | none => s
  | some p => s.enqueue p none m

/-- A free request tag of the 4,096, none while all are out: tags are a wrapping serial (R562, R571). -/
def State.freeTag (s : State) : Option Nat :=
  if s.lx.tags.length < 4096 then
    ((List.range 4096).map (fun i => (s.lx.nextTag + i) % 4096)).find? (fun t => !s.lx.tags.any (fun g => g.tag == t))
  else none

/-- A request sent under a fresh tag held for `use` (R562); none while no tag is free. -/
def State.request (s : State) (m : LinkMsg) (use : TagUse) : Option State :=
  match s.freeTag, s.route m.dst with
  | some t, some p =>
    let s := { s with lx := { s.lx with tags := s.lx.tags ++ ([⟨t, p, use⟩] : List Tag), nextTag := (t + 1) % 4096 } }
    some (s.sendMsg { m with tag := t })
  | _, _ => none

/-- A request or posted message from this device, with its type, traffic group, destination, length, ARG and
payload. -/
def State.newMsg (s : State) (typ field : Nat) (own : Bool) (dst len arg : Nat) (payload : List Byte) : LinkMsg :=
  ⟨typ, field, own, false, dst, s.devId, len, 0, arg, payload⟩

/-- The response to a message (R559, R561): status, and data when it is OK. -/
def State.respond (s : State) (m : LinkMsg) (typ status : Nat) (data : List Byte) : State :=
  s.sendMsg ⟨typ, m.field, m.own, false, m.src, s.devId, data.length, m.tag, status, data⟩

/-- A control unit: type, and its bytes from byte 4 on. -/
def ctrlUnit (typ : Nat) (rest : List Byte) : List Byte :=
  (natLE 4 typ ++ rest ++ List.replicate 12 0).take 16

/-! ### Going down (R550, R551) -/

/-- The port's queues and partly received messages are discarded and its counts restart. -/
def LxPort.cleared (t : LxPort) : LxPort :=
  { t with received := 0, waiting := false, sinceLack := 0, sinceLnak := 0, sent := 0, replay := [], resend := none,
           lnak := 0, lnakRun := 0, part := [], ctrl := [], txq := [], tail := [], units := [], rx := [], used := [],
           owed := [] }

/-- Port `p` leaves for state `to_` with its queues discarded; messages held to wake the partner stay held. -/
def State.portTo (s : State) (p to_ : Nat) : State :=
  let q := (s.port p).txq
  (s.dropAll p q false).updPort p (fun t => { t.cleared with state := to_, peer := 0, pport := 0 })

/-- Port `p` goes down under R550: an error, unless it follows BYE. -/
def State.goDown (s : State) (p : Nat) (bye : Bool) : State :=
  if bye then s.portTo p 5
  else
    let s := (s.portTo p 1).detect (Reg.lxErr p) 2 (33 + p) none
    (s.bump (Reg.lxCnt0 p) 47 32 50 1 none).postOwner Code.linkDown (33 + p) []

/-- Port `p` is turned off: its held messages go too. -/
def State.portOff (s : State) (p : Nat) : State :=
  ((s.portTo p 0).dropAll p (s.port p).held true).updPort p (fun t => { t with held := [], back := 0 })

/-- A frame leaves by port `p` (R542, R543): its CRC covers the header and the body. -/
def State.sendLane (s : State) (p hdr : Nat) (body : List Byte) : State :=
  s.updPort p (fun t => { t with lane := some (hdr, crc16 (natLE 1 hdr ++ body), body) })

/-- A body of 640 bytes that begins with the given ones; unused units are NULL (R547). -/
def frameBody (bytes : List Byte) : List Byte := bytes.take 640 ++ List.replicate (640 - bytes.length) 0

/-- Port `p` sends BYE, after the rest of a message that a frame has begun, and is taken to DOWN without error (R551). -/
def State.portBye (s : State) (p : Nat) : State :=
  let t := s.port p
  let s := if t.state = 4 then s.sendLane p (t.sent % 8) (frameBody (t.tail ++ ctrlUnit 0xC4 [])) else s
  if t.state = 0 then s
  else ((s.portTo p 1).dropAll p (s.port p).held true).updPort p (fun t => { t with held := [], back := 0 })

/-! ### Sending frames (R544 to R547, R565) -/

/-- The HELLO unit of this device on port `p`. -/
def State.helloUnit (s : State) (p : Nat) : List Byte :=
  ctrlUnit 0xC0 (natLE 4 (s.getF (Reg.lxId 0) 63 32) ++ natLE 2 s.devId ++ natLE 1 p ++ natLE 1 0x10 ++
    natLE 1 (s.rings.1 - 1) ++ natLE 1 (s.rings.2 - 1))

/-- CRED units for what is owed, three returns to a unit, at most 512 units to a return. -/
def credUnits (owed : Map Nat) : List (List Byte) :=
  (chunksOf 3 12 (owed.filter (fun q => q.2 != 0))).map (fun g =>
    ctrlUnit 0xC2 (g.flatMap (fun q => natLE 4 (q.1 + min 512 q.2 * 65536))))

/-- The first message of the queue whose pool has credits, a message waiting for credits stopping the later ones of
its pool; with the rest of the queue. -/
def nextMsg (used : Map Nat) (blocked : List Nat) :
    List (Option (Nat × Nat) × LinkMsg) → Option ((Option (Nat × Nat) × LinkMsg) × List (Option (Nat × Nat) × LinkMsg))
  | [] => none
  | q :: l =>
    let n := q.2.pool
    if !blocked.contains n ∧ Map.get used n 0 + q.2.unitCount ≤ 512 then some (q, l)
    else (nextMsg used (n :: blocked) l).map (fun r => (r.1, q :: r.2))

/-- Control units and then messages are added to the bytes that wait until they fill a body; messages taken leave
their receive buffers. -/
def State.fillBody (s : State) (p : Nat) (bytes : List Byte) : Nat → State × List Byte
  | 0 => (s, bytes)
  | fuel + 1 =>
    let t := s.port p
    if 640 ≤ bytes.length then (s, bytes)
    else match t.ctrl with
      | u :: us => (s.updPort p (fun t => { t with ctrl := us })).fillBody p (bytes ++ u) fuel
      | [] =>
        if t.state ≠ 4 then (s, bytes)
        else match nextMsg t.used [] t.txq with
          | none => (s, bytes)
          | some (q, rest) =>
            let n := q.2.pool
            let s := s.updPort p (fun t => { t with
              txq := rest, used := Map.put t.used n (Map.get t.used n 0 + q.2.unitCount) })
            (s.leaveBuffer q.1 q.2.unitCount).fillBody p (bytes ++ q.2.bytes) fuel

/-- Port `p` has something a sequenced frame carries. -/
def LxPort.hasWork (t : LxPort) : Bool :=
  !t.tail.isEmpty || !t.ctrl.isEmpty || t.owed.any (fun q => q.2 != 0) ||
    (t.state == 4 && (nextMsg t.used [] t.txq).isSome)

/-- LACK and LNAK that fall due with the next frame are sent (R546): their counts restart. -/
def LxPort.sentUnits (t : LxPort) (lack lnak : Bool) : LxPort :=
  { t with
    frames := t.frames + 1
    sinceLack := if lack then 0 else t.sinceLack + 1
    sinceLnak := if lnak then 0 else t.sinceLnak + 1 }

/-- One codeword time of port `p`'s transmitter (R544 to R547): every 16,384th frame is an alignment frame; a frame
named by LNAK is sent again; with 256 frames held, or nothing to send, or LACK or LNAK due during a resend, an idle
frame goes out; otherwise a new sequenced frame. SEQ of an idle frame is free (log 3). -/
def State.sendFrame (s : State) (p : Nat) : State :=
  let t := s.port p
  let lack := decide (31 ≤ t.sinceLack)
  let lnak := t.waiting && decide (255 ≤ t.sinceLnak)
  let units := (if lack then [ctrlUnit 0xC1 (natLE 4 t.received)] else []) ++
    (if lnak then [ctrlUnit 0xC3 (natLE 4 t.received)] else [])
  let idle (s : State) : State :=
    let (q, s) := s.pick 8
    (s.sendLane p (8 + q) (frameBody units.flatten)).updPort p (fun t => t.sentUnits lack lnak)
  if (t.frames + 1) % 16384 = 0 then
    let (q, s) := s.pick 8
    (s.sendLane p (8 + q) (List.replicate 640 0xF0)).updPort p (fun t => { t with
      frames := t.frames + 1, sinceLack := t.sinceLack + 1, sinceLnak := t.sinceLnak + 1 })
  else match t.resend with
    | some k =>
      if lack || lnak then idle s
      else
        (s.sendLane p (k % 8) ((t.replay[k - (t.sent - t.replay.length)]?).getD [])).updPort p (fun t => {
          t.sentUnits false false with resend := if k + 1 < t.sent then some (k + 1) else none })
    | none =>
      if 256 ≤ t.replay.length ∨ !t.hasWork then idle s
      else
        let s := s.updPort p (fun t => { t with
          ctrl := t.ctrl ++ credUnits t.owed
          owed := t.owed.filterMap (fun q => if q.2 ≤ 512 then none else some (q.1, q.2 - 512)) })
        let (s, bytes) := s.fillBody p (t.tail ++ units.flatten) 80
        let body := frameBody bytes
        (s.sendLane p (t.sent % 8) body).updPort p (fun t => { t.sentUnits lack lnak with
          sent := t.sent + 1, replay := t.replay ++ [body], tail := bytes.drop 640 })

/-! ### Receiving frames -/

/-- The units of an accepted body: control units wait to be taken, messages are reassembled; one for this device
waits for delivery, another is forwarded, and one that is not valid is discarded and counted. -/
def State.takeUnits (s : State) (p : Nat) : Nat → State
  | 0 => s
  | fuel + 1 =>
    let b := (s.port p).part
    if b.length < 16 then s
    else
      let t := fld b 0 1
      if t = 0 ∧ (b.take 16).all (· == 0) then (s.updPort p (fun q => { q with part := b.drop 16 })).takeUnits p fuel
      else if 0xC0 ≤ t ∧ t ≤ 0xC4 then
        let u := b.take 16
        let s := s.updPort p (fun q => { q with part := b.drop 16 })
        (if ctrlValid u then s.updPort p (fun q => { q with units := q.units ++ [u] }) else s.drop p 1).takeUnits p fuel
      else
        let n := 16 + ceilDiv (payloadLen t (min 512 (fld b 6 2))) 16 * 16
        if b.length < n then s
        else
          let s := s.updPort p (fun q => { q with part := b.drop n })
          let m := LinkMsg.ofBytes b
          let s :=
            if !headerValid b then (s.leaveBuffer (some (p, m.pool)) (n / 16)).drop p 1
            else match s.route m.dst with
              | none => s.updPort p (fun q => { q with rx := q.rx ++ [m] })
              | some o => s.enqueue o (some (p, m.pool)) m
          s.takeUnits p fuel

/-- A frame is good: its codeword decodes and its CRC matches (R543). -/
def frameGood (decoded : Bool) (crc : BitVec 16) (expect : BitVec 16) : Bool := decoded && crc == expect

/-- A codeword arrives at port `p` (R546): not good, it is counted; an idle frame brings LACK and LNAK; a sequenced
frame is accepted in order, and one out of order makes the port wait and send LNAK. `good` says that it decoded and
its CRC matched. -/
def State.frameIn (s : State) (p : Nat) (good corrected : Bool) (hdr : Nat) (body : List Byte) : State :=
  let s := if corrected then s.bump (Reg.lxCnt1 p) 47 32 50 1 none else s
  let wait (s : State) : State := s.updPort p (fun t =>
    if t.waiting then t else { t with waiting := true, sinceLnak := 255 })
  if !good then wait (s.bump (Reg.lxCnt0 p) 15 0 48 1 none)
  else if bit hdr 3 then
    if body.all (· == 0xF0) then s
    else
      let us := (chunksOf 16 40 body).filter (fun u => (fld u 0 1 == 0xC1 || fld u 0 1 == 0xC3) && ctrlValid u)
      s.updPort p (fun t => { t with units := t.units ++ us })
  else if hdr % 8 ≠ (s.port p).received % 8 then wait s
  else
    (s.updPort p (fun t => { t with received := (t.received + 1) % 4294967296, waiting := false, part := t.part ++ body })).takeUnits p 80

/-- The control unit that waits first at port `p`, when it is `u`, is taken. -/
def State.takeUnit (s : State) (p : Nat) (u : List Byte) : Option State :=
  match (s.port p).units with
  | v :: vs => if v = u then some (s.updPort p (fun t => { t with units := vs })) else none
  | [] => none

/-- The message that waits first in its pool at port `p`, when it is `m`, leaves the receive buffer. -/
def State.takeMsg (s : State) (p : Nat) (m : LinkMsg) : Option State :=
  if ((s.port p).rx.find? (fun q => q.pool == m.pool)) = some m then
    some ((s.updPort p (fun t => { t with rx := t.rx.erase m })).leaveBuffer (some (p, m.pool)) m.unitCount)
  else none

end Sys2Proof.Machine
end

