-- ==== Sys2Proof/Machine/Mc.lean ====
section
/-!
DEFINITION. The memory controller and the commons (R345 to R354): GDDR6 channels, the check of a pair, and the stored form of
a field's blocks. State.mem holds the bytes of a field's channels in clear: the device stores their ciphertext and its check
bytes, of which only a URD's answer and a neighbour home see anything, and those are computed from the clear bytes (log 44).
-/
namespace Sys2Proof.Machine

/-! ### GDDR6 channels (R346 to R348) -/

/-- The image whose memory MC serves: the one in force, or in the safe state the one before it (R617). -/
def State.memImage (s : State) : Option Image := s.image <|> s.fc.held

/-- The DRAM byte of R144 in force. -/
def State.dramCode (s : State) : Nat := (s.memImage.map Image.dram).getD 0

/-- Cch of R346: bytes per channel. -/
def State.chanBytes (s : State) : Nat :=
  let d := s.dramCode
  if d % 4 = 0 then 0 else 0x20000000 * (d % 4) * (if bit d 2 then 2 else 1)

/-- Pages of 64 KiB per channel. -/
def State.chanPages (s : State) : Nat := s.chanBytes / 65536

/-- Bytes of GDDR6 fitted. -/
def State.dramBytes (s : State) : Nat := 16 * s.chanBytes

/-- Channel `c` is trained and in service (R660). -/
def State.chanUp (s : State) (c : Nat) : Bool := s.getF Reg.mcTstat (16 + c) (16 + c) == 1

/-- Channel `c` belongs to a field (R347). -/
def State.fieldChan (s : State) (c : Nat) : Bool := s.memImage.any (fun im => im.fields.any (fun r => bit r.channels c))

/-- Channel `c` is of the lent kind (R347): whether TU.LEND.EN is set decides only whether borrowers are served (R355). -/
def State.lentChan (s : State) (c : Nat) : Bool := bit (s.getF Reg.tuLend 15 0) c && !s.fieldChan c

/-- `n` bytes of GDDR6 from device-physical `a` lie in one channel that satisfies `ok`, is in service, and, on a
checked channel, in its data part (R348). -/
def State.dramOk (s : State) (a n : Nat) (checked : Bool) (ok : Nat → Bool) : Bool :=
  let c := (a - 0x100000000) / s.chanBytes
  let o := (a - 0x100000000) % s.chanBytes
  decide (0x100000000 ≤ a) && decide (0 < s.chanBytes) && decide (c < 16) && ok c && s.chanUp c &&
    decide (o + n ≤ (if checked then 15 * s.chanBytes / 16 else s.chanBytes))

/-! ### Check of a GDDR6 pair (R349 to R353) -/

/-- Multiplication by α in GF(2^16) with x^16 + x^12 + x^3 + x + 1. -/
def gfAlpha (x : BitVec 16) : BitVec 16 := if x.msb then (x <<< 1) ^^^ 0x100B else x <<< 1

/-- Division by α. -/
def gfHalf (x : BitVec 16) : BitVec 16 := if x.getLsbD 0 then ((x ^^^ 0x100B) >>> 1) ||| 0x8000 else x >>> 1

/-- `x` × α^k. -/
def gfPow (x : BitVec 16) : Nat → BitVec 16
  | 0 => x
  | k + 1 => gfAlpha (gfPow x k)

/-- `x` ÷ α^k. -/
def gfDown (x : BitVec 16) : Nat → BitVec 16
  | 0 => x
  | k + 1 => gfHalf (gfDown x k)

/-- Syndrome m of a word (R349): Σ c_i × α^(m·i), by Horner's rule from its last symbol. -/
def syndrome (m : Nat) (word : List (BitVec 16)) : BitVec 16 := word.foldr (fun c acc => gfPow acc m ^^^ c) 0

/-- The outcome of R350. -/
inductive PairOutcome where
  | clean
  | corrected (symbol : Nat) (v : BitVec 16)
  | uncorrectable
  deriving DecidableEq, Repr

/-- R350: the decision on a pair of 68 symbols. -/
def pairCheck (word : List (BitVec 16)) : PairOutcome :=
  let s := (List.range 4).map (fun m => syndrome m word)
  let v := (s[0]?).getD 0
  if s.all (· == 0) then .clean
  else match (List.range 68).find? (fun j => (List.range 4).all (fun m => s[m]? == some (gfPow v (m * j)))) with
    | some j => if v = 0 then .uncorrectable else .corrected j v
    | none => .uncorrectable

/-- The check symbols of R349. With g the product of x + α^m for m = 0 to 3, the polynomial of the four is Σ c_i x^(i − 64)
modulo g: it agrees with that sum at all four roots, so that every S_m is zero. One data symbol is added and the whole divided
by x. -/
def checkStep (p : List (BitVec 16)) (c : BitVec 16) : List (BitVec 16) :=
  let a := (p[0]?).getD 0 ^^^ c
  let spread (ks : List Nat) : BitVec 16 := ks.foldl (fun acc k => acc ^^^ gfDown a k) 0
  [(p[1]?).getD 0 ^^^ spread [0, 1, 2, 3], (p[2]?).getD 0 ^^^ spread [1, 2, 4, 5], (p[3]?).getD 0 ^^^ spread [3, 4, 5, 6], spread [6]]

/-- The symbols of stored bytes, in address order (R46, R349). -/
def symbolsOf : List Byte → List (BitVec 16)
  | a :: b :: l => (b ++ a) :: symbolsOf l
  | _ => []

/-- The stored bytes of symbols. -/
def symbolBytes : List (BitVec 16) → List Byte
  | [] => []
  | c :: l => c.setWidth 8 :: (c >>> 8).setWidth 8 :: symbolBytes l

/-- The 8 check bytes of a pair's 128 stored bytes (R348, R349). -/
def checkBytes (pair : List Byte) : List Byte := symbolBytes ((symbolsOf pair).foldl checkStep [0, 0, 0, 0])

/-- The error that an injection of R607 makes in a word: one symbol, or two, in error. The symbols struck are 0, and 0 and 1
(log 20). -/
def strike (k : Nat) (word : List (BitVec 16)) : List (BitVec 16) :=
  match k, word with
  | 1, a :: l => (a ^^^ 1) :: l
  | 2, a :: b :: l => (a ^^^ 1) :: (b ^^^ 1) :: l
  | _, l => l

/-- MC decides on a pair of channel `c` (R350): the counts, MC.ERR and the pulse. -/
def State.mcPair (s : State) (c : Nat) (word : List (BitVec 16)) : State × PairOutcome :=
  match pairCheck word with
  | .clean => (s, .clean)
  | .corrected j v => (s.bump (Reg.mcCh c) 15 0 48 1 none, .corrected j v)
  | .uncorrectable => ((s.bump (Reg.mcCh c) 31 16 49 1 none).detect Reg.mcErr c (15 + c) none, .uncorrectable)

/-- A burst of channel `c` fails its fifth time (R353). -/
def State.mcRetry (s : State) (c : Nat) : State :=
  (s.bump (Reg.mcCh c) 47 32 50 1 none).detect Reg.mcErr c (15 + c) none

/-- MC makes a checked read of the pair `word` on channel `c`: an armed injection corrupts it. -/
def State.mcChecked (s : State) (c : Nat) (word : List (BitVec 16)) : State × PairOutcome :=
  if s.getF Reg.mcInject 19 16 ≠ c then s.mcPair c word
  else if s.armed Reg.mcInject 0 then (s.setF Reg.mcInject 0 0 0).mcPair c (strike 1 word)
  else if s.armed Reg.mcInject 1 then (s.setF Reg.mcInject 1 1 0).mcPair c (strike 2 word)
  else if s.armed Reg.mcInject 2 then ((s.setF Reg.mcInject 2 2 0).mcRetry c, .uncorrectable)
  else s.mcPair c word

/-- MC makes a checked read on a field's channel `c`: true when the pair read first is uncorrectable. Its stored word is the
codeword of the ciphertext (R349, R354), to which only an injection adds an error; the code is linear, so the error alone is
decided on. -/
def State.mcRead (s : State) (c : Nat) : State × Bool :=
  let (s, o) := s.mcChecked c (List.replicate 68 0)
  (s, o == .uncorrectable)

/-- The channel, and the addresses of the data and of the check bytes, of the pair that holds device-physical `a` (R348). -/
def State.pairAt (s : State) (a : Nat) : Nat × Nat × Nat :=
  let c := (a - 0x100000000) / s.chanBytes
  let p := (a - 0x100000000) % s.chanBytes / 128
  let base := 0x100000000 + c * s.chanBytes
  (c, base + 128 * p, base + 15 * s.chanBytes / 16 + 8 * p)

/-- A pair of a lent channel is read and checked: its 128 bytes, corrected, or none. -/
def State.lentPair (s : State) (a : Nat) : State × Option (List Byte) :=
  let (c, d, k) := s.pairAt a
  let word := symbolsOf (s.read d 128) ++ symbolsOf (s.read k 8)
  match s.mcChecked c word with
  | (s, .clean) => (s, some (s.read d 128))
  | (s, .corrected j v) => (s, some (symbolBytes ((listUpd word j (fun x => x ^^^ v)).take 64)))
  | (s, .uncorrectable) => (s, none)

/-- The pairs that `n` bytes from `a` touch. -/
def pairsOf (a n : Nat) : List Nat := (List.range ((a + n + 127) / 128 - a / 128)).map (fun i => (a / 128 + i) * 128)

/-- `n` bytes of a lent channel (R350): none when a pair of them is uncorrectable. -/
def State.lentRead (s : State) (a n : Nat) : State × Option (List Byte) :=
  let r := (pairsOf a n).foldl (fun (acc : State × Option (List Byte)) p =>
    let (s, b) := acc.1.lentPair p
    (s, match acc.2, b with
      | some x, some y => some (x ++ y)
      | _, _ => none)) (s, some [])
  (r.1, r.2.map (fun b => slice b (a % 128) n))

/-- Bytes written to a lent channel with new check bytes (R349, R352): a pair that they cover only in part is read and checked
first, and one that is uncorrectable refuses the write. -/
def State.lentWrite (s : State) (a : Nat) (bs : List Byte) : State × Bool :=
  let n := bs.length
  let part := (pairsOf a n).filter (fun p => !(decide (a ≤ p) && decide (p + 128 ≤ a + n)))
  let r := part.foldl (fun (acc : State × Bool × List (Nat × List Byte)) p =>
    match acc.1.lentPair p with
    | (s, some b) => (s, acc.2.1, acc.2.2 ++ [(p, b)])
    | (s, none) => (s, false, acc.2.2)) (s, true, [])
  if r.2.1 then
    let s := (r.2.2.foldl (fun s q => s.write q.1 q.2) r.1).write a bs
    ((pairsOf a n).foldl (fun s p => s.write (s.pairAt p).2.2 (checkBytes (s.read p 128))) s, true)
  else (r.1, false)

/-! ### The stored form of a field's blocks (R354) -/

/-- `n` bytes that no rule states. -/
def State.freeBytes (s : State) (n : Nat) : State × List Byte :=
  ({ s with free := s.free + 1 }, (List.range n).map (Config.freeByte s.free))

/-- The ciphertext of blocks of a field from a unified address, under a key pair. -/
def storedBlocks (key : List Byte × List Byte) (f ua : Nat) (bs : List Byte) : List Byte :=
  ((chunksOf 64 (bs.length / 64) bs).zipIdx.map (fun p => xtsEncrypt key.1 key.2 (f * 2 ^ 40 + ua / 64 + p.2) p.1)).flatten

/-- The bytes that stored blocks hold. -/
def clearBlocks (key : List Byte × List Byte) (f ua : Nat) (bs : List Byte) : List Byte :=
  ((chunksOf 64 (bs.length / 64) bs).zipIdx.map (fun p => xtsDecrypt key.1 key.2 (f * 2 ^ 40 + ua / 64 + p.2) p.1)).flatten

/-- Blocks as they leave for a store outside the die. Without a memory key pair (R600) they are free (log 44). -/
def State.sealBlocks (s : State) (f ua : Nat) (bs : List Byte) : State × List Byte :=
  match Map.find s.sx.memKeys f with
  | some key => (s, storedBlocks key f ua bs)
  | none => s.freeBytes bs.length

/-- Blocks as they come from a store outside the die. -/
def State.openBlocks (s : State) (f ua : Nat) (bs : List Byte) : State × List Byte :=
  match Map.find s.sx.memKeys f with
  | some key => (s, clearBlocks key f ua bs)
  | none => s.freeBytes bs.length

/-- The tag of R559: bytes 0 to 3 of SHA-256 over SXKTAG01, the field and its memory key pair. -/
def State.ktag (s : State) (f : Nat) : Option (List Byte) :=
  (Map.find s.sx.memKeys f).map (fun k =>
    (sha256 (ascii [83, 88, 75, 84, 65, 71, 48, 49] ++ natLE 1 f ++ k.1 ++ k.2)).take 4)

end Sys2Proof.Machine
end

