-- ==== Sys2Proof/Machine/Tier.lean ====
section
/-!
DEFINITION. The tier unit (R341, R342, R355 to R385): page homes, the unified range's reads and writes, the traffic with
neighbour homes, migrations, poisoned blocks and the furrow.
-/
namespace Sys2Proof.Machine

/-! ### Page locations (R342, R364) -/

/-- The device-physical address of a page's home and location on this device: a commons slot or a local page. -/
def State.pageAddr (s : State) (home loc : Nat) : Nat :=
  if home = 1 then s.part.tier.base + (loc / 2 ^ 24) * (s.part.tier.size / 16) + 65536 * (loc % 256)
  else 0x100000000 + 65536 * loc

/-- The device that lends a neighbour location, and the address of the page there: the lender's own (R21, R355, R356, R364). -/
def State.farAddr (s : State) (loc : Nat) : Nat × Nat :=
  let n := loc / 2 ^ 25
  (s.getF (Reg.tuNbr n) 49 40, 0x100000000 + 65536 * (s.getF (Reg.tuNbr n) 18 0 + loc % 2 ^ 20))

/-- The key of a page of a field. -/
def pageKey (f page : Nat) : Nat := 2 ^ 24 * f + page

/-- The object that maps unified address `ua` of field `f`. -/
def State.objAt (s : State) (f ua : Nat) : Option (Nat × Obj) :=
  s.tu.objs.find? (fun p => p.2.field == f && decide (p.2.ua ≤ ua) && decide (ua < p.2.ua + 65536 * p.2.pages))

/-- A page of an object that nothing has touched: unbacked (R361). -/
def Page.fresh (obj hint : Nat) : Page where
  busy := false
  mig := 0
  home := 0
  shadow := false
  poison := false
  hint := hint
  pins := 0
  obj := obj
  loc := 0
  shome := 0
  sloc := 0
  hits := 0
  use := 0
  target := none

/-- The descriptor of a page, where it is mapped. One in MIG 5 is not (R370). -/
def State.page (s : State) (f page : Nat) : Option Page :=
  match (Map.find s.tu.pages (pageKey f page)).filter (fun p => p.mig != 5) with
  | some p => some p
  | none => (s.objAt f (65536 * page)).map (fun o => Page.fresh o.1 o.2.hint)

/-- The descriptor of a page set. -/
def State.setPage (s : State) (f page : Nat) (p : Page) : State :=
  { s with tu := { s.tu with pages := Map.put s.tu.pages (pageKey f page) p } }

/-- A location is taken: by a page's home, shadow or migration target, by a leaf, or by a lease (R372). -/
def State.locUsed (s : State) (home loc : Nat) : Bool :=
  s.tu.pages.any (fun q => (q.2.home == home && q.2.loc == loc) || (q.2.shome == home && q.2.sloc == loc) ||
    q.2.target == some (home, loc)) ||
  (home == 2 && s.tu.leaves.any (fun q => q.2 == loc)) ||
  s.tu.leases.any (fun l => l.home == home && l.loc == loc)

/-- One of the locations of a list that is free, where there is one. Which one is not stated (log 8). -/
def State.freeLoc (s : State) (home : Nat) (locs : List Nat) : Option (Nat × State) :=
  let free := locs.filter (fun l => !s.locUsed home l)
  if free.isEmpty then none
  else
    let (i, s1) := s.pick free.length
    some ((free[i]?).getD 0, s1)

/-- The slots of a field's tier-cache ways (R342). -/
def State.waySlots (s : State) (f : Nat) : List Nat :=
  let slots := s.part.tier.size / 16 / 65536
  let ways := ((s.fieldRec f).map FieldRec.ways).getD 0
  ((List.range 16).filter (fun w => bit ways w)).flatMap (fun w => (List.range slots).map (fun k => w * 2 ^ 24 + k))

/-- The data pages of channel `c`, as local page numbers. -/
def State.chanLocs (s : State) (c : Nat) : List Nat :=
  (List.range (15 * s.chanPages / 16)).map (fun n => c * s.chanPages + n)

/-- A free local page for field `f`: its channels in rotation, starting after the one used last (R366). -/
def State.localHome (s : State) (f : Nat) : Option (Nat × State) :=
  let chans := ((s.fieldRec f).map FieldRec.channels).getD 0
  let last := Map.get s.tu.rotation f 15
  let order := ((List.range 16).map (fun i => (last + 1 + i) % 16)).filter (fun c => bit chans c && s.chanUp c)
  order.findSome? (fun c => (s.freeLoc 2 (s.chanLocs c)).map (fun r =>
    (r.1, { r.2 with tu := { r.2.tu with rotation := Map.put r.2.tu.rotation f c } })))

/-- A free page of the field's neighbour entries, in ascending n (R356, R366). -/
def State.neighbourHome (s : State) (f : Nat) : Option (Nat × State) :=
  ((List.range 8).filter (fun n => s.getF (Reg.tuNbr n) 63 63 == 1 &&
    bit (s.getF (Reg.tuNbr n) 57 50) f)).findSome? (fun n =>
      s.freeLoc 3 ((List.range (s.getF (Reg.tuNbr n) 39 20)).map (fun i => n * 2 ^ 25 + i)))

/-- A home in local or neighbour order (R366). -/
def State.lowerHome (s : State) (f : Nat) (nearFirst : Bool) : Option (Nat × Nat × State) :=
  let l := (s.localHome f).map (fun r => (2, r.1, r.2))
  let n := (s.neighbourHome f).map (fun r => (3, r.1, r.2))
  if nearFirst then n <|> l else l <|> n

/-- The home a page takes at its first write, by its hint (R365). -/
def State.firstHome (s : State) (f hint : Nat) : Option (Nat × Nat × State) :=
  if hint = 1 then
    match s.freeLoc 1 (s.waySlots f) with
    | some (l, s1) => some (1, l, s1)
    | none => s.lowerHome f false
  else s.lowerHome f (hint = 3)

/-- The leaf that covers a page is allocated when its first page is mapped (R362): one local page. -/
def State.needLeaf (s : State) (f page : Nat) : Option State :=
  let k := 4096 * f + page / 4096
  match Map.find s.tu.leaves k with
  | some _ => some s
  | none => (s.localHome f).map (fun r =>
      { r.2 with tu := { r.2.tu with leaves := Map.put r.2.tu.leaves k r.1 } })

/-- Leaves that hold no valid descriptor are freed (R362). -/
def State.trimLeaves (s : State) : State :=
  { s with tu := { s.tu with leaves := s.tu.leaves.filter (fun q =>
      let f := q.1 / 4096
      let k := q.1 % 4096
      s.tu.pages.any (fun p => p.1 / 2 ^ 24 == f && p.1 % 2 ^ 24 / 4096 == k) ||
      s.tu.objs.any (fun o => o.2.field == f && decide (o.2.ua < 0x10000000 * (k + 1)) &&
        decide (0x10000000 * k < o.2.ua + 65536 * o.2.pages))) } }

/-! ### Poisoned blocks (R374 to R378) -/

/-- The bytes that a poison entry covers. -/
def PoisonBlk.len (b : PoisonBlk) : Nat := if b.whole then 65536 else 64

/-- The poison entries of `n` bytes from `ua`. -/
def State.poisonIn (s : State) (f ua n : Nat) : List PoisonBlk :=
  s.tu.poison.filter (fun b => b.field == f && decide (b.ua < ua + n) && decide (ua < b.ua + b.len))

/-- The object quarantine of a page (R377). -/
def State.quarantined (s : State) (f ua : Nat) : Bool :=
  match s.objAt f ua with
  | none => false
  | some o => o.2.quar

/-- The blocks of 64 bytes that `n` bytes from `ua` touch. -/
def blocksOf (ua n : Nat) : List Nat := (List.range ((ua + n + 63) / 64 - ua / 64)).map (fun i => (ua / 64 + i) * 64)

/-- The key of a block of a field. -/
def blockKey (f ua : Nat) : Nat := 2 ^ 34 * f + ua / 64

/-- The request is TU's for a block, or blocks, of `n` bytes from `ua`. -/
def TagUse.reads (u : TagUse) (f ua n : Nat) : Bool :=
  match u with
  | .tierRead g a => g == f && decide (a < ua + n) && decide (ua < a + 64)
  | _ => false

/-- The request is TU's write of blocks of the stretch. -/
def TagUse.writes (u : TagUse) (f ua n : Nat) : Bool :=
  match u with
  | .tierWrite g a k => g == f && decide (a < ua + n) && decide (ua < a + k)
  | _ => false

/-- TU's requests, waiting for a tag or out, one of which satisfies `p`. -/
def State.farAny (s : State) (p : TagUse → Bool) : Bool :=
  s.lx.tags.any (fun g => p g.use) || s.tu.far.any (fun q => p q.2)

/-- Requests that wait for a tag are sent in order while there is one (R562). -/
def State.pumpFar (s : State) : Nat → State
  | 0 => s
  | fuel + 1 =>
    match s.tu.far with
    | [] => s
    | q :: r =>
      match s.request q.1 q.2 with
      | none => s
      | some s => ({ s with tu := { s.tu with far := r } } : State).pumpFar fuel

/-- TU's requests that satisfy `p` are void: one that waits is not sent, and the answer of one that is out is not used. -/
def State.voidFar (s : State) (p : TagUse → Bool) : State :=
  { s with
    tu := { s.tu with far := s.tu.far.filter (fun (q : LinkMsg × TagUse) => !p q.2) }
    lx := { s.lx with tags := s.lx.tags.map (fun (g : Tag) => if p g.use then { g with use := .tierRead 8 0 } else g) } }

/-- TU sends a request, behind those that wait. -/
def State.sendFar (s : State) (m : LinkMsg) (u : TagUse) : State :=
  ({ s with tu := { s.tu with far := s.tu.far ++ [(m, u)] } } : State).pumpFar (s.tu.far.length + 1)

/-- A block of a neighbour home is asked for by an MRD, unless it is already. -/
def State.askFar (s : State) (f ua loc : Nat) : State :=
  if s.farAny (fun u => u.reads f ua 64) then s
  else
    let (dev, a) := s.farAddr loc
    s.sendFar (s.newMsg 0x01 f false dev 64 (a + ua % 65536) []) (.tierRead f ua)

/-- The blocks of `n` bytes from `ua` that have not come yet are asked for. -/
def State.askAll (s : State) (f ua n loc : Nat) : State :=
  ((blocksOf ua n).filter (fun b => (Map.find s.tu.fetched (blockKey f b)).isNone)).foldl (fun s b => s.askFar f b loc) s

/-- Fetched blocks of a stretch are used up. -/
def State.useFetched (s : State) (f ua n : Nat) : State :=
  { s with tu := { s.tu with fetched := (blocksOf ua n).foldl (fun m b => Map.del m (blockKey f b)) s.tu.fetched } }

/-- Whole blocks have come. -/
def State.putFetched (s : State) (f ua : Nat) (bs : List Byte) : State :=
  { s with tu := { s.tu with
    fetched := (blocksOf ua bs.length).foldl (fun m b => Map.put m (blockKey f b) (slice bs (b - ua) 64)) s.tu.fetched } }

/-- The bytes of a stretch of a neighbour home, once all its blocks have come: they are used up. -/
def State.takeFar (s : State) (f ua n loc : Nat) : State × Option (List Byte) :=
  let bs := blocksOf ua n
  if bs.all (fun b => (Map.find s.tu.fetched (blockKey f b)).isSome) then
    (s.useFetched f ua n, some (slice (bs.flatMap (fun b => Map.get s.tu.fetched (blockKey f b) [])) (ua % 64) n))
  else (s.askAll f ua n loc, none)

/-- A stretch cut at the multiples of 512 bytes: offset and length of each piece. -/
def cut512 (ua n : Nat) : List (Nat × Nat) :=
  (List.range ((ua + n + 511) / 512 - ua / 512)).map (fun i =>
    let a := max ua ((ua / 512 + i) * 512)
    (a, min (ua + n) ((ua / 512 + i + 1) * 512) - a))

/-- Whole blocks from `ua` are written to a neighbour location, encrypted, by MWRs. What was read of them before is void. -/
def State.writeFar (s : State) (f ua loc : Nat) (bs : List Byte) : State :=
  let n := bs.length
  let s := s.voidFar (fun u => u.reads f ua n)
  let s := s.useFetched f ua n
  let (s, enc) := s.sealBlocks f ua bs
  let (dev, a) := s.farAddr loc
  (cut512 ua n).foldl (fun (s : State) (q : Nat × Nat) =>
    s.sendFar (s.newMsg 0x02 f false dev q.2 (a + q.1 % 65536) (slice enc (q.1 - ua) q.2)) (.tierWrite f q.1 q.2)) s

/-- A replica's blocks are asked for by URDs (R375, R559). -/
def State.askReplica (s : State) (f ua dev len : Nat) : State :=
  (cut512 ua len).foldl (fun s q =>
    let m := s.newMsg 0x03 f false dev q.2 q.1 (((s.ktag f).getD [0, 0, 0, 0]) ++ List.replicate 12 0)
    s.sendFar m (.refetch f q.1)) s

/-- The source of a clean copy of an entry is asked (R375): a shadow on this device needs no message, one on a neighbour and a
replica are read, and the host is asked to resupply. -/
def State.startRefetch (s : State) (b : PoisonBlk) : State :=
  let page := b.ua / 65536
  match s.page b.field page, s.objAt b.field b.ua with
  | some p, o =>
    if p.home = 1 ∧ p.shadow then (if p.shome = 3 then s.askAll b.field b.ua b.len p.sloc else s)
    else match o with
      | none => s
      | some (id, o) =>
        if o.back = 1 then s.askReplica b.field b.ua o.backdev b.len
        else if o.back = 2 then
          let items := natLE 2 id ++ natLE 4 page ++ natLE 8 (b.ua % 65536)
          (s.post Code.weightsRefetch 31 b.field items).postOwner Code.weightsRefetch 31 items
        else s
  | none, _ => s

/-- A stretch is on the poison list from now on: POISON, MIG 4 with BUSY (R370), the count of `n` blocks, and its refetch. -/
def State.enterPoison (s : State) (b : PoisonBlk) (n : Nat) : State :=
  let s := { s with tu := { s.tu with poison := s.tu.poison ++ [b] } }
  let s := s.bump (Reg.tuFcnt b.field) 47 32 49 n (some b.field)
  let s := match s.page b.field (b.ua / 65536) with
    | none => s
    | some p => s.setPage b.field (b.ua / 65536) { p with poison := true, busy := true, mig := 4 }
  s.startRefetch b

/-- A block delivered as uncorrectable (R374). With the list full the whole page is refetched and no entry is made. -/
def State.poisonOne (s : State) (f ua : Nat) : State :=
  let blk := ua / 64 * 64
  if !(s.poisonIn f blk 1).isEmpty then s
  else if (s.tu.poison.filter (fun b => !b.whole)).length < 256 then s.enterPoison ⟨f, blk, false, false, [], []⟩ 1
  else s.enterPoison ⟨f, 65536 * (ua / 65536), false, true, [], []⟩ 1

/-- What is delivered as uncorrectable with a block (R350, R374): of a local page both blocks of its pair. -/
def State.poisonBlk (s : State) (f ua : Nat) : State :=
  match s.page f (ua / 65536) with
  | none => s
  | some p =>
    if p.home = 2 then (s.poisonOne f (ua / 128 * 128)).poisonOne f (ua / 128 * 128 + 64) else s.poisonOne f ua

/-- A write to the page is held (R372): a copy of it is in progress, or held writes of it are still to be applied. -/
def Page.holds (p : Page) : Bool := p.busy && (p.mig != 4 || p.target.isSome)

/-- The migration that a copy in progress is (R370). -/
def Page.copying (p : Page) : Nat :=
  match p.target with
  | none => 0
  | some (h, _) => if h = 1 then 1 else if p.home = 1 then 2 else 3

/-- POISON leaves a page once none of its blocks is on the list, and MIG 4 once none is under refetch: the page rests, or its
copy goes on. -/
def State.settlePage (s : State) (f page : Nat) : State :=
  match s.page f page with
  | none => s
  | some p =>
    let left := s.poisonIn f (65536 * page) 65536
    let p := { p with poison := !left.isEmpty }
    s.setPage f page (if p.mig = 4 ∧ left.all PoisonBlk.lost then { p with mig := p.copying, busy := p.target.isSome } else p)

/-- R378: an object of which no block is poisoned any more leaves quarantine and OBJECT_CLEAN is posted, to its
field and the owner. -/
def State.objectClean (s : State) (f ua : Nat) : State :=
  match s.objAt f ua with
  | none => s
  | some (id, o) =>
    if o.quar ∧ (s.poisonIn f o.ua (65536 * o.pages)).isEmpty then
      let s := { s with tu := { s.tu with objs := Map.put s.tu.objs id { o with quar := false } } }
      (s.post Code.objectClean 31 f (natLE 2 id)).postOwner Code.objectClean 31 (natLE 2 id)
    else s

/-- The stretch lies in those that have come clean. -/
def covered (got : List (Nat × Nat)) (ua n : Nat) : Bool :=
  (blocksOf ua n).all (fun b => got.any (fun g => decide (g.1 ≤ b) && decide (b + 64 ≤ g.1 + g.2)))

/-- `n` clean bytes from `ua` come to an entry: none is left of one that they complete. -/
def PoisonBlk.clean (b : PoisonBlk) (f ua n : Nat) : Option PoisonBlk :=
  if b.field ≠ f then some b
  else
    let got := b.got ++ [(ua, n)]
    if covered got b.ua b.len then none else if b.whole then some { b with got := got } else some b

/-- The steps that read poisoned bytes replay once these are clean (R376), where they are still open. -/
def State.replayMarked (s : State) (l : List (Nat × W32)) : State :=
  l.foldl (fun s q => if (s.ctx q.1).any (fun x => x.step == q.2) then s.replayStep q.1 else s) s

/-- A write of `n` bytes at `ua` replaces the blocks it covers whole (R378), and the steps that read them poisoned replay. -/
def State.clearPoison (s : State) (f ua n : Nat) : State :=
  let gone := s.tu.poison.filter (fun b => (b.clean f ua n).isNone)
  let s := { s with tu := { s.tu with poison := s.tu.poison.filterMap (fun b => b.clean f ua n) } }
  if gone.isEmpty then s
  else ((gone.foldl (fun s b => s.settlePage f (b.ua / 65536)) s).objectClean f ua).replayMarked (gone.flatMap PoisonBlk.marked)

/-! ### Access to the unified range -/

/-- How an access of the unified range ends: done, waiting for a clean block or an answer, or with a code. -/
inductive Tried (α : Type) where
  | done (a : α)
  | wait
  | code (c : Nat)

/-- TU serves an access of a page (R367): the field's use serial advances and the page takes its low bits. -/
def State.touchPage (s : State) (f : Nat) (p : Page) : State × Page :=
  let u := Map.get s.tu.use f 0 + 1
  (({ s with tu := { s.tu with use := Map.put s.tu.use f u } }).check Reg.tuInject Reg.tuErr 2 31 none,
    { p with use := u.toNat % 2 ^ 28 })

/-- A read from a lower home counts toward promotion (R365): AUTO at PROMOTE reads, NEAR at once. -/
def State.countHit (s : State) (f page : Nat) (p : Page) : State × Page :=
  if p.home = 2 ∨ p.home = 3 then
    let hits := min 15 (p.hits + 1)
    let promote := s.getF Reg.tuCtl 3 0
    if (p.hint = 0 ∧ promote ≠ 0 ∧ promote ≤ hits) ∨ p.hint = 1 then
      ({ s with tu := { s.tu with pending := Map.put s.tu.pending (pageKey f page) 1 } }, { p with hits := 0 })
    else (s, { p with hits := hits })
  else (s, p)

/-- A page that no access reaches (R242, R361, R660): not mapped; of KM's object, unless `km`; or on a channel that is out of
service. -/
def State.pageBad (s : State) (f page : Nat) (km : Bool) : Bool :=
  match s.page f page with
  | none => true
  | some p => (p.obj == 4095 && !km) || (p.home == 2 && s.mcStage.isNone && !s.chanUp (p.loc / s.chanPages))

/-- The pages that `n` bytes from `ua` touch. -/
def pagesTouched (ua n : Nat) : List Nat := (List.range ((65535 + n + ua) / 65536 - ua / 65536)).map (fun i => ua / 65536 + i)

/-- R360, R692: some byte of the access would complete with BAD_ADDRESS. -/
def State.tuBad (s : State) (f ua n : Nat) (km : Bool) : Bool :=
  decide (2 ^ 40 < ua + n) || (decide (0xEE00000000 < ua + n) && decide (ua < 0xEE10000000)) ||
    (pagesTouched ua n).any (fun q => s.pageBad f q km)

/-- The bytes of a page from its home: local ones are decrypted, and checked, and a neighbour's must have come. -/
def State.homeRead (s : State) (f ua n : Nat) (p : Page) : State × Tried (List Byte) :=
  let a := s.pageAddr p.home p.loc + ua % 65536
  if p.home = 3 then
    match s.takeFar f ua n p.loc with
    | (s, some bs) => (s, .done bs)
    | (s, none) => (s, .wait)
  else
    let (s, poison) := if p.home = 2 then s.mcRead (p.loc / s.chanPages) else s.cmRead a n
    if poison then (s.poisonBlk f ua, .wait)
    else if p.home = 2 ∧ (Map.find s.sx.memKeys f).isNone then
      let (s, bs) := s.freeBytes n
      (s, .done bs)
    else (s, .done (s.read a n))

/-- A read of `n` bytes within one page that some access reaches; local GDDR6 is waited for while it starts up (R660). -/
def State.readPage (s : State) (f ua n : Nat) : State × Tried (List Byte) :=
  let page := ua / 65536
  match s.page f page with
  | none => (s, .code Code.badAddress)
  | some p =>
    let bad := s.poisonIn f ua n
    if s.quarantined f ua then (s, .code Code.weightsLost)
    else if bad.any PoisonBlk.lost then (s, .code Code.memPoison)
    else if !bad.isEmpty then (s, .wait)
    else if p.home = 2 ∧ s.mcStage.isSome then (s, .wait)
    else if p.home = 0 then
      let (s, p) := s.touchPage f p
      (s.setPage f page p, .done (List.replicate n 0))
    else
      match s.homeRead f ua n p with
      | (s, .done bs) =>
        match s.page f page with
        | none => (s, .done bs)
        | some p =>
          let (s, p) := s.touchPage f p
          let (s, p) := s.countHit f page p
          (s.setPage f page p, .done bs)
      | r => r

/-- A read of `n` bytes of field `f`'s unified range, page by page; `fuel` bounds the pages. -/
def State.tuReadAux (s : State) (f ua n : Nat) : Nat → State × Tried (List Byte)
  | 0 => (s, .done [])
  | fuel + 1 =>
    if n = 0 then (s, .done [])
    else
      let k := min n (65536 - ua % 65536)
      match s.readPage f ua k with
      | (s, .done a) =>
        match s.tuReadAux f (ua + k) (n - k) fuel with
        | (s, .done b) => (s, .done (a ++ b))
        | r => r
      | r => r

/-- Every neighbour block of a stretch that has not come is asked for, and whether any is still missing. -/
def State.fetchAll (s : State) (f ua n : Nat) : State × Bool :=
  (pagesTouched ua n).foldl (fun (acc : State × Bool) q =>
    match acc.1.page f q with
    | none => acc
    | some p =>
      let lo := max ua (65536 * q)
      let len := min (ua + n) (65536 * (q + 1)) - lo
      if p.home = 3 ∧ (acc.1.poisonIn f lo len).isEmpty then
        let s := acc.1.askAll f lo len p.loc
        (s, acc.2 || (blocksOf lo len).any (fun b => (Map.find s.tu.fetched (blockKey f b)).isNone))
      else acc) (s, false)

/-- A read of the unified range (R361): whole, or with a code and nothing read (R692). `km` marks a reader that the KM windows
admit (R242). -/
def State.tuRead (s : State) (f ua n : Nat) (km : Bool) : State × Tried (List Byte) :=
  if s.tuBad f ua n km then (s, .code Code.badAddress)
  else
    match s.fetchAll f ua n with
    | (s, true) => (s, .wait)
    | (s, false) => s.tuReadAux f ua n (n / 65536 + 2)

/-- The page takes the home of its first write (R365, R366), reading zero. -/
def State.placeFirst (s : State) (f : Nat) (p : Page) : Option (State × Page) :=
  (s.firstHome f p.hint).map (fun r =>
    let p := { p with home := r.1, loc := r.2.1 }
    (if r.1 = 3 then r.2.2 else r.2.2.zero (r.2.2.pageAddr r.1 r.2.1) 65536, p))

/-- The bytes stored at a page's home. A commons page loses its shadow (R369); a neighbour's blocks are written whole, those
covered in part once they have been read, and a new page of it is written whole. -/
def State.storePage (s : State) (f ua : Nat) (bs : List Byte) (p : Page) (fresh : Bool) : State × Tried Unit :=
  let page := ua / 65536
  if p.home = 3 then
    let lo := if fresh then page * 65536 else ua / 64 * 64
    let n := if fresh then 65536 else (ua + bs.length + 63) / 64 * 64 - lo
    let whole := fresh || (ua % 64 == 0 && bs.length % 64 == 0)
    match (if whole then (s, some (List.replicate n 0)) else s.takeFar f lo n p.loc) with
    | (s, none) => (s, .wait)
    | (s, some old) =>
      let new := old.take (ua - lo) ++ bs ++ old.drop (ua - lo + bs.length)
      let (s, p) := s.touchPage f p
      ((s.setPage f page p).writeFar f lo p.loc new, .done ())
  else
    let (s, p) := s.touchPage f p
    let p := if p.home = 1 then { p with shadow := false } else p
    ((s.setPage f page p).write (s.pageAddr p.home p.loc + ua % 65536) bs, .done ())

/-- R352: a write of DM that covers only a part of a pair of a local page reads the pair and checks it. -/
def State.partialCheck (s : State) (f ua n : Nat) (p : Page) (w : Writer) : State × Bool :=
  match w with
  | .dm _ =>
    if p.home = 2 ∧ !(ua % 128 = 0 ∧ n % 128 = 0) then
      match s.mcRead (p.loc / s.chanPages) with
      | (s, true) => (s.poisonBlk f ua, true)
      | r => r
    else (s, false)
  | _ => (s, false)

/-- Bytes that a write must leave clean to go ahead: the pairs it touches, where it is DM's to a local page (R352), else the
blocks it covers in part. -/
def State.blocked (s : State) (f ua n : Nat) (p : Page) (w : Writer) : Bool :=
  let pair : Bool := match w with
    | .dm _ => p.home == 2
    | _ => false
  let lo := if pair then ua / 128 * 128 else ua
  let hi := if pair then (ua + n + 127) / 128 * 128 else ua + n
  (s.poisonIn f lo (hi - lo)).any (fun b =>
    !(decide (ua ≤ b.ua) && decide (b.ua + b.len ≤ ua + n)) && !(pair && decide (ua ≤ b.ua / 128 * 128) &&
      decide (b.ua / 128 * 128 + 128 ≤ ua + n)))

/-- A write within one page that some access reaches. A write to a page that is being copied is held; where it replaces poisoned
blocks it is made at once too. -/
def State.writePage (s : State) (f ua : Nat) (bs : List Byte) (w : Writer) : State × Tried Unit :=
  let page := ua / 65536
  match s.page f page with
  | none => (s, .code Code.badAddress)
  | some p =>
    if s.blocked f ua bs.length p w then (s, .code Code.memPoison)
    else if (p.home = 0 ∨ p.home = 2) ∧ s.mcStage.isSome then (s, .wait)
    else
      match s.partialCheck f ua bs.length p w with
      | (s, true) => (s, .code Code.memPoison)
      | (s, false) =>
        let replaces := !(s.poisonIn f ua bs.length).isEmpty
        let s := if p.holds then { s with tu := { s.tu with heldWrites := s.tu.heldWrites ++ [⟨f, ua, bs, w⟩] } } else s
        if p.holds && !replaces then (s, .done ())
        else
          match (if p.home = 0 then s.placeFirst f p else some (s, p)) with
          | none => (s, .code Code.tierFull)
          | some (s, q) =>
            match s.storePage f ua bs q (p.home = 0) with
            | (s, .done _) => (s.clearPoison f ua bs.length, .done ())
            | r => r

/-- A write of the unified range, page by page. -/
def State.tuWriteAux (s : State) (f ua : Nat) (bs : List Byte) (w : Writer) : Nat → State × Tried Unit
  | 0 => (s, .done ())
  | fuel + 1 =>
    if bs.isEmpty then (s, .done ())
    else
      let k := 65536 - ua % 65536
      match s.writePage f ua (bs.take k) w with
      | (s, .done _) => s.tuWriteAux f (ua + k) (bs.drop k) w fuel
      | r => r

/-- Every page that a write names admits it (R361, R692): some access reaches it, and it is not RO to this writer. -/
def State.writable (s : State) (f ua n : Nat) (w : Writer) : Option Nat :=
  if s.tuBad f ua n (w == .km) then some Code.badAddress
  else if (pagesTouched ua n).any (fun q => match s.objAt f (65536 * q) with
      | none => false
      | some o => o.2.ro && w != .weights) then some Code.tierRole
  else none

/-- The blocks of neighbour homes that a write covers only in part are read first. -/
def State.fetchEnds (s : State) (f ua n : Nat) : State × Bool :=
  let ends := (if ua % 64 = 0 then [] else [ua / 64 * 64]) ++ (if (ua + n) % 64 = 0 then [] else [(ua + n) / 64 * 64])
  ends.foldl (fun (acc : State × Bool) b =>
    let r := acc.1.fetchAll f b 64
    (r.1, acc.2 || r.2)) (s, false)

/-- A write of the unified range (R361): whole, or with a code and nothing written. -/
def State.tuWrite (s : State) (f ua : Nat) (bs : List Byte) (w : Writer) : State × Tried Unit :=
  match s.writable f ua bs.length w with
  | some c => (s, .code c)
  | none =>
    match s.fetchEnds f ua bs.length with
    | (s, true) => (s, .wait)
    | (s, false) => s.tuWriteAux f ua bs w (bs.length / 65536 + 2)

/-- KM reads or writes the commons only in the bank groups that its CONNECT record names (R126). -/
def State.kmReach (s : State) (a n : Nat) : Bool := inGroups (s.groups 38) a n

/-- A read of a place for KM's copies: the commons through KM's own connection (R126, R345), the unified range through TU. -/
def State.readPlace (s : State) (p : Place) (n : Nat) : State × Tried (List Byte) :=
  match p with
  | .commons a =>
    if !s.kmReach a n then (s, .code Code.badAddress)
    else match s.cmRead a n with
      | (s, true) => (s, .code Code.memPoison)
      | (s, false) => (s, .done (s.read a n))
  | .unified f ua => s.tuRead f ua n true

/-- A write of a place for KM's copies. -/
def State.writePlace (s : State) (p : Place) (bs : List Byte) : State × Tried Unit :=
  match p with
  | .commons a => if s.kmReach a bs.length then (s.write a bs, .done ()) else (s, .code Code.badAddress)
  | .unified f ua => s.tuWrite f ua bs .km

/-- One stretch copied. -/
def State.move (s : State) (m : Move) : State × Tried Unit :=
  match s.readPlace m.src m.len with
  | (s, .done bs) => s.writePlace m.dst bs
  | (s, .wait) => (s, .wait)
  | (s, .code c) => (s, .code c)

/-! ### Mapping and freeing pages -/

/-- TU maps the pages of KM's system object in a field's range, unbacked, with hint KVHINT (R243, R360, R365).
It fails when no leaf can be had. -/
def State.mapSystem (s : State) (f ua n : Nat) : Option State :=
  (pagesTouched ua n).foldl (fun acc q => acc.bind (fun s =>
    match s.page f q with
    | some _ => some s
    | none => (s.needLeaf f q).map (fun s => s.setPage f q (Page.fresh 4095 (s.getF (Reg.tuField f) 63 60))))) (some s)

/-- A location is leased to a reader. -/
def State.leased (s : State) (home loc : Nat) : Bool := s.tu.leases.any (fun l => l.home == home && l.loc == loc)

/-- A discarded page (R370): its home is free at once, or, with a lease out, once that is returned: MIG 5 until then. -/
def State.discard (s : State) (p : Page) : Option Page :=
  if p.home ≠ 0 ∧ s.leased p.home p.loc then
    some { p with busy := false, mig := 5, poison := false, pins := 0, shadow := false, shome := 0, sloc := 0, target := none }
  else none

/-- The pages of a stretch are discarded without write-back (R243, R387). -/
def State.dropPages (s : State) (f ua n : Nat) : State :=
  let lo := pageKey f (ua / 65536)
  let hi := pageKey f ((65535 + n + ua) / 65536)
  let s := s.voidFar (fun u => u.reads f ua n || u.writes f ua n)
  ({ s with tu := { s.tu with
      pages := s.tu.pages.filterMap (fun (p : Nat × Page) => if lo ≤ p.1 ∧ p.1 < hi then (s.discard p.2).map (fun q => (p.1, q)) else some p)
      pending := s.tu.pending.filter (fun p => !(decide (lo ≤ p.1) && decide (p.1 < hi)))
      poison := s.tu.poison.filter (fun b => !(b.field == f && decide (ua ≤ b.ua) && decide (b.ua < ua + n)))
      heldWrites := s.tu.heldWrites.filter (fun b => !(b.field == f && decide (ua ≤ b.ua) && decide (b.ua < ua + n)))
      fetched := s.tu.fetched.filter (fun b => !(decide (blockKey f ua ≤ b.1) && decide (b.1 < blockKey f (ua + n + 63)))) } }).trimLeaves

/-- TU holds no object, page or leaf, and nothing that belongs to one (R521). What its requests bring is not used. -/
def State.emptyTier (s : State) : State :=
  let s := s.voidFar (fun u => match u with
    | .tierRead _ _ => true
    | .tierWrite _ _ _ => true
    | .refetch _ _ => true
    | _ => false)
  { s with tu := { s.tu with
    objs := [], pages := [], leaves := [], poison := [], leases := [], heldWrites := [], pending := []
    op := none, fetched := [] } }

/-- Discarded pages of which no lease is out any more are gone (R370, R372). -/
def State.settleDrops (s : State) : State :=
  ({ s with tu := { s.tu with pages := s.tu.pages.filter (fun p => p.2.mig != 5 || s.leased p.2.home p.2.loc) } } : State).trimLeaves

/-! ### Migration (R368 to R373) -/

/-- The eviction rank of a hint (R365). -/
def hintRank (h : Nat) : Nat := if h = 1 then 2 else 1

/-- Use `a` lies before use `b`, 28-bit serials compared modulo half range (R367). -/
def usedBefore (a b : Nat) : Bool := decide (0 < (b + 2 ^ 28 - a) % 2 ^ 28) && decide ((b + 2 ^ 28 - a) % 2 ^ 28 < 2 ^ 27)

/-- The victim of a promotion (R368): an unpinned, idle, not shared commons page of the field, lowest rank first,
then oldest USE. -/
def State.victim (s : State) (f : Nat) : Option Nat :=
  let cands := s.tu.pages.filter (fun q => q.1 / 2 ^ 24 == f && q.2.home == 1 && q.2.mig == 0 && q.2.pins == 0 && !q.2.busy &&
    !((s.objAt f (65536 * (q.1 % 2 ^ 24))).any (fun o => o.2.shared)))
  (cands.foldl (fun (best : Option (Nat × Page)) q =>
    match best with
    | none => some q
    | some b =>
      if hintRank q.2.hint < hintRank b.2.hint ∨
        (hintRank q.2.hint = hintRank b.2.hint ∧ usedBefore q.2.use b.2.use) then some q else best) none).map Prod.fst

/-- A pending request for a page (R371): one of another kind replaces it, one of the same kind merges. -/
def State.requestMove (s : State) (f page home : Nat) : State :=
  { s with tu := { s.tu with pending := Map.put s.tu.pending (pageKey f page) home } }

/-- The pending request of a page is gone. -/
def State.clearRequest (s : State) (f page : Nat) : State :=
  { s with tu := { s.tu with pending := Map.del s.tu.pending (pageKey f page) } }

/-- The home to which a migration of the page would take it now (R366, R368, R369), with MIG. -/
def State.moveTarget (s : State) (f : Nat) (p : Page) (home : Nat) : Option (Nat × Nat × Nat × State) :=
  if home = 1 then (s.freeLoc 1 (s.waySlots f)).map (fun r => (1, 1, r.1, r.2))
  else if p.home = 1 then
    if p.shome ≠ 0 then some (2, p.shome, p.sloc, s)
    else (s.lowerHome f (home = 3)).map (fun r => (2, r.1, r.2.1, r.2.2))
  else if home = 2 then (s.localHome f).map (fun r => (3, 2, r.1, r.2))
  else (s.neighbourHome f).map (fun r => (3, 3, r.1, r.2))

/-- The page as an eviction with SHADOW set leaves it: nothing is copied (R369). -/
def Page.keeps (p : Page) : Bool := p.home == 1 && p.shadow

/-- The first reads and writes of a copy (R369, R390): a neighbour's blocks are asked for; a page on this device is read, and
where it goes to a neighbour it is written there, but for blocks under refetch. -/
def State.startCopy (s : State) (f page : Nat) (p : Page) (h l : Nat) : State :=
  let ua := 65536 * page
  if h ≠ 1 ∧ p.keeps then s
  else if p.home = 3 then s.askAll f ua 65536 p.loc
  else
    let a := s.pageAddr p.home p.loc
    let (s, poison) := if p.home = 2 then s.mcRead (p.loc / s.chanPages) else s.cmRead a 65536
    let s := if poison then s.poisonBlk f ua else s
    if h = 3 then
      ((blocksOf ua 65536).filter (fun b => !(s.poisonIn f b 64).any (fun c => !c.lost))).foldl (fun s b =>
        s.writeFar f b l (s.read (a + b % 65536) 64)) s
    else s

/-- A migration of the page to a requested home starts (R369 to R373): BUSY, MIG, and the target. A promotion
into full ways asks for a victim's eviction and stays pending, or is dropped when there is no victim. -/
def State.startMove (s : State) (f page : Nat) (p : Page) (home : Nat) : State :=
  if p.home = 0 ∨ p.home = home then s.clearRequest f page
  else if home ≠ 1 ∧ 0 < p.pins then s
  else match s.moveTarget f p home with
    | some (mig, h, l, s) =>
      ((s.setPage f page { p with busy := true, mig := mig, target := some (h, l) }).clearRequest f page).startCopy f page p h l
    | none =>
      if home ≠ 1 then s.clearRequest f page
      else match s.victim f with
        | none => s.clearRequest f page
        | some k => s.requestMove (k / 2 ^ 24) (k % 2 ^ 24) 2

/-- `n` bytes copied from `src` to `dst`. -/
def State.copyMem (s : State) (src dst n : Nat) : State :=
  let cells := s.mem.filter (fun c => decide (src ≤ c.1) && decide (c.1 < src + n))
  { s with mem := memPlace s.mem dst n (cells.map (fun c => (c.1 - src + dst, c.2))) }

/-- The held writes of a page are applied at its home in arrival order, and then BUSY clears (R371). One that must first read a
neighbour's block waits, and those after it. -/
def State.applyHeld (s : State) (f page : Nat) : Nat → State
  | 0 => s
  | fuel + 1 =>
    match s.page f page with
    | none => s
    | some p =>
      match s.tu.heldWrites.find? (fun w => w.field == f && w.ua / 65536 == page) with
      | none => s.setPage f page { p with busy := false, mig := 0 }
      | some w =>
        match s.storePage f w.ua w.data p false with
        | (s, .done _) =>
          ({ s with tu := { s.tu with heldWrites := s.tu.heldWrites.erase w } } : State).applyHeld f page fuel
        | (s, _) => s

/-- The page's bytes at its home are all here and its blocks clean: the copy can complete (R370, R376). A lost block stays
poisoned and is not waited for. -/
def State.copyReady (s : State) (f page : Nat) (p : Page) : Bool :=
  let ua := 65536 * page
  !(s.poisonIn f ua 65536).any (fun b => !b.lost) && !s.farAny (fun u => u.writes f ua 65536) &&
    (p.home != 3 || (blocksOf ua 65536).all (fun b => (Map.find s.tu.fetched (blockKey f b)).isSome || !(s.poisonIn f b 64).isEmpty))

/-- A copy whose bytes are all here has been written at the new home. -/
def State.finishCopy (s : State) (f page : Nat) (p : Page) (h l : Nat) : State :=
  let ua := 65536 * page
  if h = 3 ∨ (h ≠ 1 ∧ p.keeps) then s
  else if p.home = 3 then
    (s.useFetched f ua 65536).write (s.pageAddr h l)
      ((blocksOf ua 65536).flatMap (fun b => Map.get s.tu.fetched (blockKey f b) (List.replicate 64 0)))
  else s.copyMem (s.pageAddr p.home p.loc) (s.pageAddr h l) 65536

/-- An evacuation of the neighbour entry of a location waits (R357). -/
def State.evacuating (s : State) (loc : Nat) : Bool :=
  match s.tu.op with
  | some (_, _, .evacuate n) => loc / 2 ^ 25 == n
  | _ => false

/-- The switch that ends a copy (R369, R370, R371): one descriptor update; then held writes apply and BUSY clears. A promotion
out of an entry that is being evacuated leaves no shadow there. -/
def State.switchMove (s : State) (f page : Nat) (p : Page) (h l : Nat) : State :=
  let s := s.finishCopy f page p h l
  let up := p.copying = 1 ∧ !(p.home = 3 ∧ s.evacuating p.loc)
  let q : Page := { p with
    home := h, loc := l, target := none, mig := 0, shadow := up
    shome := if up then p.home else 0
    sloc := if up then p.loc else 0
    hits := if p.copying = 1 then 0 else p.hits }
  let s := (s.setPage f page q).bump (Reg.tuFcnt f) 31 0 48 1 (some f)
  let s := if p.home = 3 ∧ p.copying = 1 ∧ s.evacuating p.loc then s.clearRequest f page else s
  s.applyHeld f page (s.tu.heldWrites.length + 1)

/-- A migration is abandoned (R563): the page stays in its old home, where held writes apply. -/
def State.abandonMove (s : State) (f page : Nat) (p : Page) : State :=
  let s := s.voidFar (fun u => u.writes f (65536 * page) 65536)
  (s.setPage f page { p with target := none, mig := if p.mig = 4 then 4 else 0 }).applyHeld f page (s.tu.heldWrites.length + 1)

/-- A write of blocks to a neighbour is refused or goes unanswered (R355, R563): a copy to it is abandoned, and blocks of a page
that lies there are as if uncorrectable. -/
def State.farWriteFailed (s : State) (f ua n : Nat) : State :=
  match s.page f (ua / 65536) with
  | none => s
  | some p =>
    match p.target with
    | some (3, _) => s.abandonMove f (ua / 65536) p
    | _ => if p.home = 3 then (blocksOf ua n).foldl (fun s b => s.poisonBlk f b) s else s

/-- Clean bytes are stored at the home of the page they belong to, and at a neighbour to which it is being copied; the entries
that they complete are cleared, and the steps that read them replay (R370, R376, R378). -/
def State.cleanBytes (s : State) (f ua : Nat) (bs : List Byte) : State :=
  match s.page f (ua / 65536) with
  | none => s
  | some p =>
    let s := if p.home = 3 then s.writeFar f ua p.loc bs else s.write (s.pageAddr p.home p.loc + ua % 65536) bs
    let s := match p.target with
      | some (3, l) => s.writeFar f ua l bs
      | some _ => if p.home = 3 then s.putFetched f ua bs else s
      | none => s
    (s.clearPoison f ua bs.length).wake

/-! ### The furrow (R379 to R385) -/

/-- Segments of the furrow. -/
def State.segments (s : State) : Nat :=
  if s.part.segment = 0 then 0 else s.part.furrow.banks / s.part.segment

/-- Bytes of a segment. -/
def State.segBytes (s : State) : Nat := 0x200000 * s.part.segment

/-- The commons address of segment `k`. -/
def State.segAddr (s : State) (k : Nat) : Nat := s.part.furrow.base + k * s.segBytes

/-- Entry `e` of a sowing list: SRC, LEN, SEG, FLAGS, READS and its reserved bits (R380). -/
def State.sowEntry (s : State) (list e : Nat) : Nat × Nat × Nat × Nat × Nat :=
  let b := s.read (list + 16 * e) 16
  (fld b 0 8, fld b 8 4, fld b 12 1, fld b 13 1, fld b 14 2)

/-- TU's check of a sowing list at bind (R380). -/
def State.sowOk (s : State) (list entries : Nat) : Bool :=
  decide (1 ≤ entries) && decide (entries ≤ 65536) && decide (list % 64 = 0) && s.part.scratch.holds list (16 * entries) &&
  (List.range entries).all (fun e =>
    match s.sowEntry list e with
    | (src, len, seg, flags, reads) =>
      decide (src % 64 = 0) && decide (src + len ≤ 2 ^ 40) && decide (64 ≤ len) && decide (len % 64 = 0) &&
      decide (len ≤ s.segBytes) && decide (seg < s.segments) &&
      decide (flags = (if e + 1 = entries then 1 else 0)) && decide (1 ≤ reads))

/-- The state of a segment: FREE, FILLING or FILLED. -/
def Sowing.isFree (w : Sowing) (k : Nat) : Bool :=
  !(w.flight.any (fun p => p.2 == k)) && !(w.filled.any (fun p => p.1 == k))

/-- TU binds a list to a context: every segment is discarded and filling begins at entry 0 (R385). -/
def State.bindSow (s : State) (c list entries : Nat) : State :=
  { s with tu := { s.tu with sow := some ⟨c, list, entries, 0, [], []⟩ } }

/-- A rewind (R384): every segment FREE, fills in flight and reports still owed discarded, restart at entry 0. A command that
runs or is suspended reports no segment that it has begun to read. -/
def State.rewind (s : State) : State :=
  match s.tu.sow with
  | none => s
  | some w =>
    let quiet (r : Running) : Running := { r with furrow := [] }
    { s with
      tu := { s.tu with sow := some { w with next := 0, flight := [], filled := [] } }
      engines := s.engines.map (fun g => { g with running := g.running.map quiet })
      dx := { s.dx with ctxs := s.dx.ctxs.map (fun q => (q.1, { q.2 with running := q.2.running.map (fun j =>
        { j with strands := j.strands.map (fun t => { t with held := t.held.map quiet }) }) })) } }

/-- TU starts the next entry when its segment is FREE and fewer than two fills are in flight (R381). -/
def State.startFill (s : State) : State :=
  match s.tu.sow with
  | none => s
  | some w =>
    match s.sowEntry w.list w.next with
    | (_, _, seg, _, _) =>
      if w.flight.length < 2 ∧ w.isFree seg then
        let nxt := if w.next + 1 = w.entries then 0 else w.next + 1
        { s with tu := { s.tu with sow := some { w with next := nxt, flight := w.flight ++ [(w.next, seg)] } } }
      else s

/-- A consumer report of segment `k` (R382): after READS reports it is FREE. -/
def State.consume (s : State) (k : Nat) : State :=
  { s with tu := { s.tu with sow := s.tu.sow.map (fun w => { w with
      filled := w.filled.filterMap (fun p => if p.1 = k then (if p.2.1 ≤ 1 then none else some (k, p.2.1 - 1, p.2.2)) else some p) }) } }

end Sys2Proof.Machine
end

