-- ==== Sys2Proof/Machine/Engine.lean ====
section
/-!
DEFINITION. What the operators of every engine share: the command a strand meets, injection of its checks (R607),
the pairing and checks of a quantisation group (R91, R693), the reaction to a failed group (R90, R92, R94), the
calibration watch (R95 to R98), writes of packed rows, and the start of a running command.
-/
namespace Sys2Proof.Machine

/-! ### The command met -/

/-- What an operator computes under: engine, context, field, image seed, step number, header and code map. -/
structure Env where
  eng : Nat
  ctx : Nat
  field : Nat
  seed : Nat
  step : W32
  h : Hdr
  map : Option Nat
  /-- the enabled watches that match the command: watch and channel -/
  watches : List (Nat × Nat)
  deriving DecidableEq, Repr

/-- The draw of an output (R77). -/
def Env.draw (v : Env) (r e : Nat) : Nat := drill v.seed v.ctx v.step (v.h.drillKey r) (e % 4294967296)

/-- The watches of engine `e` that count outputs of drill key `key` in field `f` (R95). -/
def State.watchesOf (s : State) (e key f : Nat) : List (Nat × Nat) :=
  if s.getF (Reg.quCtl e) 16 16 = 0 then []
  else (List.range 64).filterMap (fun n =>
    let w := s.reg (Reg.quWatch e n)
    if bit w 63 ∧ bits w 47 32 = key ∧ bits w 50 48 = f then some (n, bits w 15 0) else none)

/-- A compute command that a strand meets: context, its record, the job, the strand, the environment, and the
operand words. -/
structure Met where
  c : Nat
  x : Ctx
  j : JobRun
  t : Strand
  v : Env
  ops : List Nat
  word : Nat

/-- Operand words of a group, read from the tape area. -/
def State.operands (s : State) (t : Strand) (n : Nat) : List Nat :=
  (List.range n).map (fun i => (s.tapeWord t.tape (t.pc + 1 + i)).getD 0)

/-- The command of operator `op` on a tape of `kind` that engine `e`'s strand meets, with the number of operand
words that precede an M word. -/
def State.met (s : State) (e kind op base : Nat) : Option Met :=
  match s.meets e 1 with
  | none => none
  | some (c, x, j, t, h) =>
    let hd := Hdr.of h
    if hd.op = op ∧ engineKind e = kind ∧ s.tapeKind t.tape = kind ∧ t.held.isNone then
      let ops := s.operands t hd.words
      let m := if hd.words = base + 1 ∧ kind ≤ 2 then some (opWord ops base) else none
      some ⟨c, x, j, t, ⟨e, c, x.field, (s.image.map Image.seed).getD 0, x.step, hd, m,
        s.watchesOf e hd.key x.field⟩, ops, h⟩
    else none

/-- The strand waits, holding its engine. -/
def State.block (s : State) (m : Met) (w : Wait) : State :=
  (s.updStrand m.c m.t.sid (fun t => { t with wait := some w })).observe m.c

/-- Commons ranges that a command of context `c` may have written are noted with its job (R172). -/
def State.recordOut (s : State) (c : Nat) (l : List (Nat × Nat)) : State :=
  s.updRun c (fun j => { j with wrote := l.foldl (fun w r => if w.contains r then w else w ++ [r]) j.wrote })

/-- The commons ranges that the command writes. -/
def Met.outs (m : Met) : List (Nat × Nat) := outRanges (engineKind m.v.eng) m.v.h m.ops

/-- The command has ended: it runs no more, and it is counted with what it waited. -/
def State.endCmd (s : State) (m : Met) : State :=
  ((s.recordOut m.c m.outs).dropRun m.v.eng).bump32 (Reg.engCmds m.v.eng) 1 none

/-- The command has ended with a code: it is counted, and its job ends (R422). -/
def State.failCmd (s : State) (m : Met) (code : Nat) : State := (s.endCmd m).endJob m.c code

/-- The command as it starts to run. -/
def Met.running (m : Met) (furrow : List Nat) : Running where
  tape := m.t.tape
  word := m.t.pc
  next := m.t.pc + 1 + m.v.h.words
  preempt := m.v.h.preempt
  bound := m.v.h.bound
  furrow := furrow
  overrun := false
  raised := 0
  got := []
  waited := m.t.wait.any (Wait.counts m.v.eng)
  pushLo := 0
  pushHi := 0
  ackLo := 0
  ackHi := 0

/-- The command runs on its engine until COMMAND_END (R192), with its P bit and BOUND. -/
def State.startRun (s : State) (m : Met) (furrow : List Nat) : State :=
  ((s.recordOut m.c m.outs).updStrand m.c m.t.sid (fun t => { t with wait := none })).updEngine m.v.eng
    (fun g => { g with running := some (m.running furrow) })

/-- The running record of engine `e` changed. -/
def State.updRunning (s : State) (e : Nat) (g : Running → Running) : State :=
  s.updEngine e (fun q => { q with running := q.running.map g })

/-! ### Detectors of an engine (R607) -/

/-- The accesses that a command makes: check bits of the mask, on units below `units`, whose number the INJECT
register of the engine holds in bits [10:8]. Armed injections among them are detected as real errors (R605). -/
def State.engChecks (s : State) (v : Env) (mask units : Nat) : State :=
  let inj := Reg.engInject v.eng
  if units ≤ s.getF inj 10 8 then s
  else (List.range 4).foldl (fun s k =>
    if bit mask k then s.check inj (Reg.engErr v.eng) k v.eng (some (v.ctx, v.step)) else s) s

/-! ### Reads and writes of the commons -/

/-- The commons bytes that a command reads, its operand words first, are read. A command of which any read or write lies outside
the bank groups that its engine's CONNECT record names (R126), or touches the state store on an engine other than SE (R281),
ends with BAD_ADDRESS. A word found uncorrectable ends the job with MEM_POISON, or, in the furrow, which TU refills, replays the
step (R345, R376; log 34). -/
def State.readRanges (s : State) (m : Met) (ranges : List (Nat × Nat)) : Option State × State :=
  let bad := (ranges ++ m.outs).any (fun r => !inGroups (s.groups m.v.eng) r.1 r.2 ||
    (engineKind m.v.eng != 2 && s.part.store.touches r.1 r.2))
  if bad then (some (s.failCmd m Code.badAddress), s)
  else
    let operands := (s.tapeDir m.t.tape).toList.map (fun d => (d.base + 8 * (m.t.pc + 1), 8 * m.v.h.words))
    let r := (operands ++ ranges).foldl (fun (acc : State × Option Nat) p =>
      let (s, poison) := acc.1.cmRead p.1 p.2
      (s, if poison then some p.1 else acc.2)) (s, none)
    match r with
    | (s, none) => (none, s)
    | (s, some a) =>
      let f := s.part.furrow
      if f.holds a 1 then (some ((s.dropRun m.v.eng).replayStep m.c), s) else (some (s.failCmd m Code.memPoison), s)

/-- The commons ranges of `n` bytes from furrow offset `off`, which wrap modulo the furrow's size (R182). -/
def State.furrowRanges (s : State) (off n : Nat) : List (Nat × Nat) :=
  let f := s.part.furrow
  if f.size = 0 then []
  else
    let o := off % f.size
    if o + n ≤ f.size then [(f.base + o, n)] else [(f.base + o, f.size - o), (f.base, min f.size (n - (f.size - o)))]

/-- The furrow segments that `n` bytes from offset `off` touch. -/
def State.furrowSegs (s : State) (off n : Nat) : List Nat :=
  (List.range s.segments).filter (fun k => (s.furrowRanges off n).any (fun r =>
    decide (r.1 < s.segAddr k + s.segBytes) && decide (s.segAddr k < r.1 + r.2)))

/-- A stretch of a stream cut where it goes from one furrow segment into the next: offset and length of each piece. -/
def cutSegs (seg off n : Nat) : List (Nat × Nat) :=
  if seg = 0 then []
  else (List.range ((off + n + seg - 1) / seg - off / seg)).map (fun i =>
    let a := max off ((off / seg + i) * seg)
    (a, min (off + n) ((off / seg + i + 1) * seg) - a))

/-- `n` bytes of a stream from commons address or furrow offset `a`. -/
def State.streamRead (s : State) (fur : Bool) (a n : Nat) : List Byte :=
  if fur then
    let f := s.part.furrow
    if f.size = 0 then List.replicate n 0
    else (List.range n).map (fun i => s.byte (f.base + (a + i) % f.size))
  else s.read a n

/-- The named segments are not all FILLED for the context (R382): the command waits on them. -/
def State.furrowWait (s : State) (c : Nat) (segs : List Nat) : Bool :=
  match s.tu.sow with
  | none => true
  | some w => w.ctx != c || segs.any (fun k => !(w.filled.any (fun p => p.1 == k)))

/-- Element `n` of the 4-bit row at `a` set to a code. -/
def State.putNibble (s : State) (a n code : Nat) : State :=
  let old := (s.byte (a + n / 2)).toNat
  s.write (a + n / 2) [BitVec.ofNat 8 (if n % 2 = 0 then old / 16 * 16 + code % 16 else code % 16 * 16 + old % 16)]

/-- Codes written from element `n` on of a row of `total` 4-bit elements; the tail position of the row's last byte
takes the tail code (R64, R66). -/
def State.putRow (s : State) (a n total : Nat) (codes : List Nat) : State :=
  let s := (List.range codes.length).foldl (fun s i => s.putNibble a (n + i) ((codes[i]?).getD 0)) s
  if n + codes.length = total ∧ total % 2 = 1 then s.putNibble a total 0 else s

/-- 32-bit accumulators at `a`. -/
def State.words (s : State) (a n : Nat) : List Int := (chunksOf 4 n (s.read a (4 * n))).map (fun b => signed 32 (leNat b))

/-- The lane values of `n` 4-bit elements at `a`. -/
def State.lanes (s : State) (fmt a n : Nat) : List Int :=
  let b := s.read a (ceilDiv n 2)
  (List.range n).map (fun i => lane4 fmt (nibble b i))

/-! ### The calibration watch (R95 to R98) -/

/-- Watch `n` of engine `e` counts one output of field `f`, saturated or not (R96, R98). A THRESH lowered to or below a count that
stands already raises CAL_DRIFT with the next saturated output (log 74). -/
def State.countWatch (s : State) (e n f : Nat) (sat : Bool) : State :=
  let a := Reg.quSatcnt e n
  let p := Map.get (s.engine e).prescale n 0 + 1
  let s := s.updEngine e (fun g => { g with prescale := if p = 256 then Map.del g.prescale n else Map.put g.prescale n p })
  let s := if p = 256 then s.bump a 31 16 33 1 (some f) else s
  if sat then
    let s := s.bump a 15 0 32 1 (some f)
    let thresh := s.getF (Reg.quCtl e) 15 0
    if thresh ≠ 0 ∧ thresh ≤ s.getF a 15 0 ∧ !(s.engine e).drifted.contains n then
      let w := s.reg (Reg.quWatch e n)
      let items := natLE 1 e ++ natLE 1 n ++ natLE 2 (bits w 47 32) ++ natLE 2 (bits w 15 0)
      let s := (s.setF (Reg.quDrift e) n n 1).updEngine e (fun g => { g with drifted := g.drifted ++ [n] })
      (s.post Code.calDrift e f items).postOwner Code.calDrift e items
    else s
  else s

/-- One written output of channel `chan`: it is counted in every watch that selects it, and its code, mapped by M,
is answered (R75, R96, R188). -/
def State.emit (s : State) (v : Env) (chan fmt : Nat) (o : Output) : State × Nat :=
  let s := match o.t with
    | none => s
    | some t => v.watches.foldl (fun s w =>
        if w.2 = chan then s.countWatch v.eng w.1 v.field (saturated fmt t) else s) s
  (s, applyMap v.map (laneCode fmt o.q))

/-- A row of outputs emitted in ascending channel order: `f i` is output `i`. -/
def State.emitRow (s : State) (v : Env) (chan fmt n : Nat) (f : Nat → Output) : State × List Nat :=
  (List.range n).foldl (fun (acc : State × List Nat) i =>
    let (s, c) := acc.1.emit v (chan + i) fmt (f i)
    (s, acc.2 ++ [c])) (s, [])

/-! ### Quantisation groups (R91, R693) -/

/-- How a group fails: a skew with both tags, WEIGHT_SHAPE, or BAD_SCALE. -/
inductive GroupFault where
  | skew (stag dtag : Nat)
  | shape
  | badScale
  deriving DecidableEq, Repr

/-- The checks of one group in the order of R693: its expected tag, its scale block and its data group where the
command reads them, the channel count and first channel it expects, the row length, and what its records feed.
It answers the channel records. -/
def checkGroup (tag : Nat) (scale data : Option (List Byte)) (count first : Nat) (rowlen : Option Nat) (fmt : RecFmt) :
    Except GroupFault (List ChanRec) :=
  let sh := scale.map Head.ofBytes
  let dh := data.map Head.ofBytes
  let stag := (sh.map Head.tag).getD tag
  let dtag := (dh.map Head.tag).getD tag
  let fits (h : Head) : Bool := h.count + 1 == count && h.first == first
  let agree := match sh, dh with
    | some a, some b => a.count == b.count && a.first == b.first
    | _, _ => true
  if stag ≠ tag ∨ dtag ≠ tag ∨ !agree then .error (.skew stag dtag)
  else if !(match dh, sh with
      | some d, _ => fits d && (match rowlen with | none => true | some k => d.rowlen == k)
      | none, some h => fits h
      | none, none => true) then .error .shape
  else
    let recs := match scale with
      | none => []
      | some b => (chunksOf 8 count (slice b 64 (8 * count))).map ChanRec.ofBytes
    if recs.all (fun r => r.usable fmt) then .ok recs else .error .badScale

/-- The tag of group `i` (R86). -/
def Env.tag (v : Env) (i : Nat) : Nat := (v.h.t0 + i) % 64

/-- A skew takes a replay from the step's allowance (R92, R94, R612), counted in FC.CNT.REPLAYS. -/
def State.skewReplay (s : State) (c : Nat) : State :=
  ((s.updRun c (fun j => { j with replays := j.replays + 1, skewed := true })).bump Reg.fcCnt 31 16 49 1 none).replayStep c

/-- The reaction to group `i` failing (R90, R92, R94, R185). -/
def State.groupFault (s : State) (m : Met) (i : Nat) (g : GroupFault) : State :=
  let e := m.v.eng
  match g with
  | .shape => s.failCmd m Code.weightShape
  | .badScale => (s.setF (Reg.quStatus e) 2 2 1).failCmd m Code.badScale
  | .skew a b =>
    if m.j.skewed then (s.setF (Reg.quStatus e) 1 1 1).failCmd m Code.scaleSkew
    else
      let items := natLE 1 e ++ natLE 4 i ++ natLE 1 a ++ natLE 1 b
      let s := (s.setF (Reg.quStatus e) 0 0 1).bump16 (Reg.quSynccnt e) 1 none
      let s := (s.post Code.quSync e m.v.field items).postOwner Code.quSync e items
      if m.j.replays < 2 then (s.endCmd m).skewReplay m.c
      else (s.setF (Reg.quStatus e) 1 1 1).failCmd m Code.scaleSkew

/-- What an operator leaves: the state, and the group that failed, if one did. -/
abbrev OpResult := State × Option (Nat × GroupFault)

/-- The end of an operator: the command runs on, or its failed group is handled. -/
def State.finishOp (m : Met) (furrow : List Nat) (r : OpResult) : State :=
  match r with
  | (s, none) => s.startRun m furrow
  | (s, some (i, g)) => s.groupFault m i g

/-- Groups worked in order until one fails: `f s i` works group `i`. -/
def runGroups (f : State → Nat → OpResult) (s : State) (i : Nat) : Nat → OpResult
  | 0 => (s, none)
  | n + 1 =>
    match f s i with
    | (s, none) => runGroups f s (i + 1) n
    | r => r

/-- A compute command outside an open step ends its job with OPEN_STEP (R160). -/
def State.withStep (s : State) (m : Met) (f : State → State) : State :=
  if m.j.open_.isNone then s.endJob m.c Code.openStep else f s

end Sys2Proof.Machine
end

