-- ==== Sys2Proof/Machine/Kv.lean ====
section
/-!
DEFINITION. The KV manager (chapter 8): frames and the free list, page tables and KV records, flushes and held
edits, the prefix tree, and KM's host operations.
-/
namespace Sys2Proof.Machine

/-! ### Frames (R241 to R246) -/

/-- The unified address of frame `fr` (R241). -/
def State.frameUa (s : State) (fr : Nat) : Nat := 0xF000000000 + fr * s.frameBytes

/-- The descriptor of a frame that has not been written since image load: free, linked to the next (R245). -/
def FrameDesc.initial (fr : Nat) : FrameDesc :=
  ⟨0, 0, false, false, false, false, fr == 65535, 0, if fr = 65535 then 0 else fr + 1⟩

/-- The descriptor of frame `fr`. -/
def State.desc (s : State) (fr : Nat) : FrameDesc := Map.get s.km.descs fr (FrameDesc.initial fr)

/-- The descriptor of frame `fr` set. -/
def State.setDesc (s : State) (fr : Nat) (d : FrameDesc) : State :=
  { s with km := { s.km with descs := Map.put s.km.descs fr d } }

/-- The descriptor of frame `fr` changed. -/
def State.updDesc (s : State) (fr : Nat) (g : FrameDesc → FrameDesc) : State := s.setDesc fr (g (s.desc fr))

/-- KM's parity checks (R274): 0 descriptors, 1 nodes, 2 records. -/
def State.kmCheck (s : State) (k : Nat) : State := s.check Reg.kmInject Reg.kmErr k 38 none

/-- HELD of R246: the frames a field holds. -/
def State.heldFrames (s : State) (f : Nat) : Nat := (s.km.descs.filter (fun p => p.2.held && p.2.field == f)).length

/-- R246: field `f` may take a frame from the free list. -/
def State.mayTakeFrame (s : State) (f : Nat) : Bool :=
  match s.fieldRec f with
  | none => false
  | some r =>
    let held := s.heldFrames f
    decide (0 < s.km.free) && decide (held < r.frameLimit) &&
      (decide (held < r.headland) ||
        decide (((s.fields.filter (fun g => g.id != f)).map (fun g => g.headland - s.heldFrames g.id)).sum < s.km.free))

/-- The head of the free list taken for field `f` (R245, R246), its pages mapped (R243); REFS is left to the caller.
None where R246 refuses, or TU has no page for the leaf directory. -/
def State.takeFrame (s : State) (f : Nat) : Option (Nat × State) :=
  if s.mayTakeFrame f then
    let fr := s.km.head
    let d := s.desc fr
    match s.mapSystem f (s.frameUa fr) s.frameBytes with
    | none => none
    | some s =>
      let s := s.setDesc fr ⟨1, f, true, false, false, false, false, 0, 0⟩
      some (fr, ({ s with km := { s.km with free := s.km.free - 1, head := if d.last then 0 else d.link } }).kmCheck 0)
  else none

/-- The frame joins the head of the free list and its pages are discarded (R243, R245). -/
def State.releaseFrame (s : State) (fr : Nat) : State :=
  let s := s.dropPages (s.desc fr).field (s.frameUa fr) s.frameBytes
  let s := s.setDesc fr ⟨0, 0, false, false, false, false, s.km.free == 0, 0, if s.km.free = 0 then 0 else s.km.head⟩
  ({ s with km := { s.km with free := s.km.free + 1, head := fr } }).kmCheck 0

/-! ### KV records (R249) -/

/-- The KV record of context `c`. -/
def State.kv (s : State) (c : Nat) : KvRec := Map.get s.km.recs c ⟨0, 0, false, false, 0, 0, false⟩

/-- The KV record of context `c` changed. -/
def State.updKv (s : State) (c : Nat) (g : KvRec → KvRec) : State :=
  { s with km := { s.km with recs := Map.put s.km.recs c (g (s.kv c)) } }

/-- L of R249. -/
def KvRec.linked (r : KvRec) : Nat := r.tc / 64 - (if r.flush = 0 then 0 else if r.both then 2 else 1)

/-- R250: the half that holds block `k`, at or beyond L. -/
def KvRec.halfOf (r : KvRec) (k : Nat) : Nat :=
  if r.flush = 0 then (if k = r.linked then r.half else 1 - r.half)
  else if k = r.linked then 1 - r.half else r.half

/-- The frame that leaf entry `k` of context `c` names: what KM last wrote there (R247, R248; log 35). -/
def State.entry (s : State) (c k : Nat) : Option Nat := Map.find s.km.table (1024 * c + k)

/-- The table block of context `c` (R241): its unified address. -/
def tableUa (c : Nat) : Nat := 0xEF00000000 + 0x2000 * c

/-- A leaf entry, as its word (R247). -/
def leafWord (e : Option Nat) : Nat := (e.map (fun fr => 2 ^ 31 + fr)).getD 0

/-- The directory entry of a leaf that holds `n` valid entries (R247). -/
def dirWord (n : Nat) : Nat := if n = 0 then 0 else 2 ^ 31 + n

/-- Valid entries of leaf `j` of context `c`. -/
def State.leafCount (s : State) (c j : Nat) : Nat :=
  (s.km.table.filter (fun p => decide (1024 * c + 32 * j ≤ p.1) && decide (p.1 < 1024 * c + 32 * (j + 1)))).length

/-- Leaf entry `k` of context `c` is to name a frame, or none (R247, R248): KM writes its word and its directory entry's COUNT
through TU, which maps the table page when KM first writes it (R360). -/
def State.putEntry (s : State) (c k : Nat) (e : Option Nat) : State × Tried Unit :=
  match s.ctxField c with
  | none => (s, .done ())
  | some f =>
    match s.mapSystem f (tableUa c) 0x2000 with
    | none => (s, .code Code.tierFull)
    | some s =>
      let s := { s with km := { s.km with table := match e with
        | some fr => Map.put s.km.table (1024 * c + k) fr
        | none => Map.del s.km.table (1024 * c + k) } }
      match s.tuWrite f (tableUa c + (4096 + 128 * (k / 32) + 4 * (k % 32))) (natLE 4 (leafWord e)) .km with
      | (s, .done _) => s.tuWrite f (tableUa c + 4 * (k / 32)) (natLE 4 (dirWord (s.leafCount c (k / 32)))) .km
      | r => r

/-- Leaf entry `k` of context `c` cleared. Its page has its home already. -/
def State.clearEntry (s : State) (c k : Nat) : State :=
  let s := (s.putEntry c k none).1
  { s with km := { s.km with table := Map.del s.km.table (1024 * c + k) } }

/-! ### Prefix nodes (R261 to R266) -/

/-- A node that names frame `fr` or has index `ix` is out of the tree: its parent loses a child. -/
def State.unlinkNode (s : State) (ix : Nat) (n : Node) : State :=
  ({ s with km := { s.km with
    nodes := Map.upd (Map.del s.km.nodes ix) n.parent (fun q => { q with children := q.children - 1 }) } }).kmCheck 1

/-- Nodes of a field. -/
def State.nodeCount (s : State) (f : Nat) : Nat := (s.km.nodes.filter (fun p => p.2.field == f)).length

/-- R266: the node may be reclaimed. -/
def State.reclaimable (s : State) (n : Node) : Bool := n.children == 0 && (s.desc n.frame).refs == 1

/-- The field's reclaimable node with the oldest USE, compared modulo half range (R264, R266). -/
def State.oldestNode (s : State) (f : Nat) : Option (Nat × Node) :=
  (s.km.nodes.filter (fun p => p.2.field == f && s.reclaimable p.2)).foldl (fun (best : Option (Nat × Node)) p =>
    match best with
    | none => some p
    | some b => if atOrAfter p.2.use b.2.use then best else some p) none

/-- Reclaim gives the oldest node's frame straight to a flush (R255): the frame is freed and taken again by the same
field, its pages mapped afresh. -/
def State.reclaimFrame (s : State) (f : Nat) : Option (Nat × State) :=
  match s.oldestNode f with
  | none => none
  | some (ix, n) =>
    let s := (s.unlinkNode ix n).bump (Reg.kmFcnt f) 31 16 49 1 (some f)
    let s := s.dropPages f (s.frameUa n.frame) s.frameBytes
    match s.mapSystem f (s.frameUa n.frame) s.frameBytes with
    | none => none
    | some s => some (n.frame, (s.setDesc n.frame ⟨1, f, true, false, false, false, false, 0, 0⟩).kmCheck 0)

/-! ### Flushes (R254 to R257) -/

/-- KM's copier takes the flush of context `c` into frame `fr`. -/
def State.queueFlush (s : State) (c fr : Nat) : State :=
  { s with km := { s.km with copier := s.km.copier ++ [.flush c fr false] } }

/-- A starved context receives a frame: FLUSH 1, its flush, and PAGE_GRANTED (R257). -/
def State.grantFrame (s : State) (c f fr : Nat) : State :=
  let s := { s with km := { s.km with starved := s.km.starved.filter (fun x => x != c) } }
  let s := (s.updKv c (fun r => { r with flush := 1 })).queueFlush c fr
  (((s.post Code.pageGranted 38 f (natLE 2 c)).postOwner Code.pageGranted 38 (natLE 2 c)).observe c)

/-- A frame that field `own` has freed is offered to the starved contexts in the order they starved, under R246; a context of
`own` is retried by reclaim too (R257). -/
def State.offerFrame (s : State) (own : Nat) : List Nat → State
  | [] => s
  | c :: cs =>
    match s.ctxField c with
    | none => s.offerFrame own cs
    | some f =>
      match (s.takeFrame f) <|> (if f = own then s.reclaimFrame f else none) with
      | some (fr, s) => (s.grantFrame c f fr).offerFrame own cs
      | none => s.offerFrame own cs

/-- A frame is freed (R245, R257). -/
def State.freeFrame (s : State) (fr : Nat) : State :=
  let f := (s.desc fr).field
  let s := s.releaseFrame fr
  s.offerFrame f s.km.starved

/-- REFS falls by 1; at 0 the frame is freed (R245). -/
def State.unref (s : State) (fr : Nat) : State :=
  let s := s.kmCheck 0
  let d := s.desc fr
  if d.refs ≤ 1 then s.freeFrame fr else s.setDesc fr { d with refs := d.refs - 1 }

/-- A node is removed: its parent loses a child, its frame loses NODE and 1 of REFS. -/
def State.removeNode (s : State) (ix : Nat) : State :=
  match Map.find s.km.nodes ix with
  | none => s
  | some n => ((s.unlinkNode ix n).updDesc n.frame (fun d => { d with node := false, nodeIx := 0 })).unref n.frame

/-- A flush has no frame (R255): the context starves. -/
def State.starve (s : State) (c f : Nat) : State :=
  let s := s.updKv c (fun r => { r with flush := 2 })
  let s := { s with km := { s.km with starved := s.km.starved ++ [c] } }
  let s := s.bump (Reg.kmFcnt f) 47 32 50 1 (some f)
  ((s.post Code.pageStarved 38 f (natLE 2 c)).postOwner Code.pageStarved 38 (natLE 2 c)).observe c

/-- A flush starts: it takes a frame under R246 or by reclaim, or the context starves (R254, R255). -/
def State.startFlush (s : State) (c : Nat) : State :=
  match s.ctxField c with
  | none => s
  | some f =>
    match (s.takeFrame f) <|> (s.reclaimFrame f) with
    | some (fr, s) => s.queueFlush c fr
    | none => s.starve c f

/-- The tiers have no room for a flush's frame, which R366 treats as a frame refused under R255: the frame is freed, and the
flush takes one by reclaim, or the context starves. -/
def State.refuseFlush (s : State) (c f fr : Nat) : State :=
  let s := s.freeFrame fr
  match s.reclaimFrame f with
  | some (fr, s) => s.queueFlush c fr
  | none => s.starve c f

/-- The link-and-release edit of R254: leaf entry L names the frame and COUNT rises, FLUSH clears, and, with BOTH set, the
halves change over and the next flush starts. Where the table page finds no home, the frame is refused (R366). -/
def State.applyEdit (s : State) (c fr : Nat) : State :=
  let r := s.kv c
  match s.putEntry c r.linked (some fr) with
  | (t, .done _) =>
    let s := t.kmCheck 2
    if r.both then (s.updKv c (fun r => { r with flush := 1, half := 1 - r.half, both := false })).startFlush c
    else s.updKv c (fun r => { r with flush := 0 })
  | _ => s.refuseFlush c (s.desc fr).field fr

/-- The pages of a field that KM, TU, SE or DM may work on: with every field isolated, only while its slot is open
(R435). -/
def State.blockSlot (s : State) (f : Nat) : Bool := !s.allIsolated || s.slotOpen f

/-- KM runs: the core is up, KM is not in reset, and the device is not in the safe state. -/
def State.kmUp (s : State) : Bool := s.coreUp && !s.domainHeld 17 && !s.inReset 38 && !s.safe && s.image.isSome

/-- KM's writes of a stretch of the unified range are complete at all-memory scope: no neighbour has still to answer one. -/
def State.writesDone (s : State) (f ua n : Nat) : Bool := !s.farAny (fun u => u.writes f ua n)

/-- The copy of a flush: the full half into the frame. -/
def State.flushCopy (s : State) (c f fr : Nat) : State × Tried Unit :=
  let r := s.kv c
  s.move ⟨.unified f (s.frameUa fr), .commons (r.stage + (1 - r.half) * s.frameBytes), s.frameBytes⟩

/-- FLUSH_COPY_DONE (R254): the flush copy at the copier's head is complete at all-memory scope; the edit applies, or
is held while a walk of the context is open (R259). Where the tiers have no room the frame is refused (R366). -/
def execFlushCopyDone (c : Nat) (s : State) : Host.Outcome State Fault Refusal :=
  match s.km.copier with
  | .flush c' fr written :: rest =>
    let f := (s.desc fr).field
    if c' = c ∧ s.kmUp ∧ s.blockSlot f then
      match (if written then (s, .done ()) else s.flushCopy c f fr) with
      | (t, .done _) =>
        if !t.writesDone f (t.frameUa fr) t.frameBytes then
          .next { t with km := { t.km with copier := .flush c fr true :: rest } }
        else
          let s := { t with km := { t.km with copier := rest } }
          if s.km.walks.any (fun w => w.1 == c) then
            let s := s.updKv c (fun r => { r with held := true })
            .next { s with km := { s.km with edits := s.km.edits ++ [(c, fr)] } }
          else .next ((s.applyEdit c fr).wake)
      | (t, .wait) => .next t
      | (t, .code k) =>
        if k = Code.tierFull then .next (({ t with km := { t.km with copier := rest } }).refuseFlush c f fr) else .next t
    else .next s
  | _ => .next s

/-- HELD_EDIT_APPLY (R259): the last open walk of the context has closed; its held edits apply in arrival order. -/
def execHeldEditApply (c : Nat) (s : State) : Host.Outcome State Fault Refusal :=
  if s.kmUp ∧ (s.kv c).held ∧ !(s.km.walks.any (fun w => w.1 == c)) ∧ (s.ctxField c).all s.blockSlot ∧ s.mcStage.isNone then
    let mine := s.km.edits.filter (fun e => e.1 == c)
    let s := { s with km := { s.km with edits := s.km.edits.filter (fun e => e.1 != c) } }
    let s := mine.foldl (fun s e => s.applyEdit c e.2) (s.updKv c (fun r => { r with held := false }))
    .next s.wake
  else .next s

/-- A host operation issued by a field's session works in that field's slot alone; the owner's work is not slotted (R435). -/
def State.hostSlot (s : State) (r : Role) (f : Nat) : Bool := r == .owner || s.blockSlot f

/-- COPY_COMPLETE (R254): the copies of the host operation at the copier's head are complete, every neighbour's answer among
them, and it is answered. -/
def execCopyComplete (s : State) : Host.Outcome State Fault Refusal :=
  match s.km.copier with
  | .host r rid f ans :: rest =>
    if s.kmUp ∧ s.hostSlot r f ∧ s.writesDone f 0xEF00000000 (2 ^ 40 - 0xEF00000000) ∧ s.canTake r ans.length then
      let s := ({ s with km := { s.km with copier := rest } }).reply r Msg.kv rid Code.ok ans
      match s.km.heldMode with
      | none => .next s
      | some m => .next (({ s with km := { s.km with heldMode := none } }).setF Reg.kmCtl 0 0 m)
    else .next s
  | _ => .next s

/-! ### Commit (R229, R253) -/

/-- The latents of tokens `t` to `t + n − 1` of one layer written to the staging halves. -/
def State.stageTokens (s : State) (r : KvRec) (layer t : Nat) (bs : List Byte) : Nat → State
  | 0 => s
  | n + 1 =>
    let h := if t / 64 = r.tc / 64 then r.half else 1 - r.half
    (s.write (r.stage + h * s.frameBytes + 16384 * layer + 256 * (t % 64)) (bs.take 256)).stageTokens r layer (t + 1)
      (bs.drop 256) n

/-- The step's `n` tokens take hold (R163, R253): layers that no APPEND named hold zero latents (R229), TC rises, and
a full active half is flushed, or held as a second full block. -/
def State.commitTokens (s : State) (c n : Nat) (layers : List Nat) : State :=
  if n = 0 then s
  else
    let r := s.kv c
    let s := ((List.range (s.frameBytes / 16384)).filter (fun l => !layers.contains l)).foldl (fun s l =>
      s.stageTokens r l r.tc (List.replicate (256 * n) 0) n) s
    let s := s.kmCheck 2
    let s := s.updKv c (fun r => { r with tc := r.tc + n })
    if (r.tc / 64 + 1) * 64 ≤ r.tc + n then
      if r.flush = 0 then (s.updKv c (fun r => { r with half := 1 - r.half, flush := 1 })).startFlush c
      else s.updKv c (fun r => { r with both := true })
    else s

/-! ### Walks (R224 to R227) -/

/-- Where block `k` of context `c` lies for LAYER: a frame through the page table, or a staging half. None where the
table holds no frame. -/
def State.blockPlace (s : State) (c f k layer : Nat) : Option (Place × Bool) :=
  let r := s.kv c
  if k < r.linked then
    (s.entry c k).map (fun fr => (.unified f (s.frameUa fr + 16384 * layer), (s.desc fr).lost))
  else some (.commons (r.stage + r.halfOf k * s.frameBytes + 16384 * layer), false)

/-- A walk of the context by strand `sid` opens (R258). -/
def State.openWalk (s : State) (c sid : Nat) : State :=
  let s := (s.kmCheck 2).updKv c (fun r => { r with walk := true })
  if s.km.walks.contains (c, sid) then s else { s with km := { s.km with walks := s.km.walks ++ [(c, sid)] } }

/-! ### Freeing a context's cache, and lost frames -/

/-- Leaf entries from block `k` on are cleared, each frame losing 1 of REFS. -/
def State.clearFrom (s : State) (c k : Nat) : State :=
  let es := s.km.table.filter (fun p => decide (1024 * c + k ≤ p.1) && decide (p.1 < 1024 * (c + 1)))
  es.foldl (fun s p => (s.clearEntry c (p.1 - 1024 * c)).unref p.2) s

/-- KV_FREE's effect (R267). -/
def State.freeKv (s : State) (c : Nat) : State :=
  let s := { s with km := { s.km with starved := s.km.starved.filter (fun x => x != c) } }
  let s := s.updKv c (fun r => { r with tc := 0, flush := 0, both := false })
  (s.clearFrom c 0).observe c

/-- The node and every descendant, children after parents. -/
def State.subtree (s : State) (ix : Nat) : Nat → List Nat
  | 0 => []
  | fuel + 1 => ix :: ((s.km.nodes.filter (fun p => p.2.parent == ix)).map Prod.fst).flatMap (fun k => s.subtree k fuel)

/-- R273: the frame is lost: LOST is set, and the node naming it goes with every descendant. -/
def State.loseFrame (s : State) (fr : Nat) : State :=
  let s := (s.kmCheck 0).updDesc fr (fun d => { d with lost := true })
  match s.km.nodes.find? (fun p => p.2.frame == fr) with
  | none => s
  | some (ix, _) => (s.subtree ix 1025).reverse.foldl (fun s k => s.removeNode k) s

/-! ### Host operations (R267 to R272) -/

/-- The KV record's job condition of R268: a job runs or is queued, or a flush stands. -/
def State.kvBusy (s : State) (c : Nat) (free : Bool) : Bool :=
  (match s.ctx c with | none => false | some x => x.busy) ||
    (s.kv c).flush == 1 || ((s.kv c).flush == 2 && !free)

/-- R270: MODE is SERVICE. -/
def State.kmService (s : State) : Bool := s.getF Reg.kmCtl 0 0 == 1

/-- A host operation waits for KM's copier: KM performs host operations one at a time (R267). -/
def State.hostWaits (s : State) : Bool := s.km.copier.any (fun j => match j with | .host _ _ _ _ => true | _ => false)

/-- What a host operation comes to: an answer at once, with the state, the code and its results; the copier's, once the copies
are complete; or a wait, of which only the requests it has sent stand. -/
inductive KvEnd where
  | answer (s : State) (code : Nat) (res : List Byte)
  | copy (s : State) (res : List Byte)
  | wait (f : State → State)

/-- What reading places leaves behind where an operation must wait for one of them: every neighbour's block is asked for, or,
with all of those here, the first read that waits is made. -/
def State.tryPlaces (s : State) (l : List (Place × Nat)) : State :=
  let r := l.foldl (fun (acc : State × Bool) q =>
    match q.1 with
    | .commons _ => acc
    | .unified f ua =>
      let r := acc.1.fetchAll f ua q.2
      (r.1, acc.2 || r.2)) (s, false)
  if r.2 then r.1
  else (l.foldl (fun (acc : State × Bool) q =>
    if acc.2 then acc
    else match acc.1.readPlace q.1 q.2 with
      | (s, .wait) => (s, true)
      | _ => acc) (s, false)).1

/-- Neighbours' blocks of some places have still to come. -/
def State.placesMissing (s : State) (l : List (Place × Nat)) : Bool :=
  l.any (fun q => match q.1 with
    | .commons _ => false
    | .unified f ua => (s.fetchAll f ua q.2).2)

/-- A host operation on contexts `cs` (R267 to R269): the refusals of R268 in their order, then `f`. -/
def State.kvOp (s : State) (r : Role) (rid : Nat) (cs : List Nat) (free publish : Bool) (mode : Option Bool)
    (f : State → Nat → KvEnd) : State :=
  let field := (cs.head?).bind s.ctxField
  if s.hostWaits ∨ s.mcStage.isSome ∨ (s.image.isSome ∧ field.any (fun g => !s.hostSlot r g)) then s
  else s.messageLater r rid Msg.kv 4 (fun s0 =>
    let answer (s : State) (c : Nat) (res : List Byte) : State := s.reply r Msg.kv rid c res
    if cs.any (fun c => match s.ctxField c with | none => false | some g => !Role.mayField r g) then answer s0 Code.sxRole []
    else if !publish && cs.any (fun c => s.kvBusy c free) then answer s0 Code.kvBusy []
    else if mode.any (fun m => m != s.kmService) then answer s0 Code.kvMode []
    else match field with
      | none => answer s0 Code.kvArg []
      | some g =>
        match f (s0.kmCheck 2) g with
        | .wait h => h s
        | .copy s res => { s with km := { s.km with copier := s.km.copier ++ [.host r rid g res] } }
        | .answer s c res => answer s c res)

/-- An operation that ends at once with a code and results. -/
def kvDone (s : State) (c : Nat) (res : List Byte) : KvEnd := .answer s c res

/-- An operation that has succeeded, with copies to complete or without. -/
def kvEnd (s : State) (res : List Byte) (copied : Bool) : KvEnd := if copied then .copy s res else .answer s Code.ok res

/-- An operation that is refused with a code after TU has worked for it: nothing else stands. -/
def kvUndo (s t : State) (c : Nat) : KvEnd := .answer { s with tu := t.tu, lx := t.lx, regs := t.regs, fc := t.fc, hp := t.hp, sx := t.sx, free := t.free } c []

/-- `n` bytes of the commons from `a`. -/
def inCommons (a n : Nat) : Bool := decide (a + n ≤ 0x10000000)

/-- The staging buffer of 2 × S bytes from a 64-byte boundary lies in the scratch region (R250, R268). -/
def State.stageOk (s : State) (stage : Nat) : Bool := stage % 64 == 0 && s.part.scratch.holds stage (2 * s.frameBytes)

/-- KV_INIT (R267). -/
def execKvInit (r : Role) (rid ctx stage : Nat) (s : State) : Host.Outcome State Fault Refusal :=
  .next (s.kvOp r rid [ctx] false false none (fun s _ =>
    if !s.stageOk stage ∨ (s.kv ctx).tc ≠ 0 then kvDone s Code.kvArg []
    else kvDone (s.updKv ctx (fun r => { r with stage := stage, tc := 0, half := 0 })) Code.ok []))

/-- The hash of block `k` (R261): the parent's hash, TAG, k and the 64 token ids at `tok`. -/
def State.blockHash (s : State) (f parent tag k tok : Nat) : Nat :=
  let key := Map.get s.sx.prefixKeys f []
  (sipHash key (natLE 8 parent ++ natLE 4 tag ++ natLE 4 k ++ s.read (tok + 256 * k) 256)).toNat

/-- R263: the node that matches a block. -/
def State.findNode (s : State) (f tag parent hash : Nat) : Option (Nat × Node) :=
  s.km.nodes.find? (fun p => p.2.field == f && p.2.tag == tag && p.2.parent == parent && p.2.hash == hash)

/-- The field's use serial advances (R264). -/
def State.useKm (s : State) (f : Nat) : State :=
  { s with km := { s.km with use := Map.put s.km.use f (Map.get s.km.use f 0 + 1) } }

/-- USE of a node := the field's serial. -/
def State.markUse (s : State) (ix f : Nat) : State :=
  { s with km := { s.km with nodes := Map.upd s.km.nodes ix (fun n => { n with use := Map.get s.km.use f 0 }) } }

/-- What naming a frame once more comes to. -/
inductive Named where
  | named (s : State) (fr : Nat) (copied : Bool)
  | fail (code : Nat)
  | wait (l : List (Place × Nat))

/-- R272: frame `fr` gains 1 of REFS, or, at 65,535, a copy of it is made and named: PAGE_STARVED when no frame is to be had. -/
def State.nameFrame (s : State) (f fr : Nat) : Named :=
  let s := s.kmCheck 0
  if (s.desc fr).refs < 65535 then .named (s.updDesc fr (fun d => { d with refs := d.refs + 1 })) fr false
  else
    let src : List (Place × Nat) := [(.unified f (s.frameUa fr), s.frameBytes)]
    match s.takeFrame f with
    | none => .fail Code.pageStarved
    | some (n, t) =>
      match t.move ⟨.unified f (s.frameUa n), .unified f (s.frameUa fr), s.frameBytes⟩ with
      | (t, .done _) => .named (t.bump (Reg.kmFcnt f) 15 0 48 1 (some f)) n true
      | (_, .wait) => .wait src
      | (_, .code c) => .fail c

/-- KV_ADOPT's walk down the tree: blocks from `k` on, until the first miss. It answers the blocks matched, and
whether a copy was made; or the places it waits for. -/
def State.adoptBlocks (s : State) (c f tok tag parent hash k : Nat) (copied : Bool) :
    Nat → Except (List (Place × Nat)) (State × Nat × Bool)
  | 0 => .ok (s, k, copied)
  | n + 1 =>
    let h := s.blockHash f hash tag k tok
    let s := s.kmCheck 1
    match s.findNode f tag parent h with
    | none => .ok (s, k, copied)
    | some (ix, nd) =>
      match s.nameFrame f nd.frame with
      | .fail _ => .ok (s, k, copied)
      | .wait l => .error l
      | .named t fr cp =>
        match (t.markUse ix f).putEntry c k (some fr) with
        | (t, .done _) => t.adoptBlocks c f tok tag ix h (k + 1) (copied || cp) n
        | _ => .ok (s, k, copied)

/-- The token ids of an operation are read from the commons, through KM's connection (R126, R345): the code where they cannot
be. -/
def State.tokensRead (s : State) (tok n : Nat) : State × Option Nat :=
  if n = 0 then (s, none)
  else if !s.kmReach tok n then (s, some Code.badAddress)
  else match s.cmRead tok n with
    | (s, true) => (s, some Code.memPoison)
    | (s, false) => (s, none)

/-- KV_ADOPT (R267). -/
def execKvAdopt (r : Role) (rid ctx tokaddr ntok tag : Nat) (s : State) : Host.Outcome State Fault Refusal :=
  .next (s.kvOp r rid [ctx] false false (some true) (fun s f =>
    let blocks := min 1024 (ntok / 64)
    if (s.kv ctx).tc ≠ 0 ∨ !inCommons tokaddr (4 * ntok) then kvDone s Code.kvArg []
    else match s.tokensRead tokaddr (256 * blocks) with
      | (s, some c) => kvDone s c []
      | (s, none) =>
        match (s.useKm f).adoptBlocks ctx f tokaddr tag 0xFFFF 0 0 false blocks with
        | .error l => .wait (fun s => s.tryPlaces l)
        | .ok (s, n, cp) => kvEnd (s.updKv ctx (fun r => { r with tc := 64 * n })) (natLE 4 n) cp))

/-- R265: field `f` may make a new node. -/
def State.mayMakeNode (s : State) (f : Nat) : Bool :=
  match s.fieldRec f with
  | none => false
  | some r =>
    let free := 32768 - s.km.nodes.length
    decide (0 < free) && (decide (s.nodeCount f < r.headland / 2) ||
      decide (((s.fields.filter (fun g => g.id != f)).map (fun g => g.headland / 2 - s.nodeCount g.id)).sum < free))

/-- R265: room for a node of the field, reclaiming one of its own where needed; the intended parent is no candidate,
since the new node will name it. -/
def State.roomForNode (s : State) (f parent : Nat) : Option State :=
  let s := { s with km := { s.km with nodes := Map.upd s.km.nodes parent (fun n => { n with children := n.children + 1 }) } }
  if s.mayMakeNode f then some s
  else match s.oldestNode f with
    | none => none
    | some (ix, _) => some ((s.removeNode ix).bump (Reg.kmFcnt f) 31 16 49 1 (some f))

/-- A free node index. -/
def State.freeNode (s : State) : Nat := ((List.range 32768).find? (fun i => (Map.find s.km.nodes i).isNone)).getD 0

/-- How a publication goes on at a block. -/
inductive Publish where
  | stop (code : Nat)
  | node (ix : Nat) (copied : Bool)
  | wait (l : List (Place × Nat))

/-- One block of KV_PUBLISH (R267, R268). -/
def State.publishBlock (s : State) (c f tag parent hash k : Nat) : State × Publish :=
  let s := s.kmCheck 1
  match s.findNode f tag parent hash with
  | some (ix, _) => (s.markUse ix f, .node ix false)
  | none =>
    match s.entry c k with
    | none => (s, .stop Code.ok)
    | some fr =>
      let s := s.kmCheck 0
      let d := s.desc fr
      if d.loaded ∨ d.lost ∨ d.node then (s, .stop Code.ok)
      else match s.roomForNode f parent with
        | none => (s, .stop Code.nodesFull)
        | some s1 =>
          match s1.nameFrame f fr with
          | .fail c => (s, .stop c)
          | .wait l => (s, .wait l)
          | .named s fr cp =>
            let ix := s.freeNode
            let s := { s with km := { s.km with
              nodes := Map.put s.km.nodes ix ⟨hash, fr, parent, f, 0, tag, Map.get s.km.use f 0⟩ } }
            ((s.updDesc fr (fun d => { d with node := true, nodeIx := ix })), .node ix cp)

/-- What a publication comes to: the state, the blocks published, the code, and whether a copy was made; or the places that it
waits for. -/
abbrev Published := Except (List (Place × Nat)) (State × Nat × Nat × Bool)

/-- KV_PUBLISH's blocks from `k` on. -/
def State.publishBlocks (s : State) (c f tok tag parent hash k : Nat) (copied : Bool) : Nat → Published
  | 0 => .ok (s, k, Code.ok, copied)
  | n + 1 =>
    let h := s.blockHash f hash tag k tok
    match s.publishBlock c f tag parent h k with
    | (s, .stop code) => .ok (s, k, code, copied)
    | (_, .wait l) => .error l
    | (s, .node ix cp) => s.publishBlocks c f tok tag ix h (k + 1) (copied || cp) n

/-- KV_PUBLISH (R267, R268, R272): it runs on a busy or flushing context too. -/
def execKvPublish (r : Role) (rid ctx tokaddr nblocks tag : Nat) (s : State) : Host.Outcome State Fault Refusal :=
  .next (s.kvOp r rid [ctx] false true (some true) (fun s0 f =>
    if (s0.kv ctx).linked < nblocks ∨ !inCommons tokaddr (256 * nblocks) then kvDone s0 Code.kvArg []
    else match s0.tokensRead tokaddr (256 * nblocks) with
      | (s, some c) => kvDone s c []
      | (s0, none) =>
        match (s0.useKm f).publishBlocks ctx f tokaddr tag 0xFFFF 0 0 false nblocks with
        | .error l => .wait (fun s => s.tryPlaces l)
        | .ok (s, n, c, cp) =>
          if c = Code.ok then kvEnd s (natLE 4 n) cp
          else if c = Code.nodesFull then kvDone s c (natLE 4 n)
          else kvDone s0 c []))

/-- The places of the first `n` tokens of a block, every layer. -/
def State.tokenPlaces (s : State) (n : Nat) (src : Nat → Place) : List (Place × Nat) :=
  (List.range (s.frameBytes / 16384)).map (fun l => (src l, 256 * n))

/-- The bytes of the first `n` tokens of a block, every layer, from a place to the active half of context `c` (R267). -/
def State.copyTokens (s : State) (c n : Nat) (src : Nat → Place) : State × Tried Unit :=
  let r := s.kv c
  if s.placesMissing (s.tokenPlaces n src) then (s, .wait)
  else (List.range (s.frameBytes / 16384)).foldl (fun (acc : State × Tried Unit) l =>
    match acc with
    | (s, .done _) => s.move ⟨.commons (r.stage + r.half * s.frameBytes + 16384 * l), src l, 256 * n⟩
    | e => e) (s, .done ())

/-- The place of block `k` of context `c`, layer by layer. -/
def State.blockSource (s : State) (c f k layer : Nat) : Place :=
  match s.blockPlace c f k layer with
  | none => .commons 0
  | some (p, _) => p

/-- KV_TRUNCATE (R267). -/
def execKvTruncate (r : Role) (rid ctx t : Nat) (s : State) : Host.Outcome State Fault Refusal :=
  .next (s.kvOp r rid [ctx] false false none (fun s f =>
    let rec_ := s.kv ctx
    let copy := decide (t / 64 < rec_.linked) && decide (t % 64 ≠ 0)
    if rec_.tc < t ∨ (copy ∧ !s.stageOk rec_.stage) then kvDone s Code.kvArg []
    else
      let fin (s : State) : State := (s.clearFrom ctx (t / 64)).updKv ctx (fun r => { r with tc := t })
      let src := s.blockSource ctx f (t / 64)
      if !copy then kvDone (fin s) Code.ok []
      else match s.copyTokens ctx (t % 64) src with
        | (_, .wait) => .wait (fun u => u.tryPlaces (s.tokenPlaces (t % 64) src))
        | (s1, .code c) => kvUndo s s1 c
        | (s, .done _) => .copy (fin s) []))

/-- KV_FREE (R267). -/
def execKvFree (r : Role) (rid ctx : Nat) (s : State) : Host.Outcome State Fault Refusal :=
  .next (s.kvOp r rid [ctx] true false none (fun s _ => kvDone (s.freeKv ctx) Code.ok []))

/-- KV_PRUNE's passes: every node of the field that is reclaimable goes, until none remains. -/
def State.pruneNodes (s : State) (f n : Nat) : Nat → State × Nat
  | 0 => (s, n)
  | fuel + 1 =>
    match s.km.nodes.find? (fun p => p.2.field == f && s.reclaimable p.2) with
    | none => (s, n)
    | some (ix, _) => (s.removeNode ix).pruneNodes f (n + 1) fuel

/-- KV_PRUNE (R267, R268): a field that is not the session's own is refused; one that is not enabled fails the
argument check. -/
def execKvPrune (r : Role) (rid field : Nat) (s : State) : Host.Outcome State Fault Refusal :=
  if s.hostWaits ∨ ((s.fieldRec field).isSome ∧ !s.hostSlot r field) then .next s
  else .next (s.message r rid Msg.kv 4 (fun s =>
    if !Role.mayField r field then (s, Code.sxRole, [])
    else if !s.kmService then (s, Code.kvMode, [])
    else if (s.fieldRec field).isNone then (s, Code.kvArg, [])
    else
      let (s, n) := (s.kmCheck 1).pruneNodes field 0 32769
      (s, Code.ok, natLE 4 n)))

/-- What KV_FORK's links come to: the state and whether a copy was made, a refusal, or the places they wait for. -/
inductive Forked where
  | done (s : State) (copied : Bool)
  | fail (code : Nat)
  | wait (l : List (Place × Nat))

/-- KV_FORK's links: blocks from `k` on of `dst` name the frames of `src`. -/
def State.forkBlocks (s : State) (src dst f k : Nat) (copied : Bool) : Nat → Forked
  | 0 => .done s copied
  | n + 1 =>
    match s.entry src k with
    | none => s.forkBlocks src dst f (k + 1) copied n
    | some fr =>
      match s.nameFrame f fr with
      | .fail c => .fail c
      | .wait l => .wait l
      | .named s fr cp =>
        match s.putEntry dst k (some fr) with
        | (s, .done _) => s.forkBlocks src dst f (k + 1) (copied || cp) n
        | (_, .code c) => .fail c
        | (_, .wait) => .wait []

/-- KV_FORK (R267, R272). -/
def execKvFork (r : Role) (rid src dst t : Nat) (s : State) : Host.Outcome State Fault Refusal :=
  .next (s.kvOp r rid [src, dst] false false (some false) (fun s f =>
    let copy := decide (t % 64 ≠ 0)
    let fin (s s1 : State) (copied : Bool) : KvEnd :=
      match s1.forkBlocks src dst f 0 copied (t / 64) with
      | .done s cp => kvEnd (s.updKv dst (fun r => { r with tc := t })) [] cp
      | .fail c => kvDone s c []
      | .wait l => .wait (fun u => u.tryPlaces l)
    let place := s.blockSource src f (t / 64)
    if (s.kv src).tc < t ∨ (s.kv dst).tc ≠ 0 ∨ s.ctxField dst ≠ some f ∨ (copy ∧ !s.stageOk (s.kv dst).stage) then
      kvDone s Code.kvArg []
    else if !copy then fin s s false
    else match s.copyTokens dst (t % 64) place with
      | (_, .wait) => .wait (fun u => u.tryPlaces (s.tokenPlaces (t % 64) place))
      | (s1, .code c) => kvUndo s s1 c
      | (s1, .done _) => fin s s1 true))

/-- KV_LOAD (R271): in place where REFS is 1, else into a frame of its own. -/
def execKvLoad (r : Role) (rid ctx k addr : Nat) (s : State) : Host.Outcome State Fault Refusal :=
  .next (s.kvOp r rid [ctx] false false (some false) (fun s f =>
    match s.entry ctx k with
    | none => kvDone s Code.kvArg []
    | some old =>
      if (s.kv ctx).linked ≤ k ∨ addr % 64 ≠ 0 ∨ !inCommons addr s.frameBytes then kvDone s Code.kvArg []
      else
        let s := s.kmCheck 0
        let own := (s.desc old).refs == 1
        match (if own then some (old, s) else (s.takeFrame f) <|> (s.reclaimFrame f)) with
        | none => kvDone s Code.pageStarved []
        | some (fr, s1) =>
          match s1.move ⟨.unified f (s1.frameUa fr), .commons addr, s1.frameBytes⟩ with
          | (_, .wait) => .wait (fun s => s)
          | (s1, .code c) => kvDone { s with regs := s1.regs, fc := s1.fc } c []
          | (s2, .done _) =>
            let s2 := (s2.kmCheck 0).updDesc fr (fun d => { d with loaded := true, lost := false })
            if own then .copy s2 (natLE 4 fr)
            else match s2.putEntry ctx k (some fr) with
              | (s2, .done _) => .copy (s2.unref old) (natLE 4 fr)
              | _ => kvDone s Code.tierFull []))

/-- KM_MODE_WRITE's effect (R270): MODE takes the value at once, or when the host operation in progress ends. -/
def State.writeKmCtl (s : State) (v : W32) : State :=
  if s.hostWaits then
    { s with km := { s.km with heldMode := some (v.toNat % 2) } }
  else s.setF Reg.kmCtl 0 0 (v.toNat % 2)

end Sys2Proof.Machine
end

