-- ==== Sys2Proof/Machine/Matrix.lean ====
section
/-!
DEFINITION. The matrix engines (chapter 6): GATE, ADD, PROJ, SUMQ, RMSNORM, OUTER, UPDATE, and the adapter digests
of DIGEST and DIGEST_VERDICT. An operator's arithmetic is done whole when its command starts; the command then
runs until COMMAND_END.
-/
namespace Sys2Proof.Machine

/-- The lane values of the batch rows of an X tensor in pass `r`. -/
def State.matRows (s : State) (x : MatX) (r : Nat) : List (List Int) :=
  (List.range x.batch).map (fun b => s.lanes x.fmt (x.addr + r * x.stride + b * x.pitch) x.k)

/-- Element `i` of a list of integers, 0 beyond its end. -/
def intAt (l : List Int) (i : Nat) : Int := (l[i]?).getD 0

/-- Row `i` of a list of rows. -/
def rowAt {α : Type} (l : List (List α)) (i : Nat) : List α := (l[i]?).getD []

/-- Record `i` of a group. -/
def recAt (l : List ChanRec) (i : Nat) : ChanRec := (l[i]?).getD ⟨0, true, 0⟩

/-- The scale block of group `j` of pass `r` (R83, R152), from a stream that starts at `a`. -/
def State.scaleBlock (s : State) (fur : Bool) (a n g r j : Nat) : List Byte :=
  s.streamRead fur (a + r * scaleBytes n g + j * scaleBlockBytes g) (scaleBlockBytes (min g (n - j * g)))

/-- An element-wise command (R186): for each pass, groups of channels pair on the expected tag alone, their FIRST being the
global channel r × N + n of R183 (R185), which is also the channel a watch selects (R107, log 70), and output (b, n) of pass r comes from `acc s r b n` with the multiplier that `mul s r b` makes of the channel's record. -/
def State.elementwise (s : State) (v : Env) (sw : MatS) (y : MatY) (batch : Nat)
    (acc : Nat → Nat → Nat → Int) (mul : Nat → Nat → ChanRec → Dy) : OpResult :=
  let groups := ceilDiv y.n y.group
  runGroups (fun s i =>
    let r := i / groups
    let j := i % groups
    let cnt := min y.group (y.n - j * y.group)
    let first := r * y.n + j * y.group
    match checkGroup (v.tag i) (some (s.scaleBlock false sw.saddr y.n y.group r j)) none cnt first none (.fmt y.ofmt) with
    | .error f => (s, some (i, f))
    | .ok recs =>
      ((List.range batch).foldl (fun s b =>
        let (s, codes) := s.emitRow v first y.ofmt cnt (fun q =>
          let n := j * y.group + q
          let rec_ := recAt recs q
          rec_.outputWith (mul r b rec_) y.ofmt v.h.nearest (acc r b n) (v.draw r (b * y.n + n)))
        s.putRow (y.addr + r * y.stride + b * y.pitch) (j * y.group) y.n codes) s, none)) s 0 ((v.h.rep + 1) * groups)

/-- A command read from memory and run: its ranges are checked and read, its checks made, and `f` worked. -/
def State.runMatrix (s : State) (m : Met) (mask units : Nat) (f : State → OpResult) : State :=
  s.withStep m (fun s =>
    match s.readRanges m (matReads m.v.h m.ops) with
    | (some s, _) => s
    | (none, s) => State.finishOp m [] (f (s.engChecks m.v mask units)))

/-- GATE's work (R186): the product of two tensors. -/
def State.gateWork (s : State) (v : Env) (w : List Nat) : OpResult :=
  let a := MatX.of (opWord w 0)
  let b := MatX.of (opWord w 1)
  s.elementwise v (MatS.of (opWord w 2)) (MatY.of (opWord w 3)) a.batch
    (fun r i n => intAt (rowAt (s.matRows a r) i) n * intAt (rowAt (s.matRows b r) i) n) (fun _ _ q => q.mul)

/-- GATE (R186). -/
def execGate (e : Nat) (s : State) : Host.Outcome State Fault Refusal :=
  match s.met e 0 0x10 4 with
  | none => .next s
  | some m => .next (s.runMatrix m 6 8 (fun s => s.gateWork m.v m.ops))

/-- ADD's work (R186): the shifted sum of two tensors. -/
def State.addWork (s : State) (v : Env) (w : List Nat) : OpResult :=
  let a := MatX.of (opWord w 0)
  let b := MatX.of (opWord w 1)
  let sw := MatS.of (opWord w 2)
  s.elementwise v sw (MatY.of (opWord w 3)) a.batch
    (fun r i n => intAt (rowAt (s.matRows a r) i) n * 2 ^ sw.sa + intAt (rowAt (s.matRows b r) i) n * 2 ^ sw.sb)
    (fun _ _ q => q.mul)

/-- ADD (R186). -/
def execAdd (e : Nat) (s : State) : Host.Outcome State Fault Refusal :=
  match s.met e 0 0x11 4 with
  | none => .next s
  | some m => .next (s.runMatrix m 6 8 (fun s => s.addWork m.v m.ops))

/-- SUMQ's work (R186): the exact sum of spilled accumulators. -/
def State.sumqWork (s : State) (v : Env) (w : List Nat) : OpResult :=
  let a := MatA.of (opWord w 0)
  let y := MatY.of (opWord w 2)
  s.elementwise v (MatS.of (opWord w 1)) y a.batch
    (fun _ i n => ((List.range a.parts).map (fun p =>
      intAt (s.words (a.addr + p * a.pstride + i * y.pitch + 4 * n) 1) 0)).sum)
    (fun _ _ q => q.mul)

/-- SUMQ (R186). -/
def execSumq (e : Nat) (s : State) : Host.Outcome State Fault Refusal :=
  match s.met e 0 0x13 3 with
  | none => .next s
  | some m => .next (s.runMatrix m 6 8 (fun s => s.sumqWork m.v m.ops))

/-- R187: the factor rb of a row of lane values. -/
def rmsFactor (row : List Int) (eps : Dy) : Dy :=
  let sum := (row.map (fun x => x * x)).sum
  let ms := div32 (round32 (Dy.ofInt sum)) (Dy.ofInt row.length)
  div32 (Dy.ofInt 1) (sqrt32 (round32 (ms.add eps)))

/-- A multiplier clamped to magnitude 2^64 (R187, R294). -/
def clampMul (m : Dy) : Dy :=
  if (⟨1, 64⟩ : Dy).lt ⟨m.m.natAbs, m.e⟩ then ⟨m.m.sign, 64⟩ else m

/-- RMSNORM's work (R187): each row scaled by the inverse of its root mean square. -/
def State.rmsnormWork (s : State) (v : Env) (w : List Nat) : OpResult :=
  let x := MatX.of (opWord w 0)
  let eps := (single (opWord w 3)).getD ⟨0, 0⟩
  s.elementwise v (MatS.of (opWord w 1)) (MatY.of (opWord w 2)) x.batch
    (fun r i n => intAt (rowAt (s.matRows x r) i) n)
    (fun r i q => clampMul (round32 (q.mul.mul (rmsFactor (rowAt (s.matRows x r) i) eps))))

/-- RMSNORM (R187). -/
def execRmsnorm (e : Nat) (s : State) : Host.Outcome State Fault Refusal :=
  match s.met e 0 0x14 4 with
  | none => .next s
  | some m => .next (s.runMatrix m 6 8 (fun s => s.rmsnormWork m.v m.ops))

/-- A PROJ's words. -/
structure Proj where
  x : MatX
  s : MatS
  y : MatY
  passes : Nat

/-- The PROJ of a command met. -/
def Met.proj (m : Met) : Proj := ⟨MatX.of (opWord m.ops 0), MatS.of (opWord m.ops 1), MatY.of (opWord m.ops 2), m.v.h.rep + 1⟩

/-- Quantisation groups of a pass. -/
def Proj.groups (p : Proj) : Nat := ceilDiv p.y.n p.y.group

/-- Bytes of a weight row. -/
def Proj.row (p : Proj) : Nat := rowBytes p.s.wfmt p.x.k

/-- Channels of group `i`, counted over all passes. -/
def Proj.count (p : Proj) (i : Nat) : Nat := min p.y.group (p.y.n - i % p.groups * p.y.group)

/-- Where group `i`'s scale block and data group lie in their streams, with their lengths (R152, R185); with OFMT 3 there is
no scale block (R184). -/
def Proj.stretches (p : Proj) (i : Nat) : List (Nat × Nat) :=
  let r := i / p.groups
  let j := i % p.groups
  (if p.y.ofmt = 3 then [] else
    [(p.s.saddr + r * scaleBytes p.y.n p.y.group + j * scaleBlockBytes p.y.group, scaleBlockBytes (p.count i))]) ++
  [(p.s.waddr + r * dataBytes p.y.n p.y.group p.row + j * (64 + p.y.group * p.row), 64 + p.count i * p.row)]

/-- PROJ's work on group `i` (R183 to R185), from the bytes of its scale block and data group. T5P bytes are counted once the
group has passed its checks, and only those that carry weights (R56, log 71). -/
def State.projGroup (s : State) (v : Env) (p : Proj) (bytes : List Byte) (i : Nat) : OpResult :=
  let r := i / p.groups
  let j := i % p.groups
  let cnt := p.count i
  let first := r * p.y.n + j * p.y.group
  let sb := if p.y.ofmt = 3 then 0 else scaleBlockBytes cnt
  let scale := if p.y.ofmt = 3 then none else some (bytes.take sb)
  let data := bytes.drop sb
  match checkGroup (v.tag i) scale (some (data.take 64)) cnt first (some p.x.k)
      (if p.y.ofmt = 3 then .none else .fmt p.y.ofmt) with
  | .error f => (s, some (i, f))
  | .ok recs =>
    let raw := (List.range cnt).map (fun q => slice data (64 + q * p.row) (weightBytes p.s.wfmt p.x.k))
    let ws := raw.map (fun b => (List.range p.x.k).map (weightLane p.s.wfmt b))
    let bad := (raw.map (badT5p p.s.wfmt)).sum
    let s := if bad = 0 then s else s.bump16 (Reg.quBadcode v.eng) bad none
    let xs := s.matRows p.x r
    ((List.range p.x.batch).foldl (fun s b =>
      let base := p.y.addr + r * p.y.stride + b * p.y.pitch
      let acc (q : Nat) : Int := dot (rowAt ws q) (rowAt xs b)
      if p.y.ofmt = 3 then s.write (base + 4 * (j * p.y.group)) (packAcc ((List.range cnt).map acc))
      else
        let (s, codes) := s.emitRow v first p.y.ofmt cnt (fun q =>
          (recAt recs q).output p.y.ofmt v.h.nearest (acc q) (v.draw r (b * p.y.n + j * p.y.group + q)))
        s.putRow base (j * p.y.group) p.y.n codes) s, none)

/-- PROJ's work with its streams in the commons: one quantisation group after another, over all passes. -/
def State.projGroups (s : State) (v : Env) (p : Proj) : OpResult :=
  runGroups (fun s i => s.projGroup v p ((p.stretches i).flatMap (fun r => s.read r.1 r.2)) i) s 0 (p.passes * p.groups)

/-- The pieces of group `i`'s stretches, each within one furrow segment, in the order they are read. -/
def State.projPieces (s : State) (p : Proj) (i : Nat) : List (Nat × Nat) :=
  (p.stretches i).flatMap (fun r => cutSegs s.segBytes r.1 r.2)

/-- The pieces left of group `i` once `n` of its bytes are read. -/
def piecesAfter : List (Nat × Nat) → Nat → List (Nat × Nat)
  | [], _ => []
  | q :: l, n => if n = 0 then q :: l else piecesAfter l (n - q.2)

/-- The furrow segment that a stream offset falls in. -/
def State.segOf (s : State) (off : Nat) : Nat := if s.segments = 0 then 0 else off / s.segBytes % s.segments

/-- The segments a command has read to the end are reported consumed (R382). -/
def State.report (s : State) (c : Nat) (segs : List Nat) : State :=
  match s.tu.sow with
  | none => s
  | some w => if w.ctx = c then segs.foldl State.consume s else s

/-- How PROJ's reading of the furrow stops: with group `i` failed, ended by a read, or at a piece that is not here, or past its
last group, with the bytes read of the group it stands in. -/
inductive ProjStop where
  | failed (i : Nat) (g : GroupFault)
  | ended (s : State)
  | at_ (i : Nat) (got : List Byte)

/-- Pieces of one group read in order while their segments are FILLED (R190): a segment is reported after its last byte that
the command needs, `later` being what follows the group. -/
def State.projRead (s : State) (m : Met) (later : List (Nat × Nat)) (got : List Byte) :
    List (Nat × Nat) → State × Option State × List Byte × Bool
  | [] => (s, none, got, true)
  | q :: rest =>
    let k := s.segOf q.1
    if s.furrowWait m.c [k] then (s, none, got, false)
    else match s.readRanges m (s.furrowRanges q.1 q.2) with
      | (some t, _) => (s, some t, got, false)
      | (none, s) =>
        let got := got ++ s.streamRead true q.1 q.2
        let more := (rest ++ later).any (fun p => p.1 / s.segBytes == q.1 / s.segBytes)
        (if more then s else s.report m.c [k]).projRead m later got rest

/-- Groups read from the furrow and projected, from group `i` on, `got` being what is read of it; `n` groups are left. -/
def State.projFeed (s : State) (m : Met) (p : Proj) (i : Nat) (got : List Byte) : Nat → State × ProjStop
  | 0 => (s, .at_ i got)
  | n + 1 =>
    let later := (List.range n).flatMap (fun k => s.projPieces p (i + 1 + k))
    match s.projRead m later got (piecesAfter (s.projPieces p i) got.length) with
    | (s, some t, _, _) => (s, .ended t)
    | (s, none, got, false) => (s, .at_ i got)
    | (s, none, got, true) =>
      match s.projGroup m.v p got i with
      | (s, some (j, g)) => (s, .failed j g)
      | (s, none) => s.projFeed m p (i + 1) [] n

/-- PROJ with its streams in the furrow goes on as far as the filled segments reach. -/
def State.projOn (s : State) (m : Met) (p : Proj) (r : Running) : State :=
  match s.projFeed m p r.raised r.got (p.passes * p.groups - r.raised) with
  | (s, .failed i g) => s.groupFault m i g
  | (_, .ended t) => t
  | (s, .at_ i got) => s.updRunning m.v.eng (fun r =>
      { r with raised := i, got := got, waited := r.waited || decide (i < p.passes * p.groups) })

/-- The command of operator `op` that engine `e` of `kind` runs, as it was met, with its running record. -/
def State.runningCmd (s : State) (e kind op : Nat) : Option (Met × Running) :=
  match (s.engine e).strand, (s.engine e).running with
  | some (c, sid), some r =>
    match s.ctx c, (s.ctx c).bind Ctx.running with
    | some x, some j =>
      match j.strand sid, s.tapeWord r.tape r.word with
      | some t, some h =>
        let hd := Hdr.of h
        if hd.op = op ∧ engineKind e = kind ∧ hClass h = 1 then
          let ops := s.operands t hd.words
          let map := if op = 0x12 ∧ hd.words = 4 then some (opWord ops 3) else none
          some (⟨c, x, j, t, ⟨e, c, x.field, (s.image.map Image.seed).getD 0, x.step, hd, map,
            s.watchesOf e hd.key x.field⟩, ops, h⟩, r)
        else none
      | _, _ => none
    | _, _ => none
  | _, _ => none

/-- The PROJ from the furrow that engine `e` runs. -/
def State.runningProj (s : State) (e : Nat) : Option (Met × Running) :=
  (s.runningCmd e 0 0x12).filter (fun q => q.1.proj.s.src == 1)

/-- The segment whose next bytes a running PROJ needs. -/
def State.projNeeds (s : State) (e : Nat) : Option (Nat × Nat) :=
  match s.runningProj e with
  | none => none
  | some (m, r) =>
    if m.proj.passes * m.proj.groups ≤ r.raised then none
    else ((piecesAfter (s.projPieces m.proj r.raised) r.got.length).head?).map (fun q => (m.c, s.segOf q.1))

/-- PROJ (R183): with its streams in the commons it projects at once. With them in the furrow it reads a segment's bytes only
while that is FILLED for its context (R190, R382), and goes on, PROJ by PROJ, as segments are filled. -/
def execProj (e : Nat) (s : State) : Host.Outcome State Fault Refusal :=
  match s.runningProj e with
  | some (m, r) => .next (if s.engineOn e && !s.inReset e then s.projOn m m.proj r else s)
  | none =>
    match s.met e 0 0x12 3 with
    | none => .next s
    | some m =>
      .next (s.withStep m (fun s =>
        match s.readRanges m (matReads m.v.h m.ops) with
        | (some s, _) => s
        | (none, s) =>
          let s := s.engChecks m.v 7 (min 8 m.proj.groups)
          if m.proj.s.src = 1 then (s.startRun m []).projOn m m.proj (m.running [])
          else State.finishOp m [] (s.projGroups m.v m.proj)))

/-- OUTER's work (R195): the spilled outer products. -/
def State.outerRows (s : State) (v : Env) (x dy : MatX) (y : MatY) : State :=
  (List.range (v.h.rep + 1)).foldl (fun s r =>
    let xs := s.matRows x r
    let ds := s.matRows dy r
    (List.range dy.k).foldl (fun s n =>
      s.write (y.addr + r * y.stride + n * y.pitch) (packAcc ((List.range x.k).map (fun k =>
        ((List.range x.batch).map (fun b => intAt (rowAt ds b) n * intAt (rowAt xs b) k)).sum)))) s) s

/-- OUTER (R195). -/
def execOuter (e : Nat) (s : State) : Host.Outcome State Fault Refusal :=
  match s.met e 0 0x18 3 with
  | none => .next s
  | some m =>
    .next (s.runMatrix m 6 8 (fun s => (s.outerRows m.v (MatX.of (opWord m.ops 0)) (MatX.of (opWord m.ops 1))
      (MatY.of (opWord m.ops 2)), none)))

/-- R196: one updated weight, from its old lane value, its gradient, its record and its draw. -/
def updated (rec_ : ChanRec) (fmt : Nat) (nearest : Bool) (w g : Int) (u : Nat) : Output :=
  if rec_.flat then ⟨rec_.add.floor, none⟩
  else
    let p := round32 ((round32 (Dy.ofInt g)).mul rec_.mul)
    let t := round32 ((round32 (p.add (Dy.ofInt w))).add rec_.add)
    ⟨requantise fmt nearest t u, some t⟩

/-- UPDATE's work (R196): rows of weights, grouped as w' is; FIRST and the watched channel are global, as for every operator
(R185, log 70). -/
def State.updateRows (s : State) (v : Env) (w : MatY) (g : MatG) (sw : MatS) (y : MatY) : OpResult :=
  let groups := ceilDiv y.n y.group
  runGroups (fun s i =>
    let r := i / groups
    let j := i % groups
    let cnt := min y.group (y.n - j * y.group)
    let first := r * y.n + j * y.group
    match checkGroup (v.tag i) (some (s.scaleBlock false sw.saddr y.n y.group r j)) none cnt first none (.fmt y.ofmt) with
    | .error f => (s, some (i, f))
    | .ok recs =>
      ((List.range cnt).foldl (fun s q =>
        let n := j * y.group + q
        let grads := s.words (g.addr + n * g.pitch) g.k
        let old := s.lanes w.ofmt (w.addr + r * w.stride + n * w.pitch) g.k
        let (s, codes) := (List.range g.k).foldl (fun (acc : State × List Nat) k =>
          let (s, c) := acc.1.emit v (first + q) y.ofmt
            (updated (recAt recs q) y.ofmt v.h.nearest (intAt old k) (intAt grads k) (v.draw r (n * g.k + k)))
          (s, acc.2 ++ [c])) (s, [])
        s.putRow (y.addr + r * y.stride + n * y.pitch) 0 g.k codes) s, none)) s 0 ((v.h.rep + 1) * groups)

/-- UPDATE (R196). -/
def execUpdate (e : Nat) (s : State) : Host.Outcome State Fault Refusal :=
  match s.met e 0 0x19 4 with
  | none => .next s
  | some m =>
    .next (s.runMatrix m 6 8 (fun s => s.updateRows m.v (MatY.of (opWord m.ops 0)) (MatG.of (opWord m.ops 1))
      (MatS.of (opWord m.ops 2)) (MatY.of (opWord m.ops 3))))

/-! ### Adapter digests (R197 to R201) -/

/-- The replica ids of digest group `n`, by slot. -/
def State.dgrpIds (s : State) (n : Nat) : List Nat :=
  (List.range (min 6 (s.getF (Reg.meDpeer n) 63 60))).map (fun j => bits (s.reg (Reg.meDpeer n)) (10 * j + 9) (10 * j))

/-- DIGEST (R198, R201): a disabled group has no effect; a group of another field, or without this device's id, ends
the job; off the interval nothing happens; otherwise the digest is sent to every other replica and awaited. -/
def execDigest (e : Nat) (s : State) : Host.Outcome State Fault Refusal :=
  match s.met e 0 0x1C 1 with
  | none => .next s
  | some m =>
    let d := MatD.of (opWord m.ops 0)
    let n := d.group
    let g := s.reg (Reg.meDgrp n)
    let ids := s.dgrpIds n
    let interval := if bits g 47 32 = 0 then (s.image.map Image.digest).getD 1 else bits g 47 32
    .next (s.withStep m (fun s =>
      if !bit g 63 then s.startRun m []
      else if bits g 50 48 ≠ m.v.field ∨ !ids.contains s.devId then s.failCmd m Code.adaptConfig
      else if (m.v.step.toNat + 1) % interval ≠ 0 then s.startRun m []
      else
        match s.readRanges m (matReads m.v.h m.ops) with
        | (some s, _) => s
        | (none, s) =>
          let own := sha256 (s.read d.addr d.len)
          let s := (ids.filter (fun i => i != s.devId)).foldl (fun s i =>
            s.sendMsg (s.newMsg 0x05 m.v.field false i 32 (n + 65536 * m.v.step.toNat) own)) s
          let s := { s with dig := { s.dig with waiting := Map.put s.dig.waiting n ⟨e, m.c, m.t.sid, m.v.step, own⟩ } }
          s.block m .digest))

/-- The verdict of R199 over the present digests, this device's own first: 1 pass, 2 with the odd slot, or 4. -/
def digestVerdict (present : List (Nat × List Byte)) : Nat × Option Nat :=
  let same (d : List Byte) : Nat := (present.filter (fun p => p.2 == d)).length
  if present.all (fun p => same p.2 == present.length) then (1, none)
  else if 3 ≤ present.length then
    match present.find? (fun p => same p.2 == 1 && present.all (fun q => q.1 == p.1 || same q.2 + 1 == present.length)) with
    | some p => (2, some p.1)
    | none => (4, none)
  else (4, none)

/-- The replica ids of group `n` without slot `j`: later ids shift down and COUNT falls by 1 (R199). -/
def State.expelSlot (s : State) (n j : Nat) : State :=
  let ids := (s.dgrpIds n).eraseIdx j
  let v := (List.range ids.length).foldl (fun v k => v + ((ids[k]?).getD 0) * 2 ^ (10 * k)) (ids.length * 2 ^ 60)
  s.setReg (Reg.meDpeer n) v

/-- The DIGEST that waited in group `n` is complete: it is counted, and its strand goes on, ready if it gave up its engine. -/
def State.digestDone (s : State) (w : DigestWait) : State :=
  let s := ((s.endDigest w.ctx w.sid).bump32 (Reg.engCmds w.eng) 1 none).boundary w.eng
  match s.strandAt w.ctx w.sid with
  | none => s
  | some (_, _, t) => (s.unblock w.ctx w.sid).pass w.ctx t

/-- DIGEST_VERDICT (R199): every peer digest of group `n`'s waiting DIGEST has arrived, or TIMEOUT has passed; absent replicas are
marked and posted, and the present digests are compared, whether or not the waiting strand has given up its engine (R198). It
cannot happen while a digest is missing and TIMEOUT is 0. -/
def execDigestVerdict (n : Nat) (s : State) : Host.Outcome State Fault Refusal :=
  match Map.find s.dig.waiting n with
  | some w =>
    let e := w.eng
    let ids := s.dgrpIds n
    let slots := List.zip (List.range ids.length) ids
    let got (i : Nat) : Option (List Byte) :=
      if i = s.devId then some w.own
      else (s.dig.peers.find? (fun p => p.1 == n && p.2.1 == i && p.2.2.1 == w.step)).map (fun p => p.2.2.2)
    let absent := slots.filter (fun p => (got p.2).isNone)
    if !absent.isEmpty ∧ s.getF (Reg.meDgrp n) 31 16 = 0 then .next s
    else
      let present := slots.filterMap (fun p => (got p.2).map (fun d => (p.1, d)))
      let mask := (absent.map (fun p => 2 ^ p.1)).sum
      let field := s.getF (Reg.meDgrp n) 50 48
      let both (s : State) (code : Nat) (items : List Byte) : State := (s.post code e field items).postOwner code e items
      let s := absent.foldl (fun s p => both s Code.adaptPeerLost (natLE 2 p.2)) s
      let (verdict, odd) := digestVerdict present
      let selfOdd := match odd with
        | some j => (ids[j]?) == some s.devId
        | none => false
      let code := if verdict == 2 && selfOdd then 3 else verdict
      let s := s.setReg (Reg.meDstat n) (w.step.toNat * 2 ^ 32 + code * 2 ^ 28 + mask * 2 ^ 16)
      let s := { s with dig := { s.dig with peers := s.dig.peers.filter (fun p =>
        p.1 != n || atOrAfter p.2.2.1 w.step) } }
      if code = 1 then .next (s.digestDone w)
      else if code = 2 then
        let j := odd.getD 0
        let s := both s Code.adaptExpelled (natLE 2 ((ids[j]?).getD 0))
        .next ((s.expelSlot n j).digestDone w)
      else
        let s := (s.setF (Reg.meDgrp n) 63 63 0).setF (Reg.meDgrp n) (if code = 3 then 62 else 61) (if code = 3 then 62 else 61) 1
        let s := if code = 3 then both s Code.adaptExpelled (natLE 2 s.devId) else both s Code.adaptDiverged []
        let s := (s.endDigest w.ctx w.sid).bump32 (Reg.engCmds e) 1 none
        .next (s.endJob w.ctx (if code = 3 then Code.adaptExpelled else Code.adaptDiverged))
  | none => .next s

end Sys2Proof.Machine
end

