-- ==== Sys2Proof/Machine/Attention.lean ====
section
/-!
DEFINITION. The attention engines (chapter 7): ATTEND, the walker's blocks, and APPEND. ATTEND pairs and checks all
its groups when it starts (R222), takes its committed tokens block by block from KM's walker (R224), and its outputs
are computed when the last block has come.
-/
namespace Sys2Proof.Machine

/-- An ATTEND's operand words. -/
structure Attend where
  q : AttQ
  c : AttC
  u : AttU
  k : AttK
  y : RowY
  scale : Nat
  deriving DecidableEq, Repr

/-- The operand words of an ATTEND (R210). -/
def Attend.of (w : List Nat) : Attend :=
  ⟨AttQ.of (opWord w 0), AttC.of (opWord w 1), AttU.of (opWord w 2), AttK.of (opWord w 3), RowY.of (opWord w 4),
   bits (opWord w 5) 31 0⟩

/-- Scale blocks of one head (R221). -/
def Attend.perHead (a : Attend) : Nat := 32 + a.q.d / 32

/-- The furrow bytes of an ATTEND's streams (R211, R221). -/
def Attend.furrow (a : Attend) : List (Nat × Nat) :=
  if a.u.src ≠ 1 then []
  else [(a.u.waddr, a.q.g * headWeightBytes a.u.wfmt a.q.d), (a.u.saddr, a.q.g * a.perHead * 320)]

/-- Scale block `i` of the stream. -/
def State.attScale (s : State) (a : Attend) (i : Nat) : List Byte := s.streamRead (a.u.src == 1) (a.u.saddr + 320 * i) 320

/-- The offset in the weight stream of the data group of position `p` in head `h` (R221, R222). -/
def Attend.dataAt (a : Attend) (h p : Nat) : Nat :=
  let ga := 64 + 32 * rowBytes a.u.wfmt a.q.d
  a.u.waddr + h * headWeightBytes a.u.wfmt a.q.d +
    (if p < 16 then p * ga else 16 * ga + (p - 32) * (64 + 32 * rowBytes a.u.wfmt 512))

/-- The check of group `i` (R91, R222, R693), with its records. -/
def State.attGroup (s : State) (v : Env) (a : Attend) (i : Nat) : Except GroupFault (List ChanRec) :=
  let h := i / a.perHead
  let p := i % a.perHead
  let head (o : Nat) : Option (List Byte) := some (s.streamRead (a.u.src == 1) o 64)
  let scale := some (s.attScale a i)
  if p < 16 then checkGroup (v.tag i) scale (head (a.dataAt h p)) 32 (h * 512 + 32 * p) (some a.q.d) (.fmt 0)
  else if p < 32 then checkGroup (v.tag i) scale none 32 (h * 512 + 32 * (p - 16)) none (.fmt 0)
  else checkGroup (v.tag i) scale (head (a.dataAt h p)) 32 (h * a.q.d + 32 * (p - 32)) (some 512) (.fmt a.y.ofmt)

/-- Every group of every head is paired and checked in stream order (R222). -/
def State.attPair (s : State) (v : Env) (a : Attend) : OpResult :=
  runGroups (fun s i => match s.attGroup v a i with
    | .error f => (s, some (i, f))
    | .ok _ => (s, none)) s 0 (a.q.g * a.perHead)

/-- The records of group `i`. -/
def State.attRecs (s : State) (a : Attend) (i : Nat) : List ChanRec :=
  (chunksOf 8 32 (slice (s.attScale a i) 64 256)).map ChanRec.ofBytes

/-- The lane values of weight row `row` of head `h`'s data group at position `p`. -/
def State.attRow (s : State) (a : Attend) (h p row : Nat) : List Int :=
  let n := if p < 16 then a.q.d else 512
  let b := s.streamRead (a.u.src == 1) (a.dataAt h p + 64 + row * rowBytes a.u.wfmt n) (weightBytes a.u.wfmt n)
  (List.range n).map (weightLane a.u.wfmt b)

/-- The blocks of committed tokens in the window (R212, R224). -/
def Attend.blocks (a : Attend) (tc : Nat) : List Nat :=
  if a.c.start < tc then (List.range ((tc + 63) / 64 - a.c.start / 64)).map (fun i => a.c.start / 64 + i) else []

/-- The latent of token `t` (R212): of a committed one in the bytes `kv` of the blocks `ks` that the walker has supplied, of
another among the step's own. -/
def State.latent (s : State) (a : Attend) (tc : Nat) (ks : List Nat) (kv : List Byte) (t : Nat) : List Int :=
  let b := if t < tc then slice kv (16384 * ks.idxOf (t / 64) + 256 * (t % 64)) 256 else s.read (a.c.own + 256 * (t - tc)) 256
  (List.range 512).map (fun i => lane4 a.c.fmt (nibble b i))

/-- R213, R220: token `t` is allowed for query row `b`. -/
def State.allowed (s : State) (a : Attend) (tc b t : Nat) : Bool :=
  let o := t - a.c.start
  let causal := decide (t + a.q.q ≤ tc + a.c.nOwn + b)
  let bitmap := decide (o < a.k.mpitch * 8) && bit (s.byte (a.k.maddr + b * a.k.mpitch + o / 8)).toNat (o % 8)
  (!bit a.k.mode 0 || causal) && (!bit a.k.mode 1 || bitmap)

/-- The blocks that the walker supplies: those of the window that allow a token to some query row; the others are not read
(R232). -/
def State.attBlocks (s : State) (a : Attend) (tc : Nat) : List Nat :=
  (a.blocks tc).filter (fun k => (List.range 64).any (fun i =>
    let t := 64 * k + i
    decide (a.c.start ≤ t) && decide (t < tc) && (List.range a.q.q).any (fun b => s.allowed a tc b t)))

/-- The weighted latent z of pair `n` in row `b` (R215), over the allowed tokens and their latents. A score of minus infinity
below a finite maximum has probability 0 (R68); an infinite maximum makes the difference of R215 no number, for which the
manual states nothing, and leaves z free (log 3). -/
def attWeighted (s : State) (v : Env) (a : Attend) (h n : Nat) (zrec : Nat → ChanRec) (qt : List Int)
    (toks : List (Nat × List Int)) : List Int :=
  let m := (single a.scale).getD ⟨0, 0⟩
  let scores := toks.map (fun t => round32 ((round32 (Dy.ofInt (dot qt t.2))).mul m))
  match scores with
  | [] => List.replicate 512 0
  | c :: cs =>
    let smax := cs.foldl (fun x y => if x.lt y then y else x) c
    if smax.huge then (List.range 512).map (fun j => signed 4 (Config.freeByte s.free (h * 512 + j)).toNat)
    else
      let ps := (List.zip toks scores).map (fun q =>
        requantise 1 v.h.nearest (round32 ((Dy.ofInt 15).mul (exp2 (round32 (q.2.sub smax)))))
          (v.draw 0 (0x40000000 + n * 65536 + q.1.1)))
      let inv := div32 (Dy.ofInt 1) (Dy.ofInt ps.sum)
      (List.range 512).map (fun j =>
        let acc := ((List.zip ps toks).map (fun q => q.1 * intAt q.2.2 j)).sum
        let r := zrec j
        (r.outputWith (round32 (r.mul.mul inv)) 0 v.h.nearest acc (v.draw 0 (0x80000000 + n * 512 + j))).q)

/-- ATTEND's outputs (R215 to R219) over the bytes of its window's blocks: every row and head. -/
def State.attOutputs (s : State) (v : Env) (a : Attend) (tc : Nat) (kv : List Byte) : State :=
  let ks := s.attBlocks a tc
  let toks := ((List.range (tc + a.c.nOwn - a.c.start)).map (fun i => a.c.start + i)).map (fun t =>
    (t, s.latent a tc ks kv t))
  let d := a.q.d
  (List.range a.q.q).foldl (fun s b =>
    let mine := toks.filter (fun t => s.allowed a tc b t.1)
    let s := if mine.isEmpty then s.bump16 (Reg.aeEmptyrows v.eng) 1 none else s
    (List.range a.q.g).foldl (fun s h =>
      let n := b * a.q.g + h
      let x := s.lanes a.q.fmt (a.q.addr + b * a.q.pitch + h * d / 2) d
      let qt := (List.range 512).map (fun j =>
        ((recAt (s.attRecs a (h * a.perHead + j / 32)) (j % 32)).output 0 v.h.nearest
          (dot (s.attRow a h (j / 32) (j % 32)) x) (v.draw 0 (n * 512 + j))).q)
      let z := attWeighted s v a h n (fun j => recAt (s.attRecs a (h * a.perHead + 16 + j / 32)) (j % 32)) qt mine
      let s := { s with free := s.free + 1 }
      let (s, codes) := s.emitRow v (h * d) a.y.ofmt d (fun i =>
        (recAt (s.attRecs a (h * a.perHead + 32 + i / 32)) (i % 32)).output a.y.ofmt v.h.nearest
          (dot (s.attRow a h (32 + i / 32) (i % 32)) z) (v.draw 0 (0xC0000000 + n * d + i)))
      s.putRow (a.y.addr + b * a.y.pitch) (h * d) (a.q.g * d) codes) s) s

/-- ATTEND (R212 to R226): its range is checked; it waits for its furrow segments and for held edits; its groups are
paired; and it opens its walk, or, with no committed token in the window, computes at once. -/
def execAttend (e : Nat) (s : State) : Host.Outcome State Fault Refusal :=
  match s.met e 1 0x20 6 with
  | none => .next s
  | some m =>
    let a := Attend.of m.ops
    let tc := (s.kv m.c).tc
    let segs := (a.furrow.flatMap (fun r => s.furrowSegs r.1 r.2)).eraseDups
    .next (s.withStep m (fun s =>
      if 65536 < tc + a.c.nOwn then s.failCmd m Code.attRange
      else if !a.furrow.isEmpty ∧ s.furrowWait m.c segs then s.block m (.furrow segs)
      else if (s.kv m.c).held then s.block m .walker
      else
        match s.readRanges m (attReads m.v.h m.ops ++ a.furrow.flatMap (fun r => s.furrowRanges r.1 r.2)) with
        | (some s, _) => s
        | (none, s) =>
          match (s.engChecks m.v 7 (min 4 (a.q.q * a.q.g))).attPair m.v a with
          | (s, some (i, g)) => s.groupFault m i g
          | (s, none) =>
            if (s.attBlocks a tc).isEmpty then (s.attOutputs m.v a tc []).startRun m segs
            else ((s.openWalk m.c m.t.sid).startRun m segs).updRunning e (fun r => { r with waited := true })))

/-- The ATTEND that engine `e` runs, as it was met, with the blocks supplied so far. -/
def State.runningAttend (s : State) (e : Nat) : Option (Met × Nat) :=
  (s.runningCmd e 1 0x20).map (fun q => (q.1, q.2.raised))

/-- The steps whose read received a poisoned block of a stretch are marked (R376). -/
def State.markPoison (s : State) (f ua n c : Nat) (step : W32) : State :=
  let hit (b : PoisonBlk) : Bool := b.field == f && decide (b.ua < ua + n) && decide (ua < b.ua + b.len)
  { s with tu := { s.tu with poison := s.tu.poison.map (fun b =>
      if hit b && !b.marked.contains (c, step) then { b with marked := b.marked ++ [(c, step)] } else b) } }

/-- The translation granted to a reader is a lease on the page's location (R372). -/
def State.grantLease (s : State) (f ua c sid : Nat) : State :=
  match s.page f (ua / 65536) with
  | none => s
  | some p => if p.home = 0 then s else { s with tu := { s.tu with leases := s.tu.leases ++ [(⟨c, sid, p.home, p.loc⟩ : Lease)] } }

/-- Block `n` of the command's window is supplied; with the last one the outputs are computed. -/
def State.attSupply (s : State) (m : Met) (n : Nat) (bs : List Byte) : State :=
  let a := Attend.of m.ops
  let tc := (s.kv m.c).tc
  let s := s.updRunning m.v.eng (fun r => { r with raised := n + 1, got := r.got ++ bs })
  if n + 1 = (s.attBlocks a tc).length then
    (s.attOutputs m.v a tc (((s.engine m.v.eng).running.map Running.got).getD [])).updRunning m.v.eng (fun r => { r with got := [] })
  else s

/-- A block of `len` bytes read from the commons: a poisoned one ends the command. -/
def State.attCommons (s : State) (m : Met) (n x len : Nat) : State :=
  match s.cmRead x len with
  | (s, true) => s.failCmd m Code.memPoison
  | (s, false) => s.attSupply m n (s.read x len)

/-- The engine is connected to the bank group of the commons slot that holds the page, which no poisoned block hinders: it
reads the block there itself (R344). -/
def State.directSlot (s : State) (e f ua len : Nat) : Option Nat :=
  match s.page f (ua / 65536) with
  | none => none
  | some p =>
    let a := s.pageAddr p.home p.loc + ua % 65536
    if p.home = 1 ∧ inGroups (s.groups e) a len ∧ (s.poisonIn f ua len).isEmpty ∧ !s.quarantined f ua then some a else none

/-- A block of `len` bytes of a frame, read in its commons slot or through TU (R344): a poisoned one marks the step and is not
supplied, and one without a clean copy ends the command with KV_LOST (R273). -/
def State.attUnified (s : State) (m : Met) (n f ua len : Nat) : State :=
  match s.directSlot m.v.eng f ua len with
  | some a =>
    match s.cmRead a len with
    | (s, true) => (s.poisonBlk f ua).markPoison f ua len m.c m.x.step
    | (s, false) => (s.grantLease f ua m.c m.t.sid).attSupply m n (s.read a len)
  | none =>
    match s.tuRead f ua len true with
    | (s, .done bs) => (s.grantLease f ua m.c m.t.sid).attSupply m n bs
    | (s, .wait) => s.markPoison f ua len m.c m.x.step
    | (s, .code k) => s.failCmd m (if k = Code.memPoison then Code.kvLost else k)

/-- WALKER_BLOCK (R224 to R227, R273): the walker supplies the next block of the window. A block without a frame ends
the command with ATT_HOLE, a lost one with KV_LOST; a poisoned one marks the step and is not supplied. With the last
block the outputs are computed. -/
def execWalkerBlock (e block : Nat) (s : State) : Host.Outcome State Fault Refusal :=
  match s.runningAttend e with
  | none => .next s
  | some (m, n) =>
    let a := Attend.of m.ops
    if (s.attBlocks a (s.kv m.c).tc)[n]? ≠ some block ∨ !s.kmUp then .next s
    else
      let s := (s.kmCheck 2).kmCheck 0
      match s.blockPlace m.c m.x.field block a.c.layer with
      | none => .next (s.failCmd m Code.attHole)
      | some (_, true) => .next (s.failCmd m Code.kvLost)
      | some (.commons x, false) => .next (s.attCommons m n x 16384)
      | some (.unified f ua, false) => .next (s.attUnified m n f ua 16384)

/-- APPEND (R229, R251, R252): a count unlike the step's other APPENDs ends the job, then a window beyond token
65,535; it waits while no staging half is free for it; otherwise its latents are staged. -/
def execAppend (e : Nat) (s : State) : Host.Outcome State Fault Refusal :=
  match s.met e 1 0x21 1 with
  | none => .next s
  | some m =>
    let l := AttL.of (opWord m.ops 0)
    let r := s.kv m.c
    let seen := (m.j.open_.map OpenStep.appended).getD 0
    .next (s.withStep m (fun s =>
      if seen ≠ 0 ∧ seen ≠ l.n then s.failCmd m Code.appendCount
      else if 65536 < r.tc + l.n then s.failCmd m Code.kvFull
      else if r.both ∨ (r.flush ≠ 0 ∧ (r.tc + l.n - 1) / 64 ≠ r.tc / 64) then s.block m (.append l.n)
      else
        match s.readRanges m (attReads m.v.h m.ops) with
        | (some s, _) => s
        | (none, s) =>
          let s := (s.kmCheck 2).stageTokens r l.layer r.tc (s.read l.addr (256 * l.n)) l.n
          let s := s.updRun m.c (fun j => { j with open_ := j.open_.map (fun o =>
            { o with appended := l.n, layers := if o.layers.contains l.layer then o.layers else o.layers ++ [l.layer] }) })
          s.startRun m []))

end Sys2Proof.Machine
end

