-- ==== Sys2Proof/Machine/Camera.lean ====
section
/-!
DEFINITION. The image pipeline IP (chapter 15): parameter blocks, the pixel pipeline, output buffers and their
descriptors, statistics, cut frames, and the vision gate's jobs.
-/
namespace Sys2Proof.Machine

/-- IP runs: the core is up and IP is not in reset. -/
def State.ipUp (s : State) : Bool := s.coreUp && !s.domainHeld 12 && !s.domainHeld 25 && !s.inReset 11 && !s.safe

/-- Camera port `p`. -/
def State.camera (s : State) (p : Nat) : IpPort := (s.ip.ports[p]?).getD IpPort.reset

/-- Camera port `p` changed. -/
def State.updCamera (s : State) (p : Nat) (f : IpPort → IpPort) : State :=
  { s with ip := { s.ip with ports := listUpd s.ip.ports p f } }

/-! ### Which cameras run (R482, R504) -/

/-- The gate's camera (R502). -/
def State.gateCam (s : State) : Nat := bits s.ip.gate.toNat 62 61

/-- The rates that camera `p` is asked for: hail entries' and the gate's, and HOSTRATE while HOSTEN is set (R482). -/
def State.cameraRates (s : State) (p : Nat) : List Nat :=
  let claims := s.pw.claims.filterMap (fun c =>
    match s.hailEntry c.hail with
    | none => none
    | some e => if bit e.cameras p then some e.rate else none)
  claims ++ (if s.visionGate && s.gateCam == p then [5] else []) ++
    (if bit (s.camera p).ctl.toNat 31 then [bits (s.camera p).ctl.toNat 7 0] else [])

/-- The rate in force of camera `p` (R482): 0 admits every frame. -/
def State.cameraRate (s : State) (p : Nat) : Nat :=
  if bit (s.camera p).ctl.toNat 31 ∧ bits (s.camera p).ctl.toNat 7 0 = 0 then 0 else (s.cameraRates p).foldl max 0

/-- A write of the gate's registers takes effect (R504): the run count is 0. -/
def State.takeGate (s : State) : State :=
  if s.ip.fresh then
    { s with ip := { s.ip with
      gate := BitVec.ofNat 64 (s.reg Reg.ipGate), entry := BitVec.ofNat 32 (s.reg Reg.ipGateentry), fresh := false, run := 0 } }
  else s

/-- The cameras that run follow what asks for them (R482); one that stops does so at the end of its open frame. A port
whose camera does not run takes its CTL, and a gate that does not run its setting, at once. -/
def State.settleCameras (s : State) : State :=
  let s := if s.visionGate then s else s.takeGate
  (List.range 4).foldl (fun s p =>
    let q := s.camera p
    let s := if q.running then s else s.updCamera p (fun q => { q with ctl := BitVec.ofNat 32 (s.reg (Reg.ipPortCTL p)) })
    let want := s.image.isSome && !(s.cameraRates p).isEmpty
    if want && !q.running then s.updCamera p (fun q => { q with running := true, admitted := false })
    else if !want && q.running && q.frame.isNone then s.updCamera p (fun q => { q with running := false })
    else s) s

/-! ### Parameter blocks (R484 to R486) -/

/-- An output record (R485). -/
structure OutRec where
  en : Bool
  fmt : Nat
  dx : Nat
  dy : Nat
  nbuf : Nat
  x0 : Nat
  y0 : Nat
  cw : Nat
  ch : Nat
  buf : Nat
  size : Nat
  counter : Nat
  field : Nat
  deriving DecidableEq, Repr

/-- Output record `i` of a parameter block. -/
def OutRec.of (b : List Byte) (i : Nat) : OutRec :=
  let o := 832 + 64 * i
  let fl := fld b o 1
  ⟨bit fl 0, bits fl 2 1, fld b (o + 1) 1, fld b (o + 2) 1, fld b (o + 3) 1, fld b (o + 4) 2, fld b (o + 6) 2,
   fld b (o + 8) 2, fld b (o + 10) 2, fld b (o + 12) 4 * 64, fld b (o + 16) 4, fld b (o + 20) 2, fld b (o + 22) 1⟩

/-- Output columns and rows (R492). -/
def OutRec.ow (o : OutRec) : Nat := o.cw / 2 ^ o.dx

/-- Output rows. -/
def OutRec.oh (o : OutRec) : Nat := o.ch / 2 ^ o.dy

/-- Channels of the output (R494). -/
def OutRec.channels (o : OutRec) : Nat := if o.fmt = 1 ∨ o.fmt = 3 then 3 else 1

/-- Bytes of an output row (R64, R494). -/
def OutRec.rowBytes (o : OutRec) : Nat :=
  let n := o.ow * o.channels
  if o.fmt = 3 then ceilDiv n 2 else ceilDiv n 2 * 3

/-- The row pitch (R494). -/
def OutRec.pitch (o : OutRec) : Nat := ceilDiv o.rowBytes 64 * 64

/-- WIDTH of a parameter block. -/
def pbWidth (b : List Byte) : Nat := fld b 4 2

/-- HEIGHT. -/
def pbHeight (b : List Byte) : Nat := fld b 6 2

/-- EXPOSURES. -/
def pbExposures (b : List Byte) : Nat := fld b 1 1

/-- The knees of LIN `e`. -/
def linKnees (b : List Byte) (e : Nat) : List (Nat × Nat) :=
  (List.range 17).map (fun i => (fld b (64 + 136 * e + 8 * i) 2, fld b (68 + 136 * e + 8 * i) 4))

/-- The knees of TONE. -/
def toneKnees (b : List Byte) : List (Nat × Nat) :=
  (List.range 33).map (fun i => (fld b (512 + 8 * i) 4, fld b (516 + 8 * i) 2))

/-- Each neighbouring pair of a list satisfies `r`. -/
def chained (r : Nat → Nat → Bool) : List Nat → Bool
  | a :: b :: l => r a b && chained r (b :: l)
  | _ => true

/-- The output record's own checks (R485, R486): ranges, crop, size, ring and field. -/
def State.outOk (s : State) (b : List Byte) (i : Nat) : Bool :=
  let o := OutRec.of b i
  zeroAt b (832 + 64 * i + 23) 41 && decide (fld b (832 + 64 * i) 1 < 8) &&
  (!o.en ||
    (decide (o.dx ≤ 3) && decide (o.dy ≤ 3) && decide (1 ≤ o.nbuf) && decide (o.nbuf ≤ 8) &&
      o.cw % 2 ^ o.dx == 0 && o.ch % 2 ^ o.dy == 0 && o.size % 64 == 0 && decide (o.counter ≤ 511) &&
      (s.fieldRec o.field).isSome && decide (o.x0 + o.cw ≤ pbWidth b) && decide (o.y0 + o.ch ≤ pbHeight b) &&
      (o.fmt != 0 || (o.x0 % 2 == 0 && o.y0 % 2 == 0 && o.dx == 0 && o.dy == 0)) &&
      decide (1024 + o.oh * o.pitch ≤ o.size) && s.part.scratch.holds o.buf (o.nbuf * o.size) &&
      inGroups (s.groups 11) o.buf (o.nbuf * o.size)))

/-- R486: IP accepts the parameter block. -/
def State.paramOk (s : State) (b : List Byte) : Bool :=
  let o0 := OutRec.of b 0
  let o1 := OutRec.of b 1
  decide (fld b 0 1 ≤ 3) && decide (1 ≤ pbExposures b) && decide (pbExposures b ≤ 3) &&
  decide (0x2A ≤ fld b 2 1) && decide (fld b 2 1 ≤ 0x2E) && zeroAt b 3 1 &&
  decide (64 ≤ pbWidth b) && decide (pbWidth b ≤ 4096) && pbWidth b % 2 == 0 &&
  decide (2 ≤ pbHeight b) && decide (pbHeight b ≤ 4096) && pbHeight b % 2 == 0 &&
  decide (256 ≤ fld b 8 2) && decide (256 ≤ fld b 10 2) && zeroAt b 48 16 && zeroAt b 472 40 && zeroAt b 776 56 &&
  zeroAt b 960 64 &&
  (List.range 3).all (fun e =>
    chained (fun x y => decide (x < y)) ((linKnees b e).map Prod.fst) &&
    chained (fun x y => decide (x ≤ y)) ((linKnees b e).map Prod.snd) &&
    (List.range 17).all (fun i => zeroAt b (66 + 136 * e + 8 * i) 2)) &&
  fld b 512 4 == 0 && (toneKnees b).all (fun k => decide (k.1 ≤ 16777215)) &&
  chained (fun x y => decide (x ≤ y)) ((toneKnees b).map Prod.snd) &&
  (List.range 33).all (fun i => zeroAt b (518 + 8 * i) 2) &&
  s.outOk b 0 && s.outOk b 1 &&
  !(o0.en && o1.en && decide (o0.buf < o1.buf + o1.nbuf * o1.size) && decide (o1.buf < o0.buf + o0.nbuf * o0.size))

/-! ### The pixel pipeline (R488 to R492) -/

/-- Interpolation between knees (R488). -/
def interp (ks : List (Nat × Nat)) (c : Nat) : Nat :=
  match ks with
  | [] => 0
  | (x, y) :: rest =>
    if c < x then 0
    else if ((ks.getLast?).map Prod.fst).getD 0 ≤ c then ((ks.getLast?).map Prod.snd).getD 0
    else
      let rec go (x y : Nat) : List (Nat × Nat) → Nat
        | [] => y
        | (x', y') :: l => if x ≤ c ∧ c < x' then y + (c - x) * (y' - y) / (x' - x) else go x' y' l
      go x y rest

/-- Bits of a pixel code of a data type. -/
def codeBits (dtype : Nat) : Nat := 8 + 2 * (dtype - 0x2A)

/-- R488: a received code linearised. -/
def linearise (b : List Byte) (e c : Nat) : Nat :=
  min 16777215 (interp (linKnees b e) (c * 2 ^ (16 - codeBits (fld b 2 1))))

/-- The code of a site as received. -/
def siteCode (lines : List (List (List Nat))) (e y x : Nat) : Nat :=
  ((((lines[e]?).getD [])[y]?).getD [])[x]?.getD 0

/-- R489: the merged value of a site. -/
def merged (b : List Byte) (lines : List (List (List Nat))) (y x : Nat) : Nat :=
  let n := pbExposures b
  let l (e : Nat) : Nat := linearise b e (siteCode lines e y x)
  if n = 1 ∨ l 0 ≤ fld b 12 4 then l 0
  else if n = 2 ∨ l 1 ≤ fld b 16 4 then min 16777215 (l 1 * fld b 8 2 / 256)
  else min 16777215 (l 2 * fld b 10 2 / 256)

/-- The site of the pattern: 0 R, 1 Gr, 2 Gb, 3 B (R484). -/
def siteColour (pattern y x : Nat) : Nat := 2 * ((y + pattern / 2) % 2) + (x + pattern % 2) % 2

/-- R490: the white-balanced value of a site. -/
def balanced (b : List Byte) (lines : List (List (List Nat))) (y x : Nat) : Nat :=
  min 16777215 (merged b lines y x * fld b (20 + 2 * siteColour (fld b 0 1) y x) 2 / 4096)

/-- R491: components R, G and B of a pixel; rows and columns outside the frame replicate the nearest edge. -/
def demosaic (b : List Byte) (lines : List (List (List Nat))) (y x : Nat) : List Nat :=
  let h := pbHeight b
  let w := pbWidth b
  let at_ (dy dx : Nat) : Nat := balanced b lines (min (h - 1) (y + dy - 1)) (min (w - 1) (x + dx - 1))
  let own := balanced b lines y x
  let mean2 (p q : Nat) : Nat := (Dy.roundEven ⟨p + q, -1⟩).toNat
  let mean4 (p q r t : Nat) : Nat := (Dy.roundEven ⟨p + q + r + t, -2⟩).toNat
  let cross := mean4 (at_ 0 1) (at_ 2 1) (at_ 1 0) (at_ 1 2)
  let diag := mean4 (at_ 0 0) (at_ 0 2) (at_ 2 0) (at_ 2 2)
  let hor := mean2 (at_ 1 0) (at_ 1 2)
  let ver := mean2 (at_ 0 1) (at_ 2 1)
  match siteColour (fld b 0 1) y x with
  | 0 => [own, cross, diag]
  | 1 => [hor, own, ver]
  | 2 => [ver, own, hor]
  | _ => [diag, cross, own]

/-- The tone of a value (R491). -/
def tone (b : List Byte) (v : Nat) : Nat := min 4095 (interp (toneKnees b) v)

/-- The toned colour components of a pixel (R491). -/
def colours (b : List Byte) (lines : List (List (List Nat))) (y x : Nat) : List Nat :=
  let p := demosaic b lines y x
  (List.range 3).map (fun c =>
    let v := ((List.range 3).map (fun k => signed 16 (fld b (28 + 2 * (3 * c + k)) 2) * (((p[k]?).getD 0 : Nat) : Int))).sum
    tone b (max 0 (min 16777215 (v / 4096))).toNat)

/-- The components of a frame pixel in an output's format, before decimation (R491). -/
def pixel (b : List Byte) (lines : List (List (List Nat))) (fmt y x : Nat) : List Nat :=
  if fmt = 0 then [tone b (balanced b lines y x)]
  else
    let rgb := colours b lines y x
    if fmt = 2 then [((rgb[0]?).getD 0 + 2 * (rgb[1]?).getD 0 + (rgb[2]?).getD 0) / 4] else rgb

/-- The elements of output row `r` (R492). -/
def outRow (b : List Byte) (lines : List (List (List Nat))) (o : OutRec) (r : Nat) : List Nat :=
  (List.range o.ow).flatMap (fun q =>
    let px := (List.range (2 ^ o.dy)).flatMap (fun i => (List.range (2 ^ o.dx)).map (fun j =>
      pixel b lines o.fmt (o.y0 + r * 2 ^ o.dy + i) (o.x0 + q * 2 ^ o.dx + j)))
    (List.range o.channels).map (fun c =>
      let v := (Dy.roundEven ⟨((px.map (fun p => (p[c]?).getD 0)).sum : Nat), -((o.dx + o.dy : Nat) : Int)⟩).toNat
      if o.fmt = 3 then v / 256 else v))

/-- U12 elements packed in pairs (R64). -/
def pack12 : List Nat → List Byte
  | [] => []
  | [a] => natLE 3 (a % 4096)
  | a :: b :: l => natLE 3 (a % 4096 + b % 4096 * 4096) ++ pack12 l

/-- Merged rows received: every exposure's line is in. -/
def Frame.rows (f : Frame) : Nat :=
  if pbExposures f.params = 0 then 0
  else ((List.range (pbExposures f.params)).map (fun e => ((f.lines[e]?).getD []).length)).foldl min (pbHeight f.params)

/-- Output rows whose input rows, and their neighbours where the output is demosaiced, have been received. -/
def Frame.ready (f : Frame) (o : OutRec) : Nat :=
  let need (r : Nat) : Nat := min (pbHeight f.params) (o.y0 + (r + 1) * 2 ^ o.dy + (if o.fmt = 0 then 0 else 1))
  if o.en then ((List.range o.oh).filter (fun r => decide (need r ≤ f.rows))).length else 0

/-- The buffer that an output writes a frame into (R493). -/
def Frame.buffer (f : Frame) (o : OutRec) : Nat := o.buf + f.serial.toNat % o.nbuf * o.size

/-- The output rows that are ready and not yet written are written (R494). -/
def State.writeRows (s : State) (f : Frame) (o : OutRec) (done : Nat) : State :=
  ((List.range (f.ready o)).filter (fun r => decide (done ≤ r))).foldl (fun s r =>
    let row := outRow f.params f.lines o r
    s.write (f.buffer o + 1024 + r * o.pitch) (if o.fmt = 3 then pack4 row else pack12 row)) s

/-! ### Statistics and descriptors (R495, R497 to R499) -/

/-- R498: the bin of a value. -/
def histBin (v : Nat) : Nat :=
  if v = 0 then 0 else
    let p := Nat.log2 v
    1 + 2 * p + (if p = 0 then 0 else b2n (bit v (p - 1)))

/-- The merged rows received, site by site. -/
def Frame.sites (f : Frame) : List (List Nat) :=
  (List.range f.rows).map (fun y => (List.range (pbWidth f.params)).map (fun x => merged f.params f.lines y x))

/-- R498: the histogram's 49 bins. -/
def Frame.hist (f : Frame) : List Nat :=
  let bs := f.sites.flatten.map histBin
  (List.range 49).map (fun k => (bs.filter (fun b => b == k)).length)

/-- R499: the 128 band values. -/
def Frame.bands (f : Frame) : List Nat :=
  let h := pbHeight f.params
  (List.range 128).map (fun k =>
    let lo := k * h / 128
    let vs := ((f.sites.drop lo).take ((k + 1) * h / 128 - lo)).flatten
    if vs.isEmpty then 0 else min 4294967295 (vs.sum / vs.length))

/-- 2π in units of 2^−128. -/
def twoPi : Nat := 2138057168129933495719360746323741566601

/-- The cosine and sine of an angle in units of 2^−128, below 2π. -/
def cosSin (x : Nat) : Int × Int :=
  ((List.range 64).foldl (fun (a : Nat × Int × Int) k =>
    let t : Int := a.1
    let c := if k % 4 = 0 then a.2.1 + t else if k % 4 = 2 then a.2.1 - t else a.2.1
    let s := if k % 4 = 1 then a.2.2 + t else if k % 4 = 3 then a.2.2 - t else a.2.2
    (a.1 * x / 2 ^ 128 / (k + 1), c, s)) (2 ^ 128, 0, 0)).2

/-- R499: the flicker ratio at `hz` of band values `m` after `m'`, for a line period and a height. The centre row of a band is
the mean of its first and last row (log 79). -/
def flickerRatio (hz : Nat) (m m' : List Nat) (linep h : Nat) : Dy :=
  let turns := 2 * 256 * 625000000
  let w := (List.range 128).map (fun k =>
    cosSin (twoPi * (hz * (k * h / 128 + (k + 1) * h / 128 - 1) * linep % turns) / turns))
  let d := List.zipWith (fun (a b : Nat) => (a - b : Int)) m m'
  let c := dot d (w.map Prod.fst)
  let s := dot d (w.map Prod.snd)
  div32 ((sqrt32 ⟨c * c + s * s, -256⟩).mul ⟨1, 1⟩) (Dy.ofInt (max 128 m.sum))

/-- The code of a ratio as the part forms it: a part may differ from the exact one by 2^−20 relative (R499). -/
def State.nearRatio (s : State) (r : Dy) : State × Nat :=
  let c := code32 r
  let w := (8388608 + c % 8388608) / 1048576
  if c = 0 then (s, 0)
  else
    let (k, s) := s.pick (2 * w + 1)
    (s, c + k - w)

/-- R499: the verdict of two ratios against the threshold: 0 none, 1 100 Hz, 2 120 Hz. -/
def flickerVerdict (r100 r120 th : Nat) : Nat :=
  let a := (single r100).getD ⟨0, 0⟩
  let b := (single r120).getD ⟨0, 0⟩
  let best := if a.lt b then b else a
  if best.lt ⟨th, -16⟩ then 0 else if a.lt b then 2 else 1

/-- The descriptor of a frame (R495): status, line period, the flicker ratios and verdict. -/
def Frame.descriptor (f : Frame) (port status lines linep r100 r120 verdict : Nat) : List Byte :=
  let h := f.hist
  let b := natLE 4 f.serial.toNat ++ natLE 2 f.num ++ natLE 1 status ++ natLE 1 port ++ natLE 2 lines ++ natLE 2 0 ++
    natLE 4 linep ++ natLE 4 r100 ++ natLE 4 r120 ++ natLE 1 verdict ++ natLE 3 0 ++ natLE 4 ((h[0]?).getD 0) ++
    List.replicate 32 0 ++ (h.drop 1).flatMap (natLE 4) ++ f.bands.flatMap (natLE 4)
  b ++ List.replicate (1024 - b.length) 0

/-- The frame's outputs end: descriptors are written and the counters raised (R496); a cut frame is posted (R501,
R509). Outputs of a refused block count only where their own record stands. -/
def State.endOutputs (s : State) (port : Nat) (f : Frame) (status linep r100 r120 verdict : Nat) : State :=
  let outs := (List.range 2).filter (fun i => (OutRec.of f.params i).en && s.outOk f.params i)
  let s := outs.foldl (fun s i =>
    let o := OutRec.of f.params i
    let lines := if i = 0 then f.written.1 else f.written.2
    let s := s.write (f.buffer o) (f.descriptor port status lines linep r100 r120 verdict)
    let s := s.raiseShared o.field o.counter (f.serial + 1)
    if status = 0 then s
    else
      let items := natLE 1 port ++ natLE 4 f.serial.toNat ++ natLE 1 status ++ natLE 2 lines
      (s.post Code.frameCut 11 o.field items).postOwner Code.frameCut 11 items) s
  let s := if status ≠ 0 ∧ outs.isEmpty then
      s.postOwner Code.frameCut 11 (natLE 1 port ++ natLE 4 f.serial.toNat ++ natLE 1 status ++ natLE 2 0) else s
  s.wake

/-! ### Cut frames and the gate's jobs (R501 to R503) -/

/-- A gate frame without a job is counted (R502). -/
def State.gateMiss (s : State) : State := s.bump Reg.ipGatecnt 47 32 49 1 none

/-- The gate takes the frames of this port. -/
def State.gates (s : State) (p : Nat) : Bool := s.visionGate && s.gateCam == p && bit s.ip.gate.toNat 63

/-- GATE_SUBMIT (R502): a job for the gate's context, as if the host had submitted it. -/
def State.submitGate (s : State) (serial : W32) : State :=
  let c := bits s.ip.gate.toNat 47 32
  if s.dxUp ∧ (s.submitRefusal c s.ip.entry.toNat).isNone then
    ((s.queueJob c s.ip.entry.toNat none (some serial.toNat)).bump Reg.ipGatecnt 31 0 48 1 none).settleEngines
  else s.gateMiss

/-- The flicker ratios and verdict of a frame that forms none: no rule states the ratios, which are free (log 3). -/
def State.noFlicker (s : State) : State × Nat × Nat :=
  let (a, s) := s.draw
  let (b, s) := s.draw
  (s, a % 4294967296, b % 4294967296)

/-- The open frame of port `p` is cut with a status (R501). -/
def State.cutFrame (s : State) (p status : Nat) : State :=
  match (s.camera p).frame with
  | none => s
  | some f =>
    let s := if status = 3 then s.bump (Reg.ipPortCNT1 p) 47 32 50 1 none
      else if status = 2 then s.bump (Reg.ipPortCNT1 p) 31 16 49 1 none
      else if status = 1 then s.bump (Reg.ipPortCNT1 p) 15 0 48 1 none else s
    let (s, a, b) := s.noFlicker
    let s := s.endOutputs p f status 0 a b 0xFF
    let s := s.updCamera p (fun q => { q with frame := none, bands := none })
    let s := if s.gates p then s.gateMiss else s
    s.settleCameras

/-- IP reads `n` bytes of the commons: none where its CONNECT record names no group for them, in the state store, or where a
word is found uncorrectable (R126, R281, R345). -/
def State.ipRead (s : State) (a n : Nat) : State × Option (List Byte) :=
  if !inGroups (s.groups 11) a n ∨ s.part.store.touches a n then (s, none)
  else match s.cmRead a n with
    | (s, true) => (s, none)
    | (s, false) => (s, some (s.read a n))

/-- CSI_FRAME_START (R480, R483, R484, R486, R508): a frame start of virtual channel 0. A parameter
block that IP cannot read, or that lies outside the scratch region, is refused like one that fails R486 (log 76). -/
def execCsiFrameStart (port num elapsed : Nat) (s : State) : Host.Outcome State Fault Refusal :=
  if !s.ipUp ∨ 4 ≤ port ∨ !(s.camera port).running then .next s
  else
    let s := s.cutFrame port 2
    let s := if s.visionGate && s.gateCam == port then s.takeGate else s
    let s := s.updCamera port (fun q => { q with ctl := BitVec.ofNat 32 (s.reg (Reg.ipPortCTL port)) })
    let s := s.settleCameras
    let q := s.camera port
    let rate := s.cameraRate port
    if !q.running then .next s
    else if rate = 0 ∨ !q.admitted ∨ 625000000 * 15 / (16 * rate) ≤ elapsed then
      let s := s.bump (Reg.ipPortCNT0 port) 31 0 48 1 none
      let a := s.getF (Reg.ipPortPARAM port) 21 0 * 64
      let (s, r) := if s.part.scratch.holds a 1024 then s.ipRead a 1024 else (s, none)
      let b := r.getD (List.replicate 1024 0)
      let f : Frame := ⟨num, q.serial, b, [[], [], []], (0, 0)⟩
      let s := s.updCamera port (fun q => { q with admitted := true, frame := some f, serial := q.serial + 1 })
      .next (if s.paramOk b then s else s.cutFrame port 3)
    else .next (s.bump (Reg.ipPortCNT0 port) 47 32 49 1 none)

/-- CSI_LINE (R479, R480, R487, R501, R505): a long packet. One of another data type, or of a virtual channel beyond
the exposures, is discarded; one for which there is no room cuts the frame with OVERFLOW, and a bad one, one of
another length or one too many with LINK. -/
def execCsiLine (port vc dtype : Nat) (full good : Bool) (pixels : List Nat) (s : State) :
    Host.Outcome State Fault Refusal :=
  match (s.camera port).frame with
  | none => .next s
  | some f =>
    if !s.ipUp then .next s
    else
      if dtype ≠ fld f.params 2 1 ∨ pbExposures f.params ≤ vc then .next s
      else
      let parity := s.armed Reg.ipInject 0 || s.armed Reg.ipInject 1
      let s := (s.check Reg.ipInject Reg.ipErr 0 11 none).check Reg.ipInject Reg.ipErr 1 11 none
      if parity then .next (s.cutFrame port 5)
      else if full then .next (s.cutFrame port 1)
      else if !good then .next (s.cutFrame port 2)
      else if pixels.length ≠ pbWidth f.params ∨ pbHeight f.params ≤ ((f.lines[vc]?).getD []).length then
        .next (s.cutFrame port 2)
      else
        let codes := pixels.map (fun c => c % 2 ^ codeBits dtype)
        let f := { f with lines := listUpd f.lines vc (fun l => l ++ [codes]) }
        let o0 := OutRec.of f.params 0
        let o1 := OutRec.of f.params 1
        let s := (s.writeRows f o0 f.written.1).writeRows f o1 f.written.2
        .next (s.updCamera port (fun q => { q with frame := some { f with written := (f.ready o0, f.ready o1) } }))

/-- The flicker ratios and the verdict of a frame (R499): from the bands of the port's last complete frame, or none. -/
def State.flicker (s : State) (port linep : Nat) (f : Frame) : State × Nat × Nat × Nat :=
  match (s.camera port).bands with
  | none =>
    let (s, a, b) := s.noFlicker
    (s, a, b, 0xFF)
  | some m' =>
    let a := s.nearRatio (flickerRatio 100 f.bands m' linep (pbHeight f.params))
    let b := a.1.nearRatio (flickerRatio 120 f.bands m' linep (pbHeight f.params))
    (b.1, a.2, b.2, flickerVerdict a.2 b.2 (fld f.params 46 2))

/-- FRAME_COMPLETE (R480, R496, R499, R502): the frame end; statistics, descriptors, counters, and the gate's job. -/
def execFrameComplete (port linep : Nat) (s : State) : Host.Outcome State Fault Refusal :=
  match (s.camera port).frame with
  | none => .next s
  | some f =>
    if !s.ipUp then .next s
    else
      let (s, a, b, verdict) := s.flicker port linep f
      let s := s.endOutputs port f 0 linep a b verdict
      let vs := if verdict = 0xFF then (s.camera port).verdicts else (verdict :: (s.camera port).verdicts).take 3
      let s := s.updCamera port (fun q => { q with frame := none, bands := some f.bands, verdicts := vs })
      let s := if vs.length = 3 ∧ vs.all (fun v => v == vs.head?.getD 0) then
          s.setF (Reg.ipPortSTATUS port) 1 0 (vs.head?.getD 0) else s
      let s := if s.gates port ∧ (OutRec.of f.params 1).en then s.submitGate f.serial else s
      .next s.settleCameras

/-- GATE_VERDICT (R503): a gate job completes; its score moves the run count, which may raise VISION. A
score that IP cannot read gives no verdict (log 76). -/
def State.gateVerdict (s : State) : State :=
  match s.ipRead (s.getF Reg.ipGatescore 21 0 * 64) 2 with
  | (s, none) => s
  | (s, some b) =>
  let score := signed 16 (fld b 0 2)
  let th := signed 16 (bits s.ip.gate.toNat 31 16)
  let run := if th ≤ score then s.ip.run + 1 else 0
  if run ≠ 0 ∧ bits s.ip.gate.toNat 60 57 ≤ run then
    ({ s with ip := { s.ip with run := 0 } }).raiseHail 2 none
  else { s with ip := { s.ip with run := run } }

/-- A write of IP.GATE or IP.GATEENTRY (R504). -/
def State.writeIpGate (s : State) (a : Nat) (hi : Bool) (v : W32) : State :=
  let s := s.putWord a hi v
  ({ s with ip := { s.ip with fresh := true } }).settleCameras

end Sys2Proof.Machine
end

