-- ==== Sys2Proof/Machine/Claims.lean ====
section
/-!
DEFINITION. Hails and claims (chapter 1): the standing rung, serving a hail, releasing a claim, launches, hold timers,
the host's claim, and a slot-1 session's verdict.
-/
namespace Sys2Proof.Machine

/-! ### The standing rung (R31, R513, R649, R656) -/

/-- The higher of two rungs. -/
def Rung.max (a b : Rung) : Rung := if a.height < b.height then b else a

/-- R513: a job other than a gate job runs, or is queued in a context that is not HALTED. -/
def State.jobDemand (s : State) : Bool := s.dx.ctxs.any (fun p => p.2.demands)

/-- The rung that claims, the host and the floor ask for (R31, R513). -/
def State.claimed (s : State) : Rung :=
  let floor := match s.pw.island with | none => Rung.doze | some (p, _, _) => p.floor
  let r := s.pw.claims.foldl (fun r c => r.max c.rung) (if s.image.isSome then floor else .doze)
  let r := match s.pw.hostClaim with | none => r | some h => r.max h
  if s.image.isSome && s.jobDemand then .run else r

/-- The rung on which the device is to stand: Doze in the safe state (R617) and without an image (R656); in Fallow, a
claim starts the climb (R28). -/
def State.standing (s : State) : Rung :=
  if s.pw.rung = .fallow ∧ s.pw.claims.isEmpty then .fallow
  else if s.safe || s.image.isNone then .doze
  else s.claimed

/-! ### Clearing and releasing -/

/-- What follows claims is brought up to date: the array, the cameras and the engines Run ungates (R32, R458, R482,
R511). -/
def State.settle (s : State) : State := ((s.settleArray).settleCameras).settleEngines

/-- The claim of hail `h` is taken away: its launch stream closes (R471), and a slot-1 session ends with LO_HIT's (R465).
A launch job and an event that still waited go with it (R34). -/
def State.dropClaim (s : State) (h : Nat) : State :=
  if s.pw.claims.any (fun c => c.hail == h) then
    let s := s.closeStreams (fun t => t.hail == h)
    let s := { s with pw := { s.pw with claims := s.pw.claims.filter (fun c => c.hail != h) } }
    if h = 0 then { s with lo := { s.lo with session := none } } else s
  else s

/-- The claim of hail `h` is cleared, and what follows claims with it. -/
def State.clearClaim (s : State) (h : Nat) : State :=
  if s.pw.claims.any (fun c => c.hail == h) then (s.dropClaim h).settle else s

/-- R36, R37: the claim of hail `h` is released: cleared, and its release_to hail raised. Without a claim nothing
happens. -/
def State.releaseHail (s : State) (h : Nat) : State :=
  if s.pw.claims.any (fun c => c.hail == h) then
    let s := s.clearClaim h
    match (s.hailEntry h).bind HailEntry.releaseTo with
    | none => s
    | some r => s.raiseHail r none
  else s

/-! ### Serving (R30 to R35, R654) -/

/-- LAUNCH_REFUSED with the dispatcher's code (R34). -/
def State.launchRefused (s : State) (h code : Nat) : State :=
  s.postPw Code.launchRefused h (natLE 1 h ++ natLE 1 code)

/-- The launch job of a claim is submitted (R34), and its stream opens (R471); a refusal is posted. -/
def State.launch (s : State) (h : Nat) (e : HailEntry) (anchor : Nat) : State :=
  match e.launch with
  | none => s
  | some (c, entry) =>
    if s.image.isNone then s.launchRefused h Code.noImage
    else if s.inReset 39 then s.launchRefused h Code.blockReset
    else match s.submitRefusal c entry with
      | some code => s.launchRefused h code
      | none =>
        let s := s.queueJob c entry (some h) none
        (if e.lookback = 0 then s else s.openStream h c anchor e.lookback).settleEngines

/-- The device first stands on the target rung of a claim: HAIL is posted where the entry asks, and the launch job is
submitted. Without an image this comes at once (R526). -/
def State.standClaim (s : State) (c : Claim) : State :=
  if c.stood ∨ (s.pw.rung.height < c.rung.height ∧ s.image.isSome) then s
  else
    let s := { s with pw := { s.pw with
      claims := s.pw.claims.map (fun (d : Claim) => if d.hail = c.hail then { d with stood := true } else d) } }
    match s.hailEntry c.hail with
    | none => s
    | some e =>
      let s := if e.notify then s.postPw Code.hail c.hail (natLE 1 c.hail ++ natLE 1 c.rung.code) else s
      s.launch c.hail e c.anchor

/-- Every claim whose target the device now first stands on, in hail order. -/
def State.standClaims (s : State) : State :=
  ((List.range 14).filterMap (fun h => s.pw.claims.find? (fun c => c.hail == h))).foldl State.standClaim s

/-- A hail is served (R30): its claim is set with a fresh hold timer in the same I-cycle in which the claim it replaces is
cleared, and LO_HIT opens a slot-1 session. Served before AF has written a sample, it takes index 0 as its anchor
(log 67). -/
def State.serve (s : State) (r : Raised) (e : HailEntry) : State :=
  let s := match e.replaces with
    | none => s
    | some q => s.dropClaim q
  let c : Claim := ⟨r.hail, e.target, e.hold, false, r.verdict.getD s.lastSample⟩
  let s := { s with pw := { s.pw with claims := s.pw.claims.filter (fun (d : Claim) => d.hail != r.hail) ++ [c] } }
  let s := s.settle
  let s := if r.hail = 0 ∧ s.afUp then s.openSession else s
  s.standClaim c

/-- The raised hail with the lowest number (R35). -/
def State.firstRaised (s : State) : Option Raised :=
  (List.range 14).findSome? (fun h => s.pw.raised.find? (fun r => r.hail == h))

/-- PW runs and serves: RESET_N is high, PW is not in reset, and no window is open (R519). -/
def State.pwUp (s : State) : Bool := !s.resetLow && !s.inReset 41

/-- HOST is raised as WAKE_N raises it: while no claim of HOST stands (R529). -/
def State.raiseHost (s : State) : State :=
  if s.pw.claims.any (fun c => c.hail == 11) then s else s.raiseHail 11 none

/-- PW's sample of the edge latch (R529): set, it raises HOST and clears. -/
def State.sampleLatch (s : State) : State :=
  if s.pw.latch then ({ s with pw := { s.pw with latch := false } }).raiseHost else s

/-- SERVE_HAIL (R30, R35): PW serves the raised hail with the lowest number; in the safe state, or without an entry,
it is discarded (R29, R617). -/
def execServeHail (s : State) : Host.Outcome State Fault Refusal :=
  if !s.pwUp ∨ s.pw.window then .next s
  else
  let s := s.sampleLatch
  match s.firstRaised with
    | none => .next s
    | some r =>
      let s := { s with pw := { s.pw with raised := s.pw.raised.filter (fun q => q.hail != r.hail) } }
      match s.hailEntry r.hail with
      | none => .next s
      | some e => if s.safe ∨ !e.enable then .next s else .next (s.serve r e)

/-- HOLD_EXPIRY (R38, R682): the hold timer of a claim expires: HAIL_TIMEOUT is posted and the claim released. Without
ICLK no hold timer counts. -/
def execHoldExpiry (hail : Nat) (s : State) : Host.Outcome State Fault Refusal :=
  if s.pwUp ∧ s.getF Reg.ckStatus 29 29 = 1 ∧ s.pw.claims.any (fun c => c.hail == hail && c.hold != 0) then
    .next ((s.postPw Code.hailTimeout hail (natLE 1 hail)).releaseHail hail)
  else .next s

/-! ### The host's messages (R649) -/

/-- HAIL (R649). -/
def execHail (r : Role) (rid : Nat) (s : State) : Host.Outcome State Fault Refusal :=
  .next (s.message r rid Msg.hail 0 (fun s => (s.raiseHost, Code.ok, [])))

/-- RELEASE (R36). -/
def execRelease (r : Role) (rid hail : Nat) (s : State) : Host.Outcome State Fault Refusal :=
  .next (s.message r rid Msg.release 0 (fun s =>
    if 13 < hail then (s, Code.badType, []) else (s.releaseHail hail, Code.ok, [])))

/-- HOST_CLAIM (R649): a rung code 0 to 5 sets the host's own claim, 0xFF clears it. -/
def execHostClaim (r : Role) (rid rung : Nat) (s : State) : Host.Outcome State Fault Refusal :=
  .next (s.message r rid Msg.hostClaim 0 (fun s =>
    if rung = 0xFF then (({ s with pw := { s.pw with hostClaim := none } }).settle, Code.ok, [])
    else if rung ≤ 5 then (({ s with pw := { s.pw with hostClaim := Rung.ofCode rung } }).settle, Code.ok, [])
    else (s, Code.badType, [])))

/-! ### The slot-1 session (R465) -/

/-- LO_SESSION_FRAME (R465): the session's next frame, once its last sample is held; an accept raises LO_ACCEPT, a
reject releases LO_HIT's claim, and either ends the session. -/
def execLoSessionFrame (s : State) : Host.Outcome State Fault Refusal :=
  match s.lo.session, s.lo.model1 with
  | some r, some blob =>
    let n := r.start + (r.frames + 1) * loHop blob - 1
    if !s.loUp ∨ s.af.count ≤ n then .next s
    else
      let s := s.ringChecks.loChecks
      let r := r.take blob (s.frameSamples r.kept r.anchor r.start n)
      let hold := fld blob 16 1
      if hold ≤ r.high then
        let s := { s with lo := { s.lo with session := none } }
        .next (((s.setReg Reg.loHit1 (n % 4294967296)).bump Reg.loCnt 31 16 49 1 none).raiseHail 1 (some n))
      else if hold ≤ r.low ∨ fld blob 18 2 ≤ r.frames then
        let s := { s with lo := { s.lo with session := none } }
        .next ((s.bump Reg.loCnt 47 32 50 1 none).releaseHail 0)
      else .next { s with lo := { s.lo with session := some r } }
  | _, _ => .next s

end Sys2Proof.Machine
end

