-- ==== Sys2Proof/Machine/StateEngine.lean ====
section
/-!
DEFINITION. The state engine (chapter 9): slots and streams, the swap path, SCAN and HOLD, and the stream operations
of the host.
-/
namespace Sys2Proof.Machine

/-! ### The swap path (R306, R307) -/

/-- SE works on its swap path: the core is up, SE is not in reset, and the device is not in the safe state. -/
def State.seUp (s : State) : Bool := s.coreUp && !s.domainHeld 7 && !s.inReset 7 && !s.safe && s.image.isSome

/-- The 6,144 bytes a swap-out saves of slot `k` (R306): exponents and blocks of the committed banks. -/
def State.savedSlot (s : State) (k : Nat) : List Byte :=
  let cur := ((Map.find s.se.slots k).map SlotEntry.cur).getD 0
  let bank (i : Nat) : Nat := s.slotBank k (b2n (bit cur i))
  (List.range 63).map (fun i => s.byte (bank i + i)) ++ [0] ++
    (List.range 63).flatMap (fun i => s.read (bank i + 64 + 96 * i) 96) ++ List.replicate 32 0

/-- SWAP_OUT (R306): the stream's committed banks are written to its swap area, its slots are free, and STATE is 2. A
swap area that cannot be written, or a bank read uncorrectable, loses the state (log 36); an area without room in the tiers yet waits. -/
def execSwapOut (s : State) : Host.Outcome State Fault Refusal :=
  match s.se.swapQ with
  | .out c :: rest =>
    match s.stream c, s.ctxField c with
    | some r, some f =>
      if !s.seUp ∨ (s.allIsolated ∧ !s.slotOpen f) then .next s
      else
        let slots := s.streamSlots r
        let bytes := slots.flatMap s.savedSlot
        let (s, poison) := slots.foldl (fun (a : State × Bool) k =>
          let (s, p) := a.1.cmRead (a.1.slotBank k 0) 12288
          (s, a.2 || p)) (s, false)
        if poison then .next (({ s with se := { s.se with swapQ := rest } }).loseStream c)
        else match s.tuWrite f (r.swap) bytes .swap with
        | (s1, .done _) =>
          let s1 := { s1 with se := { s1.se with swapQ := rest } }
          let s1 := (s1.freeSlots c).updStream c (fun r => { r with state := 2, first := 0 })
          .next ((s1.bump (Reg.seField f) 31 16 33 1 (some f)).retryStreams)
        | (s1, .wait) => .next s1
        | (s1, .code k) =>
          if k = Code.tierFull then .next s1
          else .next (({ s1 with se := { s1.se with swapQ := rest } }).loseStream c)
    | _, _ => .next { s with se := { s.se with swapQ := rest } }
  | _ => .next s

/-- Bank 0 of each slot filled from the saved bytes, or with blank blocks. -/
def State.fillSlots (s : State) (saved : List Byte) (zero : Bool) : List Nat → State
  | [] => s
  | k :: ks =>
    (s.write (s.slotBank k 0) (if zero then blankBank else saved.take 6144)).fillSlots (saved.drop 6144) zero ks

/-- SWAP_IN (R306, R307): bank 0 is filled from the swap area, or with blank blocks; an area without clean copy sets
LOST. A step that was open when the stream was displaced restarts (R437), taking nothing from its counts. -/
def execSwapIn (lost : Bool) (s : State) : Host.Outcome State Fault Refusal :=
  match s.se.swapQ with
  | .into c :: rest =>
    match s.stream c, s.ctxField c with
    | some r, some f =>
      if !s.seUp ∨ (s.allIsolated ∧ !s.slotOpen f) then .next s
      else
        let pop (s : State) : State := { s with se := { s.se with swapQ := rest } }
        let fill (s : State) (bytes : List Byte) : State :=
          let s := (pop s).fillSlots bytes r.zero (s.streamSlots r)
          let s := s.updStream c (fun r => { r with state := 1, zero := false })
          let s := s.bump (Reg.seField f) 15 0 32 1 (some f)
          let back := s.se.displaced.contains c
          let s := { s with se := { s.se with displaced := s.se.displaced.filter (fun d => d != c) } }
          (if back then s.replayStep c else s).wake
        if r.zero then .next (fill s [])
        else if lost then .next (((pop s).loseStream c).wake)
        else
          match s.tuRead f r.swap (6144 * r.nslot) false with
          | (s1, .done bs) => .next (fill s1 bs)
          | (s1, .wait) => .next s1
          | (s1, .code _) => .next (((pop s1).loseStream c).wake)
    | _, _ => .next { s with se := { s.se with swapQ := rest } }
  | _ => .next s

/-! ### The state's arithmetic (R283, R294 to R297) -/

/-- The grid values of a numeric block (R283). -/
def gridValues (b : List Byte) : List Int :=
  (List.range 32).map (fun j => 256 * signed 16 (fld b (2 * j) 2) + (byteAt b (64 + j) : Nat))

/-- The bytes of a numeric block. -/
def gridBytes (qs : List Int) : List Byte :=
  qs.flatMap (fun q => natLE 2 ((q / 256) % 65536).toNat) ++ qs.map (fun q => BitVec.ofNat 8 (q % 256).toNat)

/-- R295: the exponent e' for the values of a block, from `e` up. -/
def raiseExp (ys : List Dy) (e : Nat) : Nat → Nat
  | 0 => e
  | fuel + 1 =>
    let fits (y : Dy) : Bool :=
      let v := y.mul ⟨1, 150 - (e : Int)⟩
      (Dy.ofInt (-8388608)).le v && v.le (Dy.ofInt 8388607)
    if 254 ≤ e ∨ ys.all fits then min 254 e else raiseExp ys (e + 1) fuel

/-- R295: one grid value, and whether it was clamped. -/
def gridRound (v : Dy) (u : Nat) : Int × Bool :=
  let lo := v.floor
  let up := (Dy.ofInt u).lt ((v.sub (Dy.ofInt lo)).mul ⟨1, 24⟩)
  let q := if up then lo + 1 else lo
  if v.lt (Dy.ofInt (-8388608)) then (-8388608, true)
  else if (Dy.ofInt 8388607).lt v then (8388607, true)
  else (q, false)

/-- A block: its exponent and grid values. -/
abbrev Block := Nat × List Int

/-- R295: a block written from its 32 values, with the draws of its elements, and how many values were clamped. -/
def writeBlock (e : Nat) (ys : List Dy) (draw : Nat → Nat) : Block × Nat :=
  let e' := raiseExp ys e 255
  let rs := (List.zip ys (List.range ys.length)).map (fun p => gridRound (p.1.mul ⟨1, 150 - (e' : Int)⟩) (draw p.2))
  ((e', rs.map Prod.fst), (rs.filter Prod.snd).length)

/-- R296: one doubling of a block while it may. -/
def renormBlock (b : Block) : Nat → Block
  | 0 => b
  | fuel + 1 =>
    if 1 < b.1 ∧ b.2.all (fun q => decide (-4194304 ≤ 2 * q) && decide (2 * q ≤ 4194303)) then
      renormBlock (b.1 - 1, b.2.map (fun q => 2 * q)) fuel
    else b

/-- Values clamped at E = 254 are counted (R295): SE.SATCNT posts STATE_SAT when it stops. -/
def State.clamped (s : State) (n f : Nat) : State :=
  match s.bumpQuiet Reg.seSatcnt 15 0 16 n with
  | (s, false) => s
  | (s, true) => (if f < 8 then s.post Code.stateSat 7 f [] else s).postOwner Code.stateSat 7 []

/-! ### SCAN (R288 to R298) -/

/-- The operand words of a SCAN. -/
structure Scan where
  x : StX
  l : StL
  saddr : Nat
  y : RowY
  deriving DecidableEq, Repr

/-- The operand words of a SCAN (R289). -/
def Scan.of (w : List Nat) : Scan :=
  ⟨StX.of (opWord w 0), StL.of (opWord w 1), bits (opWord w 2) 63 42 * 64, RowY.of (opWord w 3)⟩

/-- A layer as SCAN runs it: its table entry, its number and its reduction length K. -/
structure ScanLayer where
  e : Layer
  l : Nat
  k : Nat
  deriving DecidableEq, Repr

/-- Groups of 32 channels of each kind. -/
def ScanLayer.nb (y : ScanLayer) : Nat := y.e.n / 32

/-- Sets of groups with data: b, and g when GATED. -/
def ScanLayer.kinds (y : ScanLayer) : Nat := if y.e.gated then 2 else 1

/-- Scale blocks of the layer (R292). -/
def ScanLayer.groups (y : ScanLayer) : Nat := (y.kinds + 1) * y.nb

/-- Bytes of a data group. -/
def ScanLayer.dataGroup (y : ScanLayer) : Nat := 64 + 32 * rowBytes y.e.wfmt y.k

/-- The layers of a SCAN, from its table (R290). -/
def State.scanLayers (s : State) (c : Scan) : List ScanLayer :=
  let es := (List.range c.l.layers).map (fun l => Layer.of (s.read (c.l.table + 32 * l) 32))
  (List.zip es (List.range es.length)).map (fun p =>
    ⟨p.1, p.2, if p.2 = 0 then c.x.k else ((es[p.2 - 1]?).map Layer.n).getD 0⟩)

/-- The stage holds what the layer names (R293). -/
def State.stageLoaded (s : State) (c : Scan) (y : ScanLayer) : Bool :=
  match Map.find s.se.stages y.l with
  | none => false
  | some g => g.table == c.l.table && g.saddr == c.saddr

/-- The commons ranges a SCAN names (R291). -/
def scanRanges (c : Scan) (ls : List ScanLayer) : List (Nat × Nat) :=
  let last := ((ls.getLast?).map (fun y => y.e.n)).getD 32
  [(c.x.addr, (c.x.t - 1) * c.x.pitch + ceilDiv c.x.k 2), (c.y.addr, (c.x.t - 1) * c.y.pitch + ceilDiv last 2),
   (c.saddr, 320 * (ls.map ScanLayer.groups).sum)] ++
  ls.flatMap (fun y =>
    [(y.e.waddr, y.kinds * y.nb * y.dataGroup), (y.e.lam, 2 * y.e.n)] ++
    (if y.e.outs then [(y.e.out, (c.x.t - 1) * y.e.opitch + ceilDiv y.e.n 2)] else []))

/-- The commons bytes that a SCAN writes (R290, R294). -/
def scanOuts (c : Scan) (ls : List ScanLayer) : List (Nat × Nat) :=
  let last := ((ls.getLast?).map (fun y => y.e.n)).getD 32
  rowsAt c.y.addr 1 0 c.x.t c.y.pitch (ceilDiv last 2) ++
  (ls.filter (fun y => y.e.outs)).flatMap (fun y => rowsAt y.e.out 1 0 c.x.t y.e.opitch (ceilDiv y.e.n 2))

/-- The commons bytes that loading the stages of layers reads, `i` being the scale blocks before them; a stage that holds its
layer is not loaded (R293). -/
def State.stageReads (s : State) (c : Scan) (i : Nat) : List ScanLayer → List (Nat × Nat)
  | [] => []
  | y :: ys =>
    (if s.stageLoaded c y then [] else
      [(c.saddr + 320 * i, 320 * y.groups), (y.e.waddr, y.kinds * y.nb * y.dataGroup), (y.e.lam, 2 * y.e.n)]) ++
      s.stageReads c (i + y.groups) ys

/-- The commons bytes that a SCAN reads: its table, its rows, its marks, and what its stages load. -/
def State.scanReads (s : State) (c : Scan) (ls : List ScanLayer) : List (Nat × Nat) :=
  (c.l.table, 32 * c.l.layers) :: rowsAt c.x.addr 1 0 c.x.t c.x.pitch (ceilDiv c.x.k 2) ++
    (if c.l.mk_ then [(c.l.mark, 32)] else []) ++ s.stageReads c 0 ls

/-- R291: a table entry in range. -/
def ScanLayer.ok (y : ScanLayer) : Bool :=
  y.e.n % 32 == 0 && decide (32 ≤ y.e.n) && decide (y.e.n ≤ 2048) && decide (y.e.flags < 8) && decide (y.e.wfmt ≤ 2) &&
    y.e.reserved == 0 && decide (y.kinds * y.e.n * y.k ≤ 524288)

/-- R291: the state ranges of two layers overlap. -/
def layersOverlap : List ScanLayer → Bool
  | [] => false
  | y :: ys => ys.any (fun z => decide (y.e.boff < z.e.boff + z.nb) && decide (z.e.boff < y.e.boff + y.nb)) || layersOverlap ys

/-- A decay rate that R291 refuses: positive, infinite or NaN. -/
def badRate (c : Nat) : Bool := (c < 32768 && c != 0) || bits c 14 10 == 31

/-- The checks of a SCAN at its start (R291, R300), in the order of those rules: the code that ends it. -/
def State.scanFault (s : State) (c : Scan) (r : StreamRec) (ls : List ScanLayer) : Option Nat :=
  if ls.any (fun y => !y.ok) ∨ layersOverlap ls ∨ (scanRanges c ls).any (fun q => decide (0x10000000 < q.1 + q.2)) then
    some Code.stateParam
  else if ls.any (fun y => decide (63 * r.nslot < y.e.boff + y.nb)) then some Code.stateRange
  else if ls.any (fun y => !s.stageLoaded c y && (chunksOf 2 y.e.n (s.read y.e.lam (2 * y.e.n))).any (fun b => badRate (leNat b))) then
    some Code.stateParam
  else if ls.any (fun y => (List.range y.nb).any (fun i => (s.getBlock (s.streamSlots r) (y.e.boff + i)).1 == 255)) then
    some Code.stateKind
  else none

/-- Group `p` of a layer is paired and checked (R89, R292, R693); its scale block is block `i` of the stream. -/
def State.scanGroup (s : State) (v : Env) (c : Scan) (y : ScanLayer) (i p : Nat) : Except GroupFault (List ChanRec) :=
  let kind := p / y.nb
  let q := p % y.nb
  let scale := some (s.read (c.saddr + 320 * i) 320)
  let data := some (s.read (y.e.waddr + p * y.dataGroup) 64)
  if kind = 0 then checkGroup (v.tag i) scale data 32 (32 * q) (some y.k) .none
  else if kind < y.kinds then checkGroup (v.tag i) scale data 32 (y.e.n + 32 * q) (some y.k) (.fmt 1)
  else checkGroup (v.tag i) scale none 32 (y.l * 2048 + 32 * q) none (.fmt c.y.ofmt)

/-- The layers' stages are loaded where they do not hold them, in stream order; `i` is the index of the layer's first
scale block. -/
def State.scanLoad (s : State) (v : Env) (c : Scan) (i : Nat) : List ScanLayer → OpResult
  | [] => (s, none)
  | y :: ys =>
    if s.stageLoaded c y then s.scanLoad v c (i + y.groups) ys
    else
      match runGroups (fun s p => match s.scanGroup v c y (i + p) p with
          | .error f => (s, some (i + p, f))
          | .ok _ => (s, none)) s 0 y.groups with
      | (s, none) =>
        let g : SeStage := ⟨c.l.table, c.saddr, s.read y.e.lam (2 * y.e.n), s.read (c.saddr + 320 * i) (320 * y.groups),
          s.read y.e.waddr (y.kinds * y.nb * y.dataGroup)⟩
        ({ s with se := { s.se with stages := Map.put s.se.stages y.l g } }).scanLoad v c (i + y.groups) ys
      | r => r

/-- Channel record `j` of kind `kind` that a stage holds. -/
def SeStage.rec_ (g : SeStage) (y : ScanLayer) (kind j : Nat) : ChanRec :=
  ChanRec.ofBytes (slice g.scales (320 * (kind * y.nb + j / 32) + 64 + 8 * (j % 32)) 8)

/-- The row sum of channel `j` of kind `kind` against an input vector. -/
def SeStage.sum (g : SeStage) (y : ScanLayer) (kind j : Nat) (x : List Int) : Int :=
  let at_ := (kind * y.nb + j / 32) * y.dataGroup + 64 + (j % 32) * rowBytes y.e.wfmt y.k
  let b := slice g.weights at_ (weightBytes y.e.wfmt y.k)
  dot ((List.range y.k).map (weightLane y.e.wfmt b)) x

/-- The decay rate of channel `j`. -/
def SeStage.rate (g : SeStage) (j : Nat) : Dy := (half (fld g.rates (2 * j) 2)).getD ⟨0, 0⟩

/-- R294: the new exact value of channel `j` at time step `t`. -/
def scanValue (v : Env) (g : SeStage) (y : ScanLayer) (t j : Nat) (x : List Int) (old : Dy) : Dy :=
  let rb := g.rec_ y 0 j
  let bt := if rb.flat then rb.add else rescale (g.sum y 0 j x) rb.mul rb.add
  let c := if y.e.gated then
      ((g.rec_ y 1 j).output 1 v.h.nearest (g.sum y 1 j x) (v.draw 0 (0x40000000 + (y.l * 256 + t) * 2048 + j))).q
    else 15
  let a := exp2 (round32 ((g.rate j).mul (Dy.ofInt (c + 1))))
  if y.e.coupled then (a.mul old).add (((Dy.ofInt 1).sub a).mul bt) else (a.mul old).add bt

/-- Time step `t` of a layer: its blocks and its readout codes (R294, R295, R297). -/
def State.scanStep (s : State) (v : Env) (c : Scan) (y : ScanLayer) (g : SeStage) (bs : List Block) (t : Nat) (marked : Bool)
    (x : List Int) : State × List Block × List Nat :=
  let at_ := (y.l * 256 + t) * 2048
  let step (acc : State × List Block) (p : Block × Nat) : State × List Block :=
    let (b, i) := p
    let ys := (List.range 32).map (fun q =>
      scanValue v g y t (32 * i + q) x (if marked then ⟨0, 0⟩ else ⟨intAt b.2 q, (b.1 : Int) - 150⟩))
    let (b', n) := writeBlock (if marked then 1 else b.1) ys (fun q => v.draw 0 (0x80000000 + at_ + 32 * i + q))
    (if n = 0 then acc.1 else acc.1.clamped n v.field, acc.2 ++ [b'])
  let (s, bs') := (List.zip bs (List.range bs.length)).foldl step (s, [])
  let (s, codes) := s.emitRow v (y.l * 2048) c.y.ofmt y.e.n (fun j =>
    let b := (bs'[j / 32]?).getD (1, [])
    let r := g.rec_ y y.kinds j
    let m := clampMul (round32 (r.mul.mul ⟨1, (b.1 : Int) - 150⟩))
    r.outputWith m c.y.ofmt v.h.nearest (intAt b.2 (j % 32)) (v.draw 0 (0xC0000000 + at_ + j)))
  (s, bs', codes)

/-- One layer over all time steps: its readout rows are written where the layer or the command says, its blocks go to
the stream, and its rows feed the next layer. -/
def State.scanLayer (s : State) (v : Env) (c : Scan) (slots : List Nat) (marks : Nat → Bool) (renorm last : Bool)
    (y : ScanLayer) (xs : List (List Int)) : State × List (List Int) :=
  match Map.find s.se.stages y.l with
  | none => (s, xs)
  | some g =>
    let bs := (List.range y.nb).map (fun i =>
      let b := s.getBlock slots (y.e.boff + i)
      (b.1, gridValues b.2))
    let (s, bs, rows) := (List.zip xs (List.range xs.length)).foldl
      (fun (acc : State × List Block × List (List Int)) p =>
        let (s, bs, codes) := acc.1.scanStep v c y g acc.2.1 p.2 (marks p.2) p.1
        let s := if last then s.putRow (c.y.addr + p.2 * c.y.pitch) 0 y.e.n codes else s
        let s := if y.e.outs then s.putRow (y.e.out + p.2 * y.e.opitch) 0 y.e.n codes else s
        (s, bs, acc.2.2 ++ [codes.map (lane4 c.y.ofmt)])) (s, bs, [])
    let bs := if renorm then bs.map (fun b => renormBlock b 255) else bs
    let s := (List.zip bs (List.range bs.length)).foldl (fun s p =>
      s.putBlock slots (y.e.boff + p.2) p.1.1 (gridBytes p.1.2)) s
    (s, rows)

/-- A SCAN's work, once its stages are loaded. -/
def State.scanRun (s : State) (v : Env) (c : Scan) (slots : List Nat) (ls : List ScanLayer) : State :=
  let marks (t : Nat) : Bool := c.l.mk_ && bit (s.byte (c.l.mark + t / 8)).toNat (t % 8)
  let every := if c.l.renorm = 0 then (s.image.map Image.renorm).getD 1 else c.l.renorm
  let renorm := (v.step.toNat + 1) % every == 0
  let xs := (List.range c.x.t).map (fun t => s.lanes c.x.fmt (c.x.addr + t * c.x.pitch) c.x.k)
  (ls.foldl (fun (acc : State × List (List Int)) y =>
    acc.1.scanLayer v c slots marks renorm (y.l + 1 == ls.length) y acc.2) (s, xs)).1

/-- R304: an SE command runs over its context's resident stream; it waits for residence, or ends with STATE_NONE or
STATE_LOST. -/
def State.withStream (s : State) (m : Met) (f : State → StreamRec → State) : State :=
  s.withStep m (fun s =>
    let s := s.slotCheck (some (m.c, m.x.step))
    match s.stream m.c with
    | none => s.failCmd m Code.stateNone
    | some r =>
      if r.lost then s.failCmd m Code.stateLost
      else if r.state ≠ 1 then (s.ensureStream m.c).block m .stream
      else f s r)

/-- SCAN (R294): its table, blocks and rates are checked, its stages loaded, and its layers run. -/
def execScan (e : Nat) (s : State) : Host.Outcome State Fault Refusal :=
  match s.met e 2 0x30 4 with
  | none => .next s
  | some m =>
    let c := Scan.of m.ops
    .next (s.withStream m (fun s r =>
      let ls := s.scanLayers c
      match s.scanFault c r ls with
      | some code => s.failCmd m code
      | none =>
        match s.readRanges m (s.scanReads c ls ++ ls.flatMap (fun y => s.blockReads (s.streamSlots r) y.e.boff y.nb)) with
        | (some s, _) => s
        | (none, s) =>
          match (s.engChecks m.v 13 c.l.layers).scanLoad m.v c 0 ls with
          | (s, some (i, g)) => s.groupFault m i g
          | (s, none) => ((s.scanRun m.v c (s.streamSlots r) ls).recordOut m.c (scanOuts c ls)).startRun m []))

/-! ### HOLD (R299, R300) -/

/-- The last reset mark at or before time step `t` (R297). -/
def lastMark (marks : List Byte) (t : Nat) : Option Nat :=
  ((List.range (t + 1)).filter (fun i => bit (byteAt marks (i / 8)) (i % 8))).getLast?

/-- HOLD's output rows and its new state (R299): `vec tau t` is input vector `tau` as time step `t` sees it. -/
def State.holdRun (s : State) (x : StX) (h : StH) (y : RowY) (slots : List Nat) (nblk : Nat) : State :=
  let k := h.taps
  let n := x.k
  let marks := if h.mk_ then s.read h.mark 32 else []
  let old := (List.range nblk).flatMap (fun b => (s.getBlock slots (h.boff + b)).2)
  let hist := (List.range ((k - 1) * n)).map (nibble old)
  let rows := (List.range x.t).map (fun t =>
    let b := s.read (x.addr + t * x.pitch) (ceilDiv n 2)
    (List.range n).map (nibble b))
  let vec (i t : Nat) : List Nat :=
    -- vector i of the history followed by the rows; row tau is vector tau + k − 1
    match lastMark marks t with
    | some m => if i < m + (k - 1) then List.replicate n 0
        else if i < k - 1 then slice hist (i * n) n else rowAt rows (i - (k - 1))
    | none => if i < k - 1 then slice hist (i * n) n else rowAt rows (i - (k - 1))
  let s := (List.range x.t).foldl (fun s t =>
    s.putRow (y.addr + t * y.pitch) 0 (k * n) ((List.range k).flatMap (fun q => vec (t + q) t))) s
  let keep := (List.range (k - 1)).flatMap (fun q => vec (x.t + q) (x.t - 1))
  let raw := pack4 keep ++ List.replicate (96 * nblk - ceilDiv keep.length 2) 0
  (List.range nblk).foldl (fun s b => s.putBlock slots (h.boff + b) 255 (slice raw (96 * b) 96)) s

/-- HOLD (R299, R300). -/
def execHold (e : Nat) (s : State) : Host.Outcome State Fault Refusal :=
  match s.met e 2 0x31 3 with
  | none => .next s
  | some m =>
    let x := StX.of (opWord m.ops 0)
    let h := StH.of (opWord m.ops 1)
    let nblk := ceilDiv ((h.taps - 1) * x.k) 192
    .next (s.withStream m (fun s r =>
      let slots := s.streamSlots r
      if 63 * r.nslot < h.boff + nblk then s.failCmd m Code.stateRange
      else if (List.range nblk).any (fun b =>
          let q := s.getBlock slots (h.boff + b)
          q.1 != 255 && !(q.1 == 1 && q.2.all (· == 0))) then s.failCmd m Code.stateKind
      else
        match s.readRanges m (holdReads m.ops ++ s.blockReads slots h.boff nblk) with
        | (some s, _) => s
        | (none, s) => (s.holdRun x h (RowY.of (opWord m.ops 2)) slots nblk).startRun m []))

/-! ### Host operations (R308, R309) -/

/-- A stream operation (R308): refused in the order of R309; `f` gives its effect on a stream that has a record. -/
def State.stOp (s : State) (r : Role) (rid ctx : Nat) (f : State → StreamRec → State) : State :=
  s.message r rid Msg.st 0 (fun s =>
    if (match s.ctxField ctx with | none => false | some g => !Role.mayField r g) then (s, Code.sxRole, [])
    else
      let st := ((s.stream ctx).map StreamRec.state).getD 0
      if !s.idleCtx ctx ∨ st = 3 ∨ st = 4 then (s, Code.stBusy, [])
      else match s.stream ctx with
        | none => (s, Code.stArg, [])
        | some rc => (f (s.slotCheck none) rc, Code.ok, []))

/-- ST_INIT (R308): a record in STATE 2 with ZERO set. -/
def execStInit (r : Role) (rid ctx nslot swap : Nat) (s : State) : Host.Outcome State Fault Refusal :=
  .next (s.message r rid Msg.st 0 (fun s =>
    if (match s.ctxField ctx with | none => false | some g => !Role.mayField r g) then (s, Code.sxRole, [])
    else
      let st := ((s.stream ctx).map StreamRec.state).getD 0
      if !s.idleCtx ctx ∨ st = 3 ∨ st = 4 then (s, Code.stBusy, [])
      else if st ≠ 0 ∨ (s.stream ctx).isSome ∨ s.slotTotal = 0 ∨ nslot < 1 ∨ 8 < nslot ∨ swap % 4096 ≠ 0 ∨
          2 ^ 40 < swap + nslot * 6144 ∨ (s.ctxField ctx).isNone then (s, Code.stArg, [])
      else
        let s := s.slotCheck none
        ({ s with se := { s.se with streams := Map.put s.se.streams ctx ⟨2, true, false, nslot, 0, swap⟩ } }, Code.ok, [])))

/-- ST_RESET (R308): ZERO set, LOST cleared, and a resident stream's slots blank in both banks. -/
def execStReset (r : Role) (rid ctx : Nat) (s : State) : Host.Outcome State Fault Refusal :=
  .next (s.stOp r rid ctx (fun s rc =>
    let s := s.updStream ctx (fun q => { q with zero := true, lost := false })
    if rc.state ≠ 1 then s
    else
      let s := (s.streamSlots rc).foldl (fun s k => (s.write (s.slotBank k 0) blankBank).write (s.slotBank k 1) blankBank) s
      { s with se := { s.se with slots := s.se.slots.map (fun p =>
        if p.2.owner = ctx then (p.1, { p.2 with cur := 0, wr := 0 }) else p) } }))

/-- ST_EVICT (R308): a resident stream is swapped out at once. -/
def execStEvict (r : Role) (rid ctx : Nat) (s : State) : Host.Outcome State Fault Refusal :=
  .next (s.stOp r rid ctx (fun s rc => if rc.state = 1 then s.requestOut ctx else s))

/-- ST_FREE (R308): the slots are free and the record is zero. -/
def execStFree (r : Role) (rid ctx : Nat) (s : State) : Host.Outcome State Fault Refusal :=
  .next (s.stOp r rid ctx (fun s _ => (s.freeStream ctx).retryStreams))

end Sys2Proof.Machine
end

