-- ==== Sys2Proof/Machine/Window.lean ====
section
/-!
DEFINITION. The window engines and the edge engine (chapter 10): CONV, POOL and ECONV, the raises of completed rows,
and the rows pushed to neighbours.
-/
namespace Sys2Proof.Machine

/-! ### Geometry and inputs (R319 to R323) -/

/-- R58: an S16 input as the lanes take it. -/
def shiftS16 (x : Int) (k : Nat) : Int := max (-2048) (min 2047 (Dy.roundEven ⟨x, -(k : Int)⟩))

/-- The lane value of element `i` of an input row. -/
def WinCmd.lane (w : WinCmd) (row : List Byte) (i : Nat) : Int :=
  if !w.edge then lane4 w.x.fmt (nibble row i)
  else if w.x.fmt = 0 then (elem12 row i : Nat)
  else if w.x.fmt = 1 then signed 12 (elem12 row i)
  else shiftS16 (signed 16 (fld row (2 * i) 2)) w.f.aux

/-- The lane value of a padded tap (R321). -/
def WinCmd.padLane (w : WinCmd) : Int := if w.edge then 0 else lane4 w.x.fmt w.x.pad

/-- R321: the input row that tap row `i` of output row `oy` reads; none when it is padded. -/
def WinCmd.inRow (w : WinCmd) (oy i : Nat) : Option Nat :=
  let y := oy * w.f.sh + i * w.f.dh
  if w.f.pt ≤ y ∧ y - w.f.pt < w.x.h then some (y - w.f.pt) else none

/-- R321: the input column of tap column `j` of output column `ox`. -/
def WinCmd.inCol (w : WinCmd) (ox j : Nat) : Option Nat :=
  let x := ox * w.f.sw + j * w.f.dw
  if w.f.pl ≤ x ∧ x - w.f.pl < w.x.w then some (x - w.f.pl) else none

/-- R322: the input columns that some tap reads. -/
def WinCmd.colsRead (w : WinCmd) : List Nat :=
  (List.range w.x.w).filter (fun x => (List.range w.owt).any (fun ox => (List.range w.f.kw).any (fun j => w.inCol ox j == some x)))

/-- R322: the input rows that output rows `oy` to `oy + n - 1` read. -/
def WinCmd.rowsOf (w : WinCmd) (oy n : Nat) : List Nat :=
  if w.colsRead.isEmpty then []
  else ((List.range n).flatMap (fun q => (List.range w.f.kh).filterMap (w.inRow (oy + q)))).eraseDups

/-- The bytes of column `x` in an input row: first and one past the last. -/
def WinCmd.colBytes (w : WinCmd) (x : Nat) : Nat × Nat :=
  let a := x * w.f.c
  let b := a + w.f.c
  if !w.edge then (a / 2, ceilDiv b 2)
  else if w.x.fmt = 2 then (2 * a, 2 * b)
  else (a / 2 * 3, ceilDiv b 2 * 3)

/-- Byte ranges of one row, those that touch each other joined. -/
def joinRanges : List (Nat × Nat) → List (Nat × Nat)
  | [] => []
  | r :: l =>
    match joinRanges l with
    | q :: rest => if q.1 ≤ r.2 then (r.1, max r.2 q.2) :: rest else r :: q :: rest
    | [] => [r]

/-- The commons bytes of the input that output rows `oy` to `oy + n - 1` read (R322). -/
def WinCmd.inReads (w : WinCmd) (oy n : Nat) : List (Nat × Nat) :=
  let cols := joinRanges (w.colsRead.map w.colBytes)
  (w.rowsOf oy n).flatMap (fun y => cols.map (fun c => (w.x.addr + y * w.x.pitch + c.1, c.2 - c.1)))

/-- The commons bytes of the scale and weight streams. -/
def WinCmd.streamReads (w : WinCmd) : List (Nat × Nat) :=
  (w.s.saddr, scaleBytes w.f.n w.y.group) :: (if w.pool then [] else [(w.s.waddr, dataBytes w.f.n w.y.group w.rowBytes)])

/-- The lane value of tap (i, j) of an output pixel in input channel `c`. -/
def WinCmd.tap (w : WinCmd) (map : List (List Byte)) (oy ox i j c : Nat) : Int :=
  match w.inRow oy i, w.inCol ox j with
  | some y, some x => w.lane (rowAt map y) (x * w.f.c + c)
  | _, _ => w.padLane

/-- The weight lanes of a row of `n` elements. -/
def WinCmd.weights (w : WinCmd) (b : List Byte) : List Int :=
  (List.range w.rowLen).map (fun i => if w.edge then signed 8 (byteAt b i) else weightLane w.s.wfmt b i)

/-- R323, R324: the accumulator of output pixel (oy, ox) and channel `n`, from its weight row. -/
def WinCmd.acc (w : WinCmd) (map : List (List Byte)) (ws : List Int) (oy ox n : Nat) : Int :=
  let taps (c : Nat) : List Int := (List.range w.f.kh).flatMap (fun i =>
    (List.range w.f.kw).map (fun j => w.tap map oy ox i j c))
  if w.pool then
    match taps n with
    | [] => 0
    | t :: ts => if w.f.aux = 0 then ts.foldl max t else ts.foldl (· + ·) t
  else
    let g := n / w.ng
    dot ws ((List.range w.f.kh).flatMap (fun i => (List.range w.f.kw).flatMap (fun j =>
      (List.range w.cg).map (fun c => w.tap map oy ox i j (g * w.cg + c)))))

/-! ### Groups and outputs (R326, R327, R336) -/

/-- A paired quantisation group: its first channel, its records and its weight rows. -/
structure WinGroup where
  first : Nat
  recs : List ChanRec
  rows : List (List Int)

/-- Group `j` is paired and checked (R326, R693). -/
def State.winGroup (s : State) (v : Env) (w : WinCmd) (j : Nat) : Except GroupFault WinGroup :=
  let first := j * w.y.group
  let cnt := min w.y.group (w.f.n - first)
  let scale := some (s.read (w.s.saddr + j * scaleBlockBytes w.y.group) (scaleBlockBytes cnt))
  let at_ := w.s.waddr + j * (64 + w.y.group * w.rowBytes)
  let data := if w.pool then none else some (s.read at_ 64)
  match checkGroup (v.tag j) scale data cnt first (some w.rowLen) (.fmt w.outFmt) with
  | .error f => .error f
  | .ok recs => .ok ⟨first, recs, if w.pool then [] else
      (List.range cnt).map (fun q => w.weights (s.read (at_ + 64 + q * w.rowBytes) w.rowBytes))⟩

/-- Groups paired in ascending order until one fails. -/
def State.winPair (s : State) (v : Env) (w : WinCmd) : List WinGroup × Option (Nat × GroupFault) :=
  (List.range (ceilDiv w.f.n w.y.group)).foldl (fun acc j =>
    match acc.2 with
    | some _ => acc
    | none =>
      match s.winGroup v w j with
      | .error f => (acc.1, some (j, f))
      | .ok g => (acc.1 ++ [g], none)) ([], none)

/-- Tile units of the command (R327), for the tile that an injection names. -/
def WinCmd.units (w : WinCmd) : Nat :=
  if w.edge then 8
  else
    let blocks := ceilDiv (w.rows.2 * w.owt) 64
    blocks * ((List.range (ceilDiv w.f.n w.y.group)).map (fun j =>
      let first := j * w.y.group
      let cnt := min w.y.group (w.f.n - first)
      if w.pool ∨ w.s.g = 1 ∨ 8 ≤ cnt then 1 else (first + cnt - 1) / w.ng - first / w.ng + 1)).sum

/-- One output element written (R319); the tail position of a row's last byte takes the tail code (R66). -/
def State.putOut (s : State) (w : WinCmd) (oy ox n code : Nat) : State :=
  let row := w.y.addr + oy * w.y.pitch
  let i := ox * w.f.n + n
  if w.outFmt = 4 then s.write (row + 2 * i) (natLE 2 code)
  else
    let s := s.putNibble row i code
    if i + 1 = w.owt * w.f.n ∧ i % 2 = 0 then s.putNibble row (i + 1) 0 else s

/-- A block of up to 64 output pixels of the stripe, for a set of groups (R323, R336). -/
def State.winBlock (s : State) (v : Env) (w : WinCmd) (map : List (List Byte)) (gs : List WinGroup) (b : Nat) : State :=
  let total := w.rows.2 * w.owt
  let pixels := (List.range (min 64 (total - 64 * b))).map (fun p => 64 * b + p)
  gs.foldl (fun s g =>
    pixels.foldl (fun s p =>
      let oy := w.rows.1 + p / w.owt
      let ox := p % w.owt
      (List.range g.recs.length).foldl (fun s q =>
        let n := g.first + q
        let o := (recAt g.recs q).output w.outFmt v.h.nearest (w.acc map (rowAt g.rows q) oy ox n)
          (v.draw 0 ((oy * w.owt + ox) * w.f.n + n))
        let (s, code) := s.emit v n w.outFmt o
        s.putOut w oy ox n code) s) s) s

/-- A window command's outputs in pixel blocks `b` to `b + n - 1`, one after another. When a group fails to pair, the groups
before it have been worked in the first block alone. -/
def State.winRun (s : State) (v : Env) (w : WinCmd) (b n : Nat) : OpResult :=
  let map := (List.range w.x.h).map (fun y => s.read (w.x.addr + y * w.x.pitch) (w.inBytes (w.x.w * w.f.c)))
  match s.winPair v w with
  | (gs, some (j, f)) => (s.winBlock v w map gs b, some (j, f))
  | (gs, none) => ((List.range n).foldl (fun s k => s.winBlock v w map gs (b + k)) s, none)

/-! ### Stripes and halo rows (R328 to R330) -/

/-- T(s, r) of R328. -/
def rowTag (step : W32) (r : Nat) : W32 := BitVec.ofNat 32 (step.toNat * 4096 + r + 1)

/-- The pixel blocks that must be worked before stripe row `q` is complete, and those already worked for the rows before it. -/
def WinCmd.blocksTo (w : WinCmd) (q : Nat) : Nat × Nat :=
  let total := ceilDiv (w.rows.2 * w.owt) 64
  (min total (ceilDiv ((q + 1) * w.owt) 64), if q = 0 then 0 else min total (ceilDiv (q * w.owt) 64))

/-- The output rows that the pixel blocks still to be worked for stripe row `q` touch: the first, and how many. -/
def WinCmd.rowsFor (w : WinCmd) (q : Nat) : Nat × Nat :=
  let (upTo, from_) := w.blocksTo q
  if w.owt = 0 ∨ upTo ≤ from_ then (w.rows.1, 0)
  else
    let a := 64 * from_ / w.owt
    let b := (min (64 * upTo) (w.rows.2 * w.owt) - 1) / w.owt
    (w.rows.1 + a, b + 1 - a)

/-- R329: the first wait for a halo row, among those that stripe row `q` still reads, that is not over: the counter and its
target. -/
def State.haloWait (s : State) (f : Nat) (step : W32) (w : WinCmd) (q : Nat) : Option (Nat × W32) :=
  match w.hx, w.cn with
  | some h, some c =>
    if !h.exch then none
    else
      let rows := w.rowsOf (w.rowsFor q).1 (w.rowsFor q).2
      let needs := (rows.filter (fun r => decide (r < h.own0))).map (fun r => (c.low, rowTag step r)) ++
        (rows.filter (fun r => decide (h.own1 < r))).map (fun r => (c.high, rowTag step r))
      needs.find? (fun p => !atOrAfter (s.shared f p.1) p.2)
  | _, _ => none

/-- R330: before its first push of a step toward a neighbour the engine waits for the neighbour's commit of the step before:
the counter and its target, while that wait is not over. -/
def State.pushWait (s : State) (f : Nat) (step : W32) (n : WinC) (high : Bool) : Option (Nat × W32) :=
  let c := if high then n.high else n.low
  let t := rowTag (step - 1) 4095
  if atOrAfter (s.shared f c) t then none else some (c, t)

/-- The step records the counter that its commit raises, and the devices pushed to (R328, R330). -/
def State.recordHalo (s : State) (m : Met) (w : WinCmd) : State :=
  match w.cn with
  | none => s
  | some c =>
    let e := (c.rdy, (if c.nlo = 0 then [] else [c.devlo]) ++ (if c.nhi = 0 then [] else [c.devhi]))
    s.updRun m.c (fun j => { j with open_ := j.open_.map (fun o =>
      { o with halos := if o.halos.contains e then o.halos else o.halos ++ [e] }) })

/-- A window or edge command (R317 to R330). One with CN computes row by row as HALO_ROW_RAISE completes its rows; any other
computes at once. -/
def State.runWindow (s : State) (m : Met) : State :=
  let w := WinCmd.of m.v.h m.ops
  let v := { m.v with map := w.map }
  s.withStep m (fun s =>
    if w.oht = 0 ∨ w.owt = 0 then
      (((s.setF (Reg.engStatus v.eng) 28 28 1).bump16 (Reg.weEmptycmds v.eng) 1 none).recordHalo m w).startRun m []
    else
      match s.readRanges m (w.streamReads ++ (if w.cn.isSome then [] else w.inReads w.rows.1 w.rows.2)) with
      | (some s, _) => s
      | (none, s) =>
        let s := (s.engChecks v (if w.pool then 6 else 7) (min 8 w.units)).recordHalo m w
        if w.cn.isSome then s.startRun m []
        else State.finishOp m [] (s.winRun v w 0 (ceilDiv (w.rows.2 * w.owt) 64)))

/-- CONV (R323). -/
def execConv (e : Nat) (s : State) : Host.Outcome State Fault Refusal :=
  match s.met e 3 0x40 4 with
  | none => .next s
  | some m => .next (s.runWindow m)

/-- POOL (R324). -/
def execPool (e : Nat) (s : State) : Host.Outcome State Fault Refusal :=
  match s.met e 3 0x41 4 with
  | none => .next s
  | some m => .next (s.runWindow m)

/-- ECONV (R323, R325). -/
def execEconv (e : Nat) (s : State) : Host.Outcome State Fault Refusal :=
  match s.met e 4 0x48 4 with
  | none => .next s
  | some m => .next (s.runWindow m)

/-- The window command with CN that engine `e` runs, as it was met, the running record and its words. -/
def State.runningHalo (s : State) (e : Nat) : Option (Met × Running × WinCmd × WinC) :=
  match (s.runningCmd e 3 0x40) <|> (s.runningCmd e 3 0x41) with
  | none => none
  | some (m, r) =>
    let w := WinCmd.of m.v.h m.ops
    w.cn.map (fun n => (m, r, w, n))

/-- The rows of a running command with CN up to stripe row `q` are worked: the input they still lack is read, and their pixel
blocks computed. The command may end instead, by a read or a group that fails. -/
def State.winRow (s : State) (m : Met) (w : WinCmd) (q : Nat) : State × Bool :=
  let (upTo, from_) := w.blocksTo q
  if w.oht = 0 ∨ w.owt = 0 ∨ upTo ≤ from_ then (s, true)
  else
    let (oy, n) := w.rowsFor q
    match s.readRanges m (w.inReads oy n) with
    | (some s, _) => (s, false)
    | (none, s) =>
      match s.winRun { m.v with map := w.map } w from_ (upTo - from_) with
      | (s, some (i, g)) => (s.groupFault m i g, false)
      | (s, none) => (s, true)

/-- HALO_ROW_RAISE (R328, R329): the next output row of a command with CN, whose halo rows are here, is computed and complete,
and RDY is raised to its tag. -/
def execHaloRowRaise (e row : Nat) (s : State) : Host.Outcome State Fault Refusal :=
  match s.runningHalo e with
  | none => .next s
  | some (m, r, w, n) =>
    if r.raised < w.rows.2 ∧ row = w.rows.1 + r.raised ∧ s.engineOn e ∧ (s.haloWait m.v.field m.v.step w r.raised).isNone then
      match s.winRow m w r.raised with
      | (s, false) => .next s
      | (s, true) =>
        let s := s.raiseShared m.v.field n.rdy (rowTag m.v.step row)
        .next ((s.updRunning e (fun r => { r with raised := r.raised + 1 })).wake)
    else .next s

/-- A RAISE of shared counter `i` of field `f` on device `d` (R167, R556): this device's own counter, or an EVT; none
where the device does not exist. -/
def State.remoteRaise (s : State) (f d i : Nat) (v : W32) : Option State :=
  if d = s.devId then some (s.raiseShared f i v)
  else if s.idExists d then some (s.sendMsg (s.newMsg 0x04 f false d 0 (i + 65536 * v.toNat) []))
  else none

/-- Bytes cut into the pieces of a link access: offset and bytes. -/
def pieces (bs : List Byte) : List (Nat × List Byte) :=
  (List.zip (List.range (ceilDiv bs.length 512)) (chunksOf 512 (ceilDiv bs.length 512) bs)).map (fun p => (512 * p.1, p.2))

/-- Bytes sent as MWR messages to device `d`'s address `a`, each under a tag of its own; none while tags are short. -/
def State.sendWrites (s : State) (f : Nat) (own : Bool) (d a : Nat) (use : TagUse) (l : List (Nat × List Byte)) : Option State :=
  l.foldl (fun acc p => acc.bind (fun s => s.request (s.newMsg 0x02 f own d p.2.length (a + p.1) p.2) use)) (some s)

/-- HALO_PUSH (R330): the next completed row for a neighbour that has committed the step before is sent as a memory write to
the same commons address there. A device that does not exist ends the job with BAD_ADDRESS (R556). -/
def execHaloPush (e : Nat) (high : Bool) (row : Nat) (s : State) : Host.Outcome State Fault Refusal :=
  match s.runningHalo e with
  | none => .next s
  | some (m, r, w, n) =>
    let done := if high then r.pushHi else r.pushLo
    let count := if high then n.nhi else n.nlo
    let first := if high then w.rows.1 + w.rows.2 - n.nhi else w.rows.1
    let dev := if high then n.devhi else n.devlo
    let sent (s : State) : State := s.updRunning e (fun r =>
      if high then { r with pushHi := r.pushHi + 1 } else { r with pushLo := r.pushLo + 1 })
    if done < count ∧ row = first + done ∧ row < w.rows.1 + r.raised ∧ s.engineOn e ∧
        (s.pushWait m.v.field m.v.step n high).isNone then
      if dev = s.devId ∨ w.owt = 0 then .next (sent s)
      else if !s.idExists dev then .next (s.failCmd m Code.badAddress)
      else
        let a := w.y.addr + row * w.y.pitch
        let bytes := s.read a (w.outBytes (w.owt * w.f.n))
        match s.sendWrites m.v.field false dev a (.push m.c m.t.sid high row) (pieces bytes) with
        | none => .next s
        | some s => .next (sent s)
    else .next s

/-- PUSH_ACKED (R330): every pushed row up to `row` is acknowledged, and RDY on the neighbour is raised to its tag. -/
def execPushAcked (e : Nat) (high : Bool) (row : Nat) (s : State) : Host.Outcome State Fault Refusal :=
  match s.runningHalo e with
  | none => .next s
  | some (m, r, w, n) =>
    let pushed := if high then r.pushHi else r.pushLo
    let acked := if high then r.ackHi else r.ackLo
    let first := if high then w.rows.1 + w.rows.2 - n.nhi else w.rows.1
    let out := s.lx.tags.any (fun t => match t.use with
      | .push c' i h r' => c' == m.c && i == m.t.sid && h == high && decide (r' ≤ row)
      | _ => false)
    if first + acked ≤ row ∧ row < first + pushed ∧ !out ∧ s.engineOn e then
      let s := s.updRunning e (fun r =>
        if high then { r with ackHi := row + 1 - first } else { r with ackLo := row + 1 - first })
      match s.remoteRaise m.v.field (if high then n.devhi else n.devlo) n.rdy (rowTag m.v.step row) with
      | none => .next s
      | some s => .next s.wake
    else .next s

end Sys2Proof.Machine
end

