-- ==== Sys2Proof/Machine/Strands.lean ====
section
/-!
DEFINITION. Strands and steps (chapter 5): the single-word commands, command ends and suspensions, placement (R424), and
the commit point (R164, R172 to R174).
-/
namespace Sys2Proof.Machine

/-! ### Moving strands -/

/-- `n` bytes from `a` take values that the manual leaves undefined (log 3). -/
def State.fillFree (s : State) (a n : Nat) : State :=
  { s.write a ((List.range n).map (Config.freeByte s.free)) with free := s.free + 1 }

/-- The strand waits. -/
def State.waitOn (s : State) (c : Nat) (t : Strand) (w : Wait) : State :=
  (s.updStrand c t.sid (fun t => { t with wait := some w })).observe c

/-- The strand leaves engine `e`, with the command it holds suspended and what that waits for; unless it waits, it is ready
from now on. -/
def State.leaveEngine (s : State) (c sid e : Nat) (held : Option Running) (wait : Option Wait) : State :=
  let (n, s) := (s.freeEngine e).stamp
  s.updStrand c sid (fun t => { t with
    engine := none, held := held.map (fun r => { r with waited := false }), wait := t.wait <|> wait, stamp := n })

/-- A command that needs an open step: without one the job ends with OPEN_STEP (R160). -/
def State.inStep (s : State) (c : Nat) (j : JobRun) (f : State → State) : State :=
  if j.open_.isNone then s.endJob c Code.openStep else f s

/-! ### NOP, JUMP, NEXT and SPAWN -/

/-- NOP (R149): nothing; the strand goes on. -/
def execNop (e : Nat) (s : State) : Host.Outcome State Fault Refusal :=
  match s.meets e 0x00 with
  | none => .next s
  | some (c, _, _, t, _) => .next (s.pass c t)

/-- JUMP (R157): always, or COUNT times on a loop register. -/
def execJump (e : Nat) (s : State) : Host.Outcome State Fault Refusal :=
  match s.meets e 0x07 with
  | none => .next s
  | some (c, _, _, t, h) =>
    let target : Int := t.pc + jumpOffset h
    if bit h 58 then
      let r := bits h 57 56
      let l := (t.loops[r]?).getD 0
      let l := (if l = 0 then bits h 47 32 else l) - 1
      let s := s.updStrand c t.sid (fun t => { t with loops := listUpd t.loops r (fun _ => l) })
      .next (if l = 0 then s.pass c t else s.proceed c t t.tape target)
    else .next (s.proceed c t t.tape target)

/-- NEXT (R159): the strand gives up its engine and goes on at the entry point, on an engine of that tape's kind. -/
def execNext (e : Nat) (s : State) : Host.Outcome State Fault Refusal :=
  match s.meets e 0x05 with
  | none => .next s
  | some (c, _, _, t, h) =>
    let s := s.proceed c t (bits h 31 16) (bits h 15 0)
    .next (if (s.engine e).strand = some (c, t.sid) then s.leaveEngine c t.sid e none none else s)

/-- SPAWN (R159, R160, R694): a further strand of the step, ready from now on. -/
def execSpawn (e : Nat) (s : State) : Host.Outcome State Fault Refusal :=
  match s.meets e 0x06 with
  | none => .next s
  | some (c, _, j, t, h) =>
    .next (s.inStep c j (fun s =>
      if 16 ≤ j.strands.length then s.endJob c Code.strandLimit
      else if (s.tapeWord (bits h 31 16) (bits h 15 0)).isNone then s.endJob c Code.tapeEnd
      else
        let (n, s) := s.stamp
        let u : Strand := ⟨j.nextSid, false, bits h 31 16, bits h 15 0, [0, 0, 0, 0], none, none, none, n⟩
        ((s.updRun c (fun j => { j with strands := j.strands ++ [u], nextSid := j.nextSid + 1 })).pass c t).fetchWord c (bits h 31 16) (bits h 15 0)))

/-! ### STEP, COMMIT and END -/

/-- TU's sweep of the furrow is finished (R384): what is FILLED or in flight is the start of a sweep, unread. -/
def State.sweepDone (s : State) (w : Sowing) : Bool :=
  let have_ := w.filled.map (fun p => p.2.2) ++ w.flight.map Prod.fst
  let from0 (n : Nat) : Bool := (List.range n).all have_.contains && have_.all (fun e => decide (e < n))
  (from0 w.next || (w.next == 0 && from0 w.entries)) &&
    w.filled.all (fun p => p.2.1 == (s.sowEntry w.list p.2.2).2.2.2.2)

/-- STEP (R159 to R161, R255, R384): the root strand opens the step and its replay point is kept. A starved context's
STEP waits. With the furrow bound and its sweep unfinished, TU rewinds. -/
def execStep (e : Nat) (s : State) : Host.Outcome State Fault Refusal :=
  match s.meets e 0x02 with
  | none => .next s
  | some (c, x, j, t, _) =>
    if !t.root ∨ j.open_.isSome then .next (s.endJob c Code.openStep)
    else if (s.kv c).flush = 2 then .next s
    else
      let s := match s.tu.sow with
        | none => s
        | some w => if w.ctx = c ∧ !s.sweepDone w then s.rewind else s
      let o : OpenStep := ⟨x.counters, t.loops, t.tape, t.pc, [], 0, [], []⟩
      .next ((s.updRun c (fun j => { j with open_ := some o })).pass c t)

/-- The commit request of a step joins the commit point's queue (R164). -/
def State.askCommit (s : State) (c : Nat) (t : Strand) (serial : W32) : State :=
  let s := { s with dx := { s.dx with commitQ := s.dx.commitQ ++ [CommitReq.commit c serial] } }
  s.waitOn c t .commit

/-- COMMIT (R164): the root strand waits for the step's other strands, and then for the commit point. A step whose
stream was displaced waits for it first, and so restarts (R437). -/
def execCommit (e : Nat) (s : State) : Host.Outcome State Fault Refusal :=
  match s.meets e 0x03 with
  | none => .next s
  | some (c, _, j, t, _) =>
    if !t.root ∨ j.open_.isNone then .next (s.endJob c Code.openStep)
    else if 1 < j.strands.length then .next (s.waitOn c t .strands)
    else if s.se.displaced.contains c then .next ((s.ensureStream c).waitOn c t .stream)
    else .next (s.askCommit c t j.job.serial)

/-- A root strand that waits in COMMIT is the last of the step: its request is sent (R164). -/
def State.settleCommit (s : State) (c : Nat) : State :=
  match (s.ctx c).bind Ctx.running with
  | none => s
  | some j =>
    match j.strands with
    | [t] =>
      if t.root ∧ t.wait = some .strands ∧ j.phase = .active then
        if s.se.displaced.contains c then (s.ensureStream c).waitOn c t .stream else s.askCommit c t j.job.serial
      else s
    | _ => s

/-- END (R159, R160, R172): a strand of the step is gone; the root strand, with no step open, sends the job's
completion request. -/
def execEndd (e : Nat) (s : State) : Host.Outcome State Fault Refusal :=
  match s.meets e 0x04 with
  | none => .next s
  | some (c, _, j, t, _) =>
    if !t.root then .next (((s.dropStrand c t).settleCommit c).observe c)
    else if j.open_.isSome then .next (s.endJob c Code.openStep)
    else
      let s := { s with dx := { s.dx with commitQ := s.dx.commitQ ++ [CommitReq.complete c j.job.serial] } }
      .next ((s.dropStrand c t).observe c)

/-! ### Counters and fences -/

/-- WAIT (R166): a satisfied wait passes; any other blocks the strand. -/
def execWait (e : Nat) (s : State) : Host.Outcome State Fault Refusal :=
  match s.meets e 0x08 with
  | none => .next s
  | some (c, x, j, t, h) =>
    let target := BitVec.ofNat 32 (bits h 31 0)
    .next (s.inStep c j (fun s =>
      if atOrAfter (s.counterOf x (bit h 58) (bits h 43 32)) target then s.pass c t
      else s.waitOn c t (.counter (bit h 58) (bits h 43 32) target)))

/-- WAIT_SATISFIED (R166): the counter has reached the target; the strand goes on, ready if it gave up its engine. -/
def execWaitSatisfied (ctx sid : Nat) (s : State) : Host.Outcome State Fault Refusal :=
  match s.strandAt ctx sid with
  | none => .next s
  | some (x, j, t) =>
    match t.wait with
    | some (.counter _ _ _) =>
      if j.phase = .active ∧ s.dxUp ∧ s.waitDone ctx x t.wait then .next ((s.unblock ctx sid).pass ctx t) else .next s
    | _ => .next s

/-- A SIGNAL is performed (R166, R167, R556): the strand goes on, and what waits on the counter may. A device that does
not exist ends the job with BAD_ADDRESS. -/
def State.signal (s : State) (c : Nat) (x : Ctx) (t : Strand) (h : Nat) : State :=
  let i := bits h 43 32
  let v := BitVec.ofNat 32 (bits h 31 0)
  let r : Option State :=
    if bit h 54 then s.remoteRaise x.field (bits h 53 44) i v
    else if bit h 57 then some (s.raiseCounter c (bit h 58) i v)
    else if bit h 58 then some (s.setShared x.field i (s.shared x.field i + v))
    else some (s.updCtx c (fun x => { x with counters := listUpd x.counters i (fun o => o + v) }))
  match r with
  | none => s.endJob c Code.badAddress
  | some s => (s.pass c t).wake

/-- SIGNAL with OPER `oper`: after its fence, where it has one (R168, R170). -/
def State.runSignal (s : State) (e : Nat) (oper : Bool) : State :=
  match s.meets e 0x09 with
  | none => s
  | some (c, x, j, t, h) =>
    if bit h 57 ≠ oper then s
    else s.inStep c j (fun s =>
      if bits h 56 55 = 0 then s.signal c x t h else s.waitOn c t (.fence (bits h 56 55 == 2) true))

/-- SIGNAL_ADD (R166). -/
def execSignalAdd (e : Nat) (s : State) : Host.Outcome State Fault Refusal := .next (s.runSignal e false)

/-- SIGNAL_RAISE (R166, R167). -/
def execSignalRaise (e : Nat) (s : State) : Host.Outcome State Fault Refusal := .next (s.runSignal e true)

/-- FENCE (R169): the strand waits for its earlier writes. -/
def execFence (e : Nat) (s : State) : Host.Outcome State Fault Refusal :=
  match s.meets e 0x0A with
  | none => .next s
  | some (c, _, _, t, h) => .next (s.waitOn c t (.fence (bits h 58 57 == 2) false))

/-- FENCE_COMPLETE (R169, R170): every earlier write of the strand is complete; neighbour writes count at all-memory
scope. A fenced signal is then performed; where its job stops, it is the strand's last command (R162, R173). -/
def execFenceComplete (ctx sid : Nat) (s : State) : Host.Outcome State Fault Refusal :=
  match s.strandAt ctx sid with
  | none => .next s
  | some (x, j, t) =>
    match t.wait with
    | some (.fence all sig) =>
      let out := all && s.lx.tags.any (fun g => match g.use with
        | .push c i _ _ => c == ctx && i == sid
        | _ => false)
      if (j.phase ≠ .active ∧ !sig) ∨ !s.dxUp ∨ out then .next s
      else
        let s := s.unblock ctx sid
        let s := if !sig then s.pass ctx t else match s.tapeWord t.tape t.pc with
          | none => s
          | some h => s.signal ctx x t h
        .next (if j.phase = .active then s else s.dropStrand ctx t)
    | _ => .next s

/-! ### Effects at commit (R163) -/

/-- An effect is recorded for the step's commit. -/
def State.record (s : State) (e cls : Nat) (f : Nat → Effect) : State :=
  match s.meets e cls with
  | none => s
  | some (c, _, j, t, h) =>
    s.inStep c j (fun s =>
      (s.updRun c (fun j => { j with open_ := j.open_.map (fun o => { o with effects := o.effects ++ [f h] }) })).pass c t)

/-- TAPE_HAIL (R163): hail TAPE0 + N at commit. -/
def execTapeHail (e : Nat) (s : State) : Host.Outcome State Fault Refusal :=
  .next (s.record e 0x0B (fun h => .hail (3 + bits h 2 0)))

/-- TAPE_RELEASE (R163): a claim released at commit. -/
def execTapeRelease (e : Nat) (s : State) : Host.Outcome State Fault Refusal :=
  .next (s.record e 0x0C (fun h => .release (bits h 3 0)))

/-- EVENT (R163): a value for the host at commit. -/
def execEvent (e : Nat) (s : State) : Host.Outcome State Fault Refusal :=
  .next (s.record e 0x0D (fun h => .event (BitVec.ofNat 32 (bits h 31 0))))

/-! ### Command ends and suspensions -/

/-- The furrow segment that the running command of engine `e` waits for (R190). -/
def State.projWait (s : State) (e : Nat) : Option Wait :=
  match s.projNeeds e with
  | none => none
  | some (c, k) => if s.furrowWait c [k] then some (.furrow [k]) else none

/-- The walker's block that the running command of engine `e` waits for (R226); a block of the staging buffer names no stretch. -/
def State.walkWait (s : State) (e : Nat) : Option Wait :=
  match s.runningAttend e with
  | none => none
  | some (m, n) =>
    let a := Attend.of m.ops
    match (s.attBlocks a (s.kv m.c).tc)[n]? with
    | none => none
    | some k =>
      match s.blockPlace m.c m.x.field k a.c.layer with
      | some (.unified f ua, _) => some (.block f ua 16384)
      | _ => some (.block 0 0 0)

/-- The halo row, or before a push the neighbour's commit, that the running command of engine `e` waits for (R329, R330). -/
def State.rowWait (s : State) (e : Nat) : Option Wait :=
  match s.runningHalo e with
  | none => none
  | some (m, r, w, n) =>
    let push (high : Bool) (done count : Nat) : Option (Nat × W32) :=
      if done < count ∧ (if high then w.rows.2 - n.nhi else 0) + done < r.raised then s.pushWait m.v.field m.v.step n high
      else none
    ((if r.raised < w.rows.2 then s.haloWait m.v.field m.v.step w r.raised else none) <|>
      push false r.pushLo n.nlo <|> push true r.pushHi n.nhi).map (fun q => .halo q.1 q.2)

/-- What the running command of engine `e` waits for inside itself. -/
def State.innerWait (s : State) (e : Nat) : Option Wait := s.projWait e <|> s.walkWait e <|> s.rowWait e

/-- What the running command of engine `e` has to do is done: its groups, its walk's blocks, its halo rows (R190, R225, R328,
R330). -/
def State.runDone (s : State) (e : Nat) : Bool :=
  (s.projNeeds e).isNone &&
  (match s.runningAttend e with
    | none => true
    | some (m, n) => decide ((s.attBlocks (Attend.of m.ops) (s.kv m.c).tc).length ≤ n)) &&
  (match s.runningHalo e with
    | none => true
    | some (_, r, w, n) => r.raised == w.rows.2 && r.pushLo == n.nlo && r.ackLo == n.nlo &&
        r.pushHi == n.nhi && r.ackHi == n.nhi)

/-- COMMAND_END (R192, R99, R382): the command is counted with its wait, watch writes that waited take effect, its
segments are consumed, its walk closes, and the strand goes on, or is gone with its attempt. -/
def execCommandEnd (e waited : Nat) (s : State) : Host.Outcome State Fault Refusal :=
  match (s.engine e).strand, (s.engine e).running with
  | some (c, sid), some r =>
    if !s.coreUp ∨ s.inReset e ∨ !s.runDone e then .next s
    else
      let s := s.bump32 (Reg.engCmds e) 1 none
      let s := if e = 10 then s else s.bump32 (Reg.engWait e) waited none
      let s := (s.report c r.furrow).closeWalk c sid
      let s := (s.updEngine e (fun g => { g with running := none })).boundary e
      match s.strandAt c sid with
      | none => .next (s.freeEngine e)
      | some (_, j, t) =>
        if j.phase = .active then
          let s := s.proceed c t r.tape r.next
          .next (if (s.engine e).strand = some (c, sid) ∧ (s.engine e).yield then s.leaveEngine c sid e none none else s)
        else .next (s.dropStrand c t)
  | _, _ => .next s

/-- The partial state of an ATTEND with P set goes to its SPILL area, in a layout of its own (R230). -/
def State.spill (s : State) (e : Nat) : State :=
  match s.runningAttend e with
  | none => s
  | some (m, _) => if m.v.h.preempt then s.fillFree (AttK.of (opWord m.ops 3)).spill 163840 else s

/-- The strand that holds engine `e` leaves it with its running command suspended, which goes on waiting for what it still
lacks (R154, R426). -/
def State.suspend (s : State) (c sid e : Nat) (x : Ctx) (r : Running) : State :=
  let w := (s.innerWait e).filter (fun w => !s.waitDone c x (some w))
  (s.spill e).leaveEngine c sid e (some r) w

/-- STRAND_SUSPEND (R154, R173, R426): the strand asked to yield stands at a preemption point: a group boundary of a
preemptible command, a command boundary, or a wait, inside a command or between two. It leaves its engine, or, with its attempt abandoned,
is gone. -/
def execStrandSuspend (e : Nat) (s : State) : Host.Outcome State Fault Refusal :=
  match (s.engine e).strand with
  | none => .next s
  | some (c, sid) =>
    match s.strandAt c sid with
    | none => .next s
    | some (x, j, t) =>
      if !(s.engine e).yield ∨ !s.coreUp ∨ s.inReset e then .next s
      else match (s.engine e).running with
        | some r =>
          if !r.preempt ∧ (s.innerWait e).isNone then .next s
          else if j.phase = .active then .next (s.suspend c sid e x r)
          else .next (s.dropStrand c t)
        | none =>
          if t.wait.isSome ∧ !t.waitYields then .next s
          else if j.phase = .active then .next (s.leaveEngine c sid e t.held none)
          else .next (s.dropStrand c t)

/-! ### Placement (R423 to R426) -/

/-- A ready strand: context, record, strand. -/
abbrev Ready := Nat × Ctx × Strand

/-- R424's order: the earlier ready first, then the lower context, then the strand spawned earlier. -/
def readyLe (a b : Ready) : Bool :=
  decide (a.2.2.stamp < b.2.2.stamp) || (a.2.2.stamp == b.2.2.stamp &&
    (decide (a.1 < b.1) || (a.1 == b.1 && decide (a.2.2.sid ≤ b.2.2.sid))))

/-- The strands that wait for an engine, in R424's order. -/
def State.readyStrands (s : State) : List Ready :=
  let all := s.dx.ctxs.flatMap (fun p => match p.2.running with
    | none => []
    | some j => if j.phase = .active then (j.strands.filter Strand.ready).map (fun t => (p.1, p.2, t)) else [])
  all.foldl (fun l p => l.takeWhile (fun q => readyLe q p) ++ p :: l.dropWhile (fun q => readyLe q p)) []

/-- Engine `e` is of the strand's kind, in its field's set and not fenced. -/
def State.engineSuits (s : State) (x : Ctx) (t : Strand) (e : Nat) : Bool :=
  engineKind e == s.tapeKind t.tape && bit (((s.fieldRec x.field).map FieldRec.engines).getD 0) e && !s.fenced e

/-- Engine `e` holds only a strand that is blocked and gives up its engine (R426). -/
def State.yieldable (s : State) (e : Nat) : Bool :=
  match (s.engine e).strand with
  | none => false
  | some (c, sid) =>
    match s.strandAt c sid with
    | none => false
    | some (x, _, t) =>
      if (s.engine e).running.isSome then (s.innerWait e).any (fun w => !s.waitDone c x (some w))
      else t.waitYields && !s.waitDone c x t.wait

/-- The engine that R424 gives the strand: the lowest idle one, else one that a sounding holds (R622), else the lowest
that a blocked strand gives up. -/
def State.engineFor (s : State) (x : Ctx) (t : Strand) : Option Nat :=
  let ok (e : Nat) : Bool := s.engineSuits x t e && s.engineOn e && !s.inReset e
  let idle (e : Nat) : Bool := ok e && (s.engine e).strand.isNone
  if !s.slotOpen x.field then none
  else ((List.range 11).find? (fun e => idle e && !s.sd.run.any (fun r => r.2.1 == e))) <|>
    ((List.range 11).find? idle) <|> ((List.range 11).find? (fun e => ok e && s.yieldable e))

/-- A sounding in progress is abandoned (R622): no verdict, counted, its state slot returned, and what its output region
holds is undefined. -/
def State.abandonSounding (s : State) : State :=
  match s.sd.run with
  | none => s
  | some (n, e, slot) =>
    let s := { s with sd := { s.sd with run := none, failed := false } }
    let s := match slot with
      | none => s
      | some k => ({ s with se := { s.se with slots := Map.del s.se.slots k } }).retryStreams
    let s := match Map.find s.sd.packs n with
      | none => s
      | some p =>
        let h := s.read p.addr 128
        s.fillFree (p.base + fld h 24 4) (fld h 28 4)
    (s.setReg (Reg.sdLast e) (0xC0000000 + 65536 * n)).bump Reg.sdCnt 31 16 49 1 none

/-- Engine `e` is needed for a strand: a sounding that holds it is abandoned. -/
def State.claimEngine (s : State) (e : Nat) : State :=
  if s.sd.run.any (fun r => r.2.1 == e) then s.abandonSounding else s

/-- The strand that blocks on engine `e` gives it up. -/
def State.displace (s : State) (e : Nat) : State :=
  match (s.engine e).strand with
  | none => s
  | some (c, sid) =>
    match s.ctx c, (s.engine e).running with
    | some x, some r => s.suspend c sid e x r
    | _, _ => (s.freeEngine e).updStrand c sid (fun t => { t with engine := none })

/-- The strand is placed on engine `e`, where the command it holds suspended resumes (R154). -/
def State.place (s : State) (c : Nat) (t : Strand) (e : Nat) : State :=
  let s := ((s.displace e).claimEngine e).updStrand c t.sid (fun t => { t with engine := some e, held := none })
  s.updEngine e (fun g => { g with strand := some (c, t.sid), running := t.held, yield := false })

/-- PLACE_STRAND (R424, R425): the strand ready earliest for which an engine is free is placed; one whose field holds no
unfenced engine of its kind ends its job with NO_ENGINE. -/
def execPlaceStrand (s : State) : Host.Outcome State Fault Refusal :=
  if !s.dxUp then .next s
  else
    let lost (p : Ready) : Bool := !(List.range 11).any (s.engineSuits p.2.1 p.2.2)
    match s.readyStrands.find? (fun p => lost p || (s.engineFor p.2.1 p.2.2).isSome) with
    | none => .next s
    | some p =>
      if lost p then .next (s.endJob p.1 Code.noEngine)
      else match s.engineFor p.2.1 p.2.2 with
        | none => .next s
        | some e => .next (s.place p.1 p.2.2 e)

/-- QUANTUM_EXPIRY (R426): the strand of a field that is not isolated has held the engine for QUANTUM while another
waits for that kind: it is asked to suspend. -/
def execQuantumExpiry (e : Nat) (s : State) : Host.Outcome State Fault Refusal :=
  match (s.engine e).strand with
  | none => .next s
  | some (c, _) =>
    match (s.ctx c).bind (fun x => s.fieldRec x.field) with
    | none => .next s
    | some r =>
      if !r.isolated ∧ s.getF Reg.dxCtl 31 16 ≠ 0 ∧ s.dxUp ∧
          s.readyStrands.any (fun p => s.tapeKind p.2.2.tape == engineKind e) then
        .next (s.updEngine e (fun g => { g with yield := true }))
      else .next s

/-- BOUND_OVERRUN (R434): a run that cannot be interrupted passes the command's BOUND: it is counted and posted, and goes on.
With P clear the whole command is one run; with P set each stretch between two group boundaries is one, and each of them
may overrun (R153). -/
def execBoundOverrun (e : Nat) (s : State) : Host.Outcome State Fault Refusal :=
  match (s.engine e).strand, (s.engine e).running with
  | some (c, _), some r =>
    match s.ctx c with
    | none => .next s
    | some x =>
      if r.bound = 0 ∨ (r.overrun ∧ !r.preempt) then .next s
      else
        let s := (s.updRunning e (fun r => { r with overrun := true })).bump (Reg.dxFover x.field) 15 0 32 1 (some x.field)
        let items := natLE 1 e ++ natLE 2 c
        .next ((s.post Code.boundOverrun 39 x.field items).postOwner Code.boundOverrun 39 items)
  | _, _ => .next s

/-! ### The commit point (R163, R164, R172 to R174) -/

/-- The request at the queue's head leaves it. -/
def State.popCommit (s : State) : State := { s with dx := { s.dx with commitQ := s.dx.commitQ.tail } }.dxCheck 2

/-- A recorded effect takes hold (R163). -/
def State.takeEffect (s : State) (c field : Nat) (step : W32) : Effect → State
  | .hail n => s.raiseHail n none
  | .release h => s.releaseHail h
  | .event v => s.post Code.tapeEvent 39 field (natLE 2 c ++ natLE 4 step.toNat ++ natLE 4 v.toNat)

/-- RDY is raised to T(s, 4,095) here and on the devices pushed to (R328, R330). -/
def State.raiseHalo (s : State) (field : Nat) (step : W32) (h : Nat × List Nat) : State :=
  h.2.foldl (fun s d => (s.remoteRaise field d h.1 (rowTag step 4095)).getD s) (s.raiseShared field h.1 (rowTag step 4095))

/-- The step commits (R163, R328): its staged tokens and state take hold, then its effects in tape order; the step
number rises and the root strand goes past its COMMIT. -/
def State.commitStep (s : State) (c : Nat) (x : Ctx) (o : OpenStep) : State :=
  let s := (s.commitTokens c o.appended o.layers).commitSlots c x.field
  let s := o.halos.foldl (fun s h => s.raiseHalo x.field x.step h) s
  let s := o.effects.foldl (fun s f => s.takeEffect c x.field x.step f) s
  let s := s.updCtx c (fun x => { x with step := x.step + 1 })
  let s := s.updRun c (fun j => { j with open_ := none, replays := 0, restarts := 0, skewed := false })
  match ((s.ctx c).bind Ctx.running).bind (fun j => j.strands.find? Strand.root) with
  | none => s
  | some t => ((s.unblock c t.sid).pass c t).wake

/-- COMMIT_TAKEN (R164): the commit point takes a commit request. It waits for the detections that name the step
(R611) and for the blocks that apply it; a request whose job no longer runs is discarded (R173). -/
def execCommitTaken (s : State) : Host.Outcome State Fault Refusal :=
  match s.dx.commitQ with
  | .commit c serial :: _ =>
    if !s.dxUp then .next s
    else match s.ctx c, (s.ctx c).bind Ctx.running with
      | some x, some j =>
        match j.open_ with
        | none => .next s.popCommit
        | some o =>
          if j.phase ≠ .active ∨ j.job.serial ≠ serial then .next s.popCommit
          else if s.fc.pulses.any (fun p => p.step == some (c, x.step)) ∨ s.inReset 38 ∨ s.inReset 7 then .next s
          else .next (s.popCommit.commitStep c x o)
      | _, _ => .next s.popCommit
  | _ => .next s

/-- COMPLETION_TAKEN (R172): the commit point takes a completion request: the job has completed. -/
def execCompletionTaken (s : State) : Host.Outcome State Fault Refusal :=
  match s.dx.commitQ with
  | .complete c serial :: _ =>
    if !s.dxUp then .next s
    else match (s.ctx c).bind Ctx.running with
      | none => .next s.popCommit
      | some j =>
        if j.phase = .active ∧ j.job.serial = serial then
          .next (s.popCommit.updRun c (fun j => { j with phase := .completed }))
        else .next s.popCommit
  | _ => .next s

/-- JOB_END is posted to the context's field: context, serial, step and code. -/
def State.postEnd (s : State) (c : Nat) (x : Ctx) (serial : W32) (code : Nat) : State :=
  s.post Code.jobEnd 39 x.field (natLE 2 c ++ natLE 4 serial.toNat ++ natLE 4 x.step.toNat ++ natLE 1 code)

/-- The context has received the serial (R174). -/
def Ctx.received (x : Ctx) (serial : W32) : Bool :=
  decide (serial.toNat < x.accepted) && (decide (x.accepted ≤ 2 ^ 32) || !atOrAfter serial (BitVec.ofNat 32 x.accepted))

/-- The context waits for the furrow no more. -/
def State.leaveSwitch (s : State) (c : Nat) : State :=
  { s with dx := { s.dx with switchQ := s.dx.switchQ.filter (fun d => d != c) } }

/-- A queued job reports ABORTED and is gone, without having run (R174, R419); a context that has none left waits for the
furrow no more. -/
def State.abortQueued (s : State) (c : Nat) (x : Ctx) (serial : W32) : State :=
  let s := s.updCtx c (fun x => { x with queue := x.queue.filter (fun k => k.serial != serial) })
  let s := if ((s.ctx c).all (fun x => x.queue.isEmpty)) then s.leaveSwitch c else s
  ((s.postEnd c x serial Code.aborted).bump32 (Reg.dxFend x.field) 1 (some x.field))

/-- ABORT_TAKEN (R172 to R174): the commit point takes an abort: it takes hold of a running job that has not completed,
and is answered when that reports; a queued job is gone; one that has reported is ALREADY_DONE, and a serial never
received NO_JOB. -/
def execAbortTaken (s : State) : Host.Outcome State Fault Refusal :=
  match s.dx.commitQ with
  | .abort c serial r rid :: _ =>
    if !s.dxUp then .next s
    else
      let s := s.popCommit
      match s.ctx c with
      | none => .next (s.reply r Msg.jobAbort rid Code.ctxClosed [])
      | some x =>
        if x.running.any (fun j => j.job.serial == serial) then
          if x.running.any (fun j => j.phase == .completed) then .next (s.reply r Msg.jobAbort rid Code.alreadyDone [])
          else .next (s.abortJob c (some (r, rid)))
        else if x.queue.any (fun k => k.serial == serial) then
          .next (((s.abortQueued c x serial).reply r Msg.jobAbort rid Code.aborted []).settleEngines)
        else .next (s.reply r Msg.jobAbort rid (if x.received serial then Code.alreadyDone else Code.noJob) [])
  | _ => .next s

end Sys2Proof.Machine
end

