-- ==== Sys2Proof/Machine/Dispatcher.lean ====
section
/-!
DEFINITION. The dispatcher's contexts and jobs (chapter 13): the host's operations on them, the start, replay and report
of jobs, the furrow's switching, slots and the watchdog, derate, and the host's counters (R648).
-/
namespace Sys2Proof.Machine

/-! ### Roles and the furrow's owner (R420, R430) -/

/-- The context lies outside the issuer's field (R420). -/
def State.outsideField (s : State) (r : Role) (c : Nat) : Bool :=
  match r with
  | .owner => false
  | .field f => s.ctxField c != some f.val
  | .anon => true

/-- R430: in an image with an isolated field, the furrow belongs to another field than `f`. -/
def State.furrowTaken (s : State) (f : Nat) : Bool :=
  s.fields.any FieldRec.isolated && (match s.dx.furrowField with | none => false | some g => g != f)

/-- R420: the checks of CTX_OPEN, in order. -/
def State.openRefusal (s : State) (r : Role) (c list entries : Nat) : Option Nat :=
  if s.outsideField r c then some Code.dxRole
  else if (s.ctx c).isSome then some Code.ctxClosed
  else match s.ctxField c with
    | none => some Code.ctxArg
    | some f =>
      if 40959 < c ∨ (entries ≠ 0 ∧ (65536 < entries ∨ !s.part.scratch.holds list (16 * entries))) then some Code.ctxArg
      else if entries ≠ 0 ∧ s.furrowTaken f then some Code.furrowTaken
      else none

/-- A context as CTX_OPEN leaves it (R419). -/
def Ctx.opened (field : Nat) (sow : Option (Nat × Nat × Nat)) : Ctx where
  field := field
  step := 0
  counters := List.replicate 8 0
  sow := sow
  accepted := 0
  completed := 0
  halted := false
  closing := none
  queue := []
  running := none
  displaceable := []

/-- CTX_OPEN (R419, R420, R430). -/
def execCtxOpen (r : Role) (rid ctx list entries prime : Nat) (s : State) : Host.Outcome State Fault Refusal :=
  .next (s.message r rid Msg.ctxOpen 0 (fun s =>
    match s.openRefusal r ctx list entries with
    | some c => (s, c, [])
    | none =>
      let f := (s.ctxField ctx).getD 0
      let s := (s.dxCheck 0).setCtx ctx (Ctx.opened f (if entries = 0 then none else some (list, entries, prime)))
      let own := entries ≠ 0 ∧ s.fields.any FieldRec.isolated
      (if own then { s with dx := { s.dx with furrowField := some f } } else s, Code.ok, [])))

/-! ### Closing (R419) -/

/-- A flush of the context runs, or a swap of its stream is in progress. -/
def State.closeWaits (s : State) (c : Nat) : Bool :=
  (s.kv c).flush == 1 || (match s.stream c with | none => false | some r => r.state == 3 || r.state == 4)

/-- The context is closed: its frames and stream are freed; the furrow's binding to it ends, and with the field's last
sowing list the field's ownership (R430). -/
def State.closeCtx (s : State) (c : Nat) : State :=
  let s := ((if (Map.find s.km.recs c).isSome then s.freeKv c else s).freeStream c).leaveSwitch c
  let s := { s with dx := { s.dx with ctxs := Map.del s.dx.ctxs c } }.retryStreams
  let kept := s.dx.ctxs.any (fun p => p.2.sow.isSome && s.dx.furrowField == some p.2.field)
  let s := if kept then s else { s with dx := { s.dx with furrowField := none } }
  match s.tu.sow with
  | none => s
  | some w => if w.ctx = c then { s with tu := { s.tu with sow := none } } else s

/-- CTX_CLOSE (R419, R420): at once, or when the flush or swap in progress ends. -/
def execCtxClose (r : Role) (rid ctx : Nat) (s : State) : Host.Outcome State Fault Refusal :=
  .next (s.messageLater r rid Msg.ctxClose 0 (fun s =>
    let answer (s : State) (code : Nat) : State := s.reply r Msg.ctxClose rid code []
    if s.outsideField r ctx then answer s Code.dxRole
    else match s.ctx ctx with
      | none => answer s Code.ctxClosed
      | some x =>
        if x.isClosing then answer s Code.ctxClosed
        else if x.busy then answer s Code.ctxBusy
        else if s.closeWaits ctx then (s.dxCheck 0).setCtx ctx { x with closing := some (some (r, rid)) }
        else answer ((s.dxCheck 0).closeCtx ctx) Code.ok))

/-- CLOSE_COMPLETE (R419, R616): the flush or swap has ended, and under a field reset the jobs have reported; the context is
closed and the close answered. -/
def execCloseComplete (ctx : Nat) (s : State) : Host.Outcome State Fault Refusal :=
  match (s.ctx ctx).bind Ctx.closing with
  | none => .next s
  | some who =>
    if !s.dxUp ∨ s.closeWaits ctx ∨ (s.ctx ctx).any Ctx.busy then .next s
    else
      let s := s.closeCtx ctx
      match who with
      | none => .next s
      | some (r, rid) => .next (s.reply r Msg.ctxClose rid Code.ok [])

/-! ### Jobs of the host (R419 to R422) -/

/-- JOB_SUBMIT (R419 to R421): the job is queued and its serial answered. -/
def execJobSubmit (r : Role) (rid ctx entry : Nat) (s : State) : Host.Outcome State Fault Refusal :=
  .next (s.message r rid Msg.jobSubmit 4 (fun s =>
    if s.outsideField r ctx then (s, Code.dxRole, [])
    else match s.submitRefusal ctx entry with
      | some c => (s, c, [])
      | none =>
        let serial := ((s.ctx ctx).map Ctx.accepted).getD 0
        ((s.queueJob ctx entry none none).settleEngines, Code.ok, natLE 4 serial)))

/-- JOB_ABORT (R172, R420): the request joins the commit point's queue. -/
def execJobAbort (r : Role) (rid ctx serial : Nat) (s : State) : Host.Outcome State Fault Refusal :=
  .next (s.messageLater r rid Msg.jobAbort 0 (fun s =>
    if s.outsideField r ctx then s.reply r Msg.jobAbort rid Code.dxRole []
    else if (s.ctx ctx).all Ctx.isClosing then s.reply r Msg.jobAbort rid Code.ctxClosed []
    else { s with dx := { s.dx with
      commitQ := s.dx.commitQ ++ [CommitReq.abort ctx (BitVec.ofNat 32 serial) r rid] } }))

/-- Every queued job of the context reports ABORTED, in order (R419). -/
def State.drain (s : State) (c : Nat) : State :=
  match s.ctx c with
  | none => s
  | some x => x.queue.foldl (fun s k => s.abortQueued c x k.serial) s

/-- CTX_RESUME (R419, R422). -/
def execCtxResume (r : Role) (rid ctx : Nat) (drain : Bool) (s : State) : Host.Outcome State Fault Refusal :=
  .next (s.message r rid Msg.ctxResume 0 (fun s =>
    if s.outsideField r ctx then (s, Code.dxRole, [])
    else match s.ctx ctx with
      | none => (s, Code.ctxClosed, [])
      | some x =>
        if x.isClosing then (s, Code.ctxClosed, [])
        else
          let s := ((s.dxCheck 0).dxCheck 1).setCtx ctx { x with halted := false }
          (((if drain then s.drain ctx else s).observe ctx).settleEngines, Code.ok, [])))

/-! ### The host's counters (R648) -/

/-- R648: the refusal of a COUNTER operation, in order; `write` marks ADD and RAISE. -/
def State.counterRefusal (s : State) (r : Role) (write : Bool) (scope id index : Nat) : Option Nat :=
  if scope = 0 then
    if s.outsideField r id then some Code.dxRole
    else if write ∨ 40959 < id ∨ 7 < index then some Code.ctxArg
    else if (s.ctx id).isNone then some Code.ctxClosed
    else none
  else if !Role.mayField r id then some Code.dxRole
  else if 511 < index ∨ (s.fieldRec id).isNone then some Code.ctxArg
  else none

/-- A COUNTER message whose operation on a shared counter is `f`; its result is the counter's value after it. -/
def State.counterOp (s : State) (r : Role) (rid scope id index : Nat) (write : Bool) (f : W32 → W32) : State :=
  s.message r rid Msg.counter 4 (fun s =>
    match s.counterRefusal r write scope id index with
    | some c => (s, c, [])
    | none =>
      if scope = 0 then (s, Code.ok, natLE 4 (((s.ctx id).map (fun x => (x.counter index).toNat)).getD 0))
      else
        let v := f (s.shared id index)
        (if write then (s.setShared id index v).wake else s, Code.ok, natLE 4 v.toNat))

/-- COUNTER_READ (R648). -/
def execCounterRead (r : Role) (rid scope id index : Nat) (s : State) : Host.Outcome State Fault Refusal :=
  .next (s.counterOp r rid scope id index false (fun v => v))

/-- COUNTER_ADD (R648, R166). -/
def execCounterAdd (r : Role) (rid scope id index value : Nat) (s : State) : Host.Outcome State Fault Refusal :=
  .next (s.counterOp r rid scope id index true (fun v => v + BitVec.ofNat 32 value))

/-- COUNTER_RAISE (R648, R166). -/
def execCounterRaise (r : Role) (rid scope id index value : Nat) (s : State) : Host.Outcome State Fault Refusal :=
  .next (s.counterOp r rid scope id index true (fun v => raiseTo v (BitVec.ofNat 32 value)))

/-! ### Starting, replaying and reporting jobs -/

/-- The root strand of a job, ready at a word of a tape. -/
def rootStrand (sid tape pc : Nat) (loops : List Nat) (stamp : Nat) : Strand :=
  ⟨sid, true, tape, pc, loops, none, none, none, stamp⟩

/-- The next job of the context starts: its root strand is ready at its entry point (R159, R421). While the context's stream is
LOST every job of it ends with STATE_LOST (R307). -/
def State.beginJob (s : State) (c : Nat) (x : Ctx) (k : Job) (rest : List Job) : State :=
  let (n, s) := ((s.dxCheck 0).dxCheck 1).stamp
  let j : JobRun := ⟨k, .active, [rootStrand 0 (k.entry / 65536) (k.entry % 65536) [0, 0, 0, 0] n], 1, none, 0, 0, false, [], []⟩
  let s := s.setCtx c { x with queue := rest, running := some j }
  let s := ((s.leaveSwitch c).observe c).fetchWord c (k.entry / 65536) (k.entry % 65536)
  if (s.stream c).any StreamRec.lost then s.endJob c Code.stateLost else s

/-- The context joins the SWITCH order (R427, R428). -/
def State.joinSwitch (s : State) (c : Nat) : State :=
  if s.dx.switchQ.contains c then s else { s with dx := { s.dx with switchQ := s.dx.switchQ ++ [c] } }

/-- The furrow is bound to the context. -/
def State.bound (s : State) (c : Nat) : Bool := s.tu.sow.any (fun w => w.ctx == c)

/-- The bound furrow holds the segments that PRIME asks for (R427). -/
def State.primed (s : State) (prime : Nat) : Bool :=
  match s.tu.sow with
  | none => false
  | some w => decide (min prime s.segments ≤ w.filled.length)

/-- A context other than `c` waits in SWITCH past SWITCH_HOLD, or with SWITCH_HOLD 0 (R428). -/
def State.mustSwitch (s : State) (c : Nat) : Bool :=
  s.dx.switchQ.any (fun d => d != c) && (s.dx.switchLate || s.getF Reg.dxCtl 15 0 == 0)

/-- JOB_START (R421, R422, R427, R428): the context's next job starts, or, without the furrow it needs, waits in
SWITCH. A halted or starved context starts no job. -/
def execJobStart (ctx : Nat) (s : State) : Host.Outcome State Fault Refusal :=
  match s.ctx ctx with
  | none => .next s
  | some x =>
    match x.queue with
    | [] => .next s
    | k :: rest =>
      if x.running.isSome ∨ x.halted ∨ !s.dxUp ∨ (s.kv ctx).flush = 2 then .next s
      else match x.sow with
        | none => .next (s.beginJob ctx x k rest)
        | some (_, _, prime) =>
          if !s.bound ctx then .next (s.joinSwitch ctx)
          else if s.dx.switchQ.contains ctx then (if s.primed prime then .next (s.beginJob ctx x k rest) else .next s)
          else if s.mustSwitch ctx then .next (s.joinSwitch ctx)
          else .next (s.beginJob ctx x k rest)

/-- The context has no job running. -/
def State.quiet (s : State) (c : Nat) : Bool := ((s.ctx c).bind Ctx.running).isNone

/-- The bound context keeps the furrow: it runs a job, or its next one follows, unless SWITCH_HOLD has run out for a context that
waits (R428). -/
def State.keepsFurrow (s : State) (b : Nat) : Bool :=
  !s.quiet b || ((s.ctx b).any (fun x => !x.halted && !x.queue.isEmpty) && !s.dx.switchQ.contains b && !s.mustSwitch b)

/-- SWITCH_BIND (R427, R428, R385): the furrow is bound to the context that waits first, once the bound context keeps it no
more. A list that TU refuses (R380) ends the context's next job with TIER_ARG. -/
def execSwitchBind (s : State) : Host.Outcome State Fault Refusal :=
  match s.dx.switchQ with
  | [] => .next s
  | c :: _ =>
    match s.ctx c with
    | none => .next s
    | some x =>
      match x.sow with
      | none => .next s
      | some (list, entries, _) =>
        if !s.dxUp ∨ s.bound c ∨ s.tu.sow.any (fun w => s.keepsFurrow w.ctx) then .next s
        else if s.sowOk list entries then
          .next { s.bindSow c list entries with dx := { s.dx with switchLate := false } }
        else match x.queue with
          | [] => .next s
          | k :: rest =>
            let s := (s.setCtx c { x with queue := rest, halted := true }).postEnd c x k.serial Code.tierArg
            let s := s.bump32 (Reg.dxFend x.field) 1 (some x.field)
            .next ((s.leaveSwitch c).observe c).settleEngines

/-- SWITCH_HOLD_EXPIRY (R428): a context has waited in SWITCH for SWITCH_HOLD. -/
def execSwitchHoldExpiry (s : State) : Host.Outcome State Fault Refusal :=
  if s.dxUp ∧ s.dx.switchQ.any (fun c => !s.bound c) then .next { s with dx := { s.dx with switchLate := true } }
  else .next s

/-- The request is a commit request of context `c`. -/
def CommitReq.isCommit (c : Nat) : CommitReq → Bool
  | .commit d _ => d == c
  | _ => false

/-- What waited on an abandoned attempt of context `c` is gone: its commit request, its displaced stream's restart, and
its marks on poisoned blocks. -/
def State.forget (s : State) (c : Nat) : State :=
  let s := { s with dx := { s.dx with commitQ := s.dx.commitQ.filter (fun q => !q.isCommit c) } }
  let s := { s with se := { s.se with displaced := s.se.displaced.filter (fun d => d != c) } }
  { s with tu := { s.tu with poison := s.tu.poison.map (fun (b : PoisonBlk) =>
    { b with marked := b.marked.filter (fun d => d.1 != c) }) } }

/-- STEP_REPLAY (R162, R384): the abandoned attempt has stopped: the context's counters and the root strand stand as at
STEP again, uncommitted state is dropped, and a furrow bound to the context is rewound. -/
def execStepReplay (ctx : Nat) (s : State) : Host.Outcome State Fault Refusal :=
  match s.ctx ctx, (s.ctx ctx).bind Ctx.running with
  | some x, some j =>
    match j.open_ with
    | none => .next s
    | some o =>
      if j.phase ≠ .replaying ∨ !j.strands.isEmpty ∨ !s.dxUp then .next s
      else
        let s := if s.bound ctx then s.rewind else s
        let (n, s) := (s.dropWrites ctx).stamp
        let s := s.forget ctx
        let strands := [rootStrand j.nextSid o.tape o.pc o.loops n]
        .next ((s.setCtx ctx { x with counters := o.counters, running := some { j with
          phase := .active, open_ := none, nextSid := j.nextSid + 1, strands := strands } }).observe ctx |>.fetchWord ctx o.tape o.pc)
  | _, _ => .next s

/-- Codes after which a job's output buffers are undefined (R172, R177, R433). -/
def undefinedOutputs : List Nat := [Code.aborted, Code.strandLimit, Code.openStep, Code.tapeEnd, Code.watchdog]

/-- The code with which a job reports. -/
def JobRun.code (j : JobRun) : Option Nat :=
  match j.phase with
  | .completed => some Code.ok
  | .ending c => some c
  | _ => none

/-- A completed job is counted for its context (R443, R447), the count stopping at its largest value. -/
def State.countDone (s : State) (c : Nat) (x : Ctx) : State :=
  if x.completed = 2 ^ 32 - 1 then s
  else
    let s := s.updCtx c (fun x => { x with completed := x.completed + 1 })
    if x.completed + 1 = 2 ^ 32 - 1 then
      let items := natLE 1 39 ++ natLE 8 0x28 ++ natLE 1 0
      (s.postOwner Code.counterCapped 39 items).post Code.counterCapped 39 x.field items
    else s

/-- JOB_REPORT (R171, R172, R422, R443, R503): the strands have stopped and their writes are complete: the job reports
to its field. One that did not complete loses what it had not committed, the context's counters with it, and any code but ABORTED halts the context. -/
def execJobReport (ctx : Nat) (s : State) : Host.Outcome State Fault Refusal :=
  match s.ctx ctx, (s.ctx ctx).bind Ctx.running with
  | some x, some j =>
    match j.code with
    | none => .next s
    | some code =>
      let out := s.lx.tags.any (fun g => match g.use with
        | .push c _ _ _ => c == ctx
        | _ => false)
      if !j.strands.isEmpty ∨ !s.dxUp ∨ out then .next s
      else
        let done := code = Code.ok
        let s := if undefinedOutputs.contains code then j.wrote.foldl (fun s r => s.fillFree r.1 r.2) s else s
        let s := if done then s else s.dropWrites ctx
        let s := (s.forget ctx).dxCheck 0
        let s := s.setCtx ctx { x with
          counters := if done then x.counters else (j.open_.map OpenStep.counters).getD x.counters
          running := none, halted := x.halted || (!done && code != Code.aborted) }
        let s := s.postEnd ctx x j.job.serial code
        let s := if done then (s.countDone ctx x).bump32 (Reg.dxFdone x.field) 1 (some x.field)
          else s.bump32 (Reg.dxFend x.field) 1 (some x.field)
        let s := j.aborts.foldl (fun s a => s.reply a.1 Msg.jobAbort a.2 Code.aborted []) s
        let s := if done && j.job.gate.isSome then s.gateVerdict else s
        .next ((s.observe ctx).settleEngines)
  | _, _ => .next s

/-! ### Slots (R431 to R433) -/

/-- The isolated field whose slot is open. -/
def State.slotField (s : State) : Option FieldRec := s.fields.find? (fun r => r.isolated && r.phase == s.dx.phase)

/-- The phase after the open one in the round of the isolated fields. -/
def State.nextPhase (s : State) : Nat :=
  let ps := (s.fields.filter FieldRec.isolated).map FieldRec.phase
  let least (l : List Nat) : Nat := l.foldl min 255
  let later := ps.filter (fun p => decide (s.dx.phase < p))
  if later.isEmpty then least ps else least later

/-- The field whose strand engine `e` holds. -/
def State.engineField (s : State) (e : Nat) : Option Nat :=
  (s.engine e).strand.bind (fun p => (s.ctx p.1).map Ctx.field)

/-- Engine `e` runs a command: one that computes, or a fenced signal. -/
def State.runsCommand (s : State) (e : Nat) : Bool :=
  (s.engine e).running.isSome || (match (s.engine e).strand with
    | none => false
    | some (c, sid) =>
      match s.strandAt c sid with
      | none => false
      | some (_, _, t) => t.signals)

/-- SLOT_START (R431, R433): the guard of the slot has passed and no engine runs its field's commands: the next slot
opens. -/
def execSlotStart (s : State) : Host.Outcome State Fault Refusal :=
  match s.slotField with
  | none => .next (if s.coreUp ∧ s.fields.any FieldRec.isolated then
      { s with dx := { s.dx with phase := s.nextPhase, guard := false } } else s)
  | some r =>
    if s.dx.guard ∧ s.coreUp ∧ !s.inReset 39 ∧
        (List.range 11).all (fun e => !(s.engineField e == some r.id && s.runsCommand e)) then
      .next { s with dx := { s.dx with phase := s.nextPhase, guard := false } }
    else .next s

/-- GUARD_OPEN (R432): no further command of the slot's field starts, and its strands are asked to suspend. -/
def execGuardOpen (s : State) : Host.Outcome State Fault Refusal :=
  match s.slotField with
  | none => .next s
  | some r =>
    if s.dx.guard ∨ !s.coreUp ∨ s.inReset 39 then .next s
    else
      let s := { s with dx := { s.dx with guard := true } }
      .next ((List.range 11).foldl (fun s e =>
        if s.engineField e = some r.id then s.updEngine e (fun g => { g with yield := true }) else s) s)

/-- The command on engine `e` is abandoned by the watchdog (R433). -/
def State.abandon (s : State) (e field : Nat) : State :=
  match (s.engine e).strand with
  | none => s
  | some (c, sid) =>
    let s := (s.bump (Reg.dxFover field) 31 16 33 1 (some field)).dropRun e
    let s := s.endJob c Code.watchdog
    match s.strandAt c sid with
    | none => s
    | some (_, _, t) => s.dropStrand c t

/-- WATCHDOG (R433): 32 F-cycles before the slot ends, every engine still running a command of its field abandons it;
the job ends with WATCHDOG. A command in a wait is preemptible there, and is suspended instead (R191, R198, R226, R329). -/
def execWatchdog (s : State) : Host.Outcome State Fault Refusal :=
  match s.slotField with
  | none => .next s
  | some r =>
    if !s.dx.guard ∨ !s.dxUp then .next s
    else .next ((List.range 11).foldl (fun s e =>
      if s.engineField e = some r.id ∧ s.runsCommand e ∧ (s.innerWait e).isNone then s.abandon e r.id else s) s)

/-- DERATE (R440): one second's average derate level is posted to every field. -/
def execDerate (level : Nat) (s : State) : Host.Outcome State Fault Refusal :=
  if !s.dxUp ∨ 15 < level then .next s
  else
    let s := s.setF Reg.dxDerate 3 0 level
    .next (s.fields.foldl (fun s r => s.post Code.derate 39 r.id (natLE 1 level)) s)

end Sys2Proof.Machine
end

