-- ==== Sys2Proof/Machine/TierHost.lean ====
section
/-!
DEFINITION. TU's operations and events (R357, R368 to R388): mapping, hints, placement, pins, evacuation and sowing;
migrations, leases, poisoned blocks and their refetch; furrow fills; and GDDR6 start-up (R659 to R661).
-/
namespace Sys2Proof.Machine

/-- TU runs: the core is up, TU is not in reset, an image is in force, and the device is not in the safe state. -/
def State.tuUp (s : State) : Bool := s.coreUp && !s.domainHeld 16 && !s.inReset 31 && !s.safe && s.image.isSome

/-- A field's work waits for its slot (R435). -/
def State.slotWait (s : State) (f : Nat) : Bool := s.allIsolated && (s.fieldRec f).isSome && !s.slotOpen f

/-! ### The operations of R387 and R388 -/

/-- TU can take a host operation (R387): none waits before it, and one of a field's session finds the field's slot open. The
owner's work is not slotted (R435). -/
def State.tuFree (s : State) (r : Role) (field : Nat) : Bool := s.tu.op.isNone && (r == .owner || !s.slotWait field)

/-- A TU operation on a field: refused to another field's session; `f` gives its effect and code. -/
def State.tuOp (s : State) (r : Role) (rid field : Nat) (f : State → State × Nat) : State :=
  if !s.tuFree r field then s
  else s.message r rid Msg.tu 0 (fun s =>
    if !Role.mayField r field then (s, Code.tierRole, [])
    else
      let (t, c) := f (s.check Reg.tuInject Reg.tuErr 0 31 none)
      (t, c, []))

/-- The object `obj` of field `f`. -/
def State.objOf (s : State) (f obj : Nat) : Option Obj :=
  match Map.find s.tu.objs obj with
  | none => none
  | some o => if o.field = f then some o else none

/-- The page numbers of a run. -/
def pagesOf (ua n : Nat) : List Nat := (List.range n).map (fun i => ua / 65536 + i)

/-- R388: an object that fails its checks. -/
def State.mapBad (s : State) (field obj ua pages hint flags back backdev : Nat) : Bool :=
  decide (4 < hint) || decide (4094 < obj) || (Map.find s.tu.objs obj).isSome || ua % 65536 != 0 || pages == 0 ||
    decide (0xEE00000000 < ua + 65536 * pages) || decide (3 < flags) || decide (2 < back) || decide (1023 < backdev) ||
    (s.fieldRec field).isNone ||
    s.tu.objs.any (fun o => o.2.field == field && decide (ua < o.2.ua + 65536 * o.2.pages) &&
      decide (o.2.ua < ua + 65536 * pages))

/-- The leaves of a run of pages are allocated (R362). -/
def State.needLeaves (s : State) (f ua pages : Nat) : Option State :=
  let lo := ua / 65536 / 4096
  let hi := (ua / 65536 + pages - 1) / 4096
  (List.range (hi + 1 - lo)).foldl (fun acc i => acc.bind (fun s =>
    (s.check Reg.tuInject Reg.tuErr 1 31 none).needLeaf f (4096 * (lo + i)))) (some s)

/-- TU_MAP (R359, R387, R388): the object is mapped, its pages unbacked; its leaves take local pages. -/
def execTuMap (r : Role) (rid field obj ua pages hint flags back backdev : Nat) (s : State) :
    Host.Outcome State Fault Refusal :=
  .next (s.tuOp r rid field (fun s =>
    if s.mapBad field obj ua pages hint flags back backdev then (s, Code.tierArg)
    else match s.needLeaves field ua pages with
      | none => (s, Code.tierFull)
      | some s =>
        let o : Obj := ⟨field, ua, pages, hint, bit flags 0, bit flags 1, back, backdev, false⟩
        ({ s with tu := { s.tu with objs := Map.put s.tu.objs obj o } }, Code.ok)))

/-- The descriptors of an object's pages that have been touched. -/
def State.objPages (s : State) (f : Nat) (o : Obj) : List (Nat × Page) :=
  s.tu.pages.filter (fun p => decide (pageKey f (o.ua / 65536) ≤ p.1) && decide (p.1 < pageKey f (o.ua / 65536 + o.pages)))

/-- Every home of the object is freed without write-back, and it is unmapped. -/
def State.unmap (s : State) (f obj : Nat) (o : Obj) : State :=
  let s := s.dropPages f o.ua (65536 * o.pages)
  ({ s with tu := { s.tu with objs := Map.del s.tu.objs obj } }).trimLeaves

/-- A TU operation waits. -/
def State.tuWait (s : State) (r : Role) (rid : Nat) (w : TuWait) : State :=
  { s with tu := { s.tu with op := some (r, rid, w) } }

/-- TU_UNMAP (R387, R388): it waits for BUSY pages, of which no pending request starts any more. -/
def execTuUnmap (r : Role) (rid field obj : Nat) (s : State) : Host.Outcome State Fault Refusal :=
  if !s.tuFree r field then .next s
  else .next (s.messageLater r rid Msg.tu 0 (fun s =>
    let answer (s : State) (c : Nat) : State := s.reply r Msg.tu rid c []
    if !Role.mayField r field then answer s Code.tierRole
    else match s.objOf field obj with
      | none => answer s Code.tierArg
      | some o =>
        let pages := s.objPages field o
        let s := s.check Reg.tuInject Reg.tuErr 0 31 none
        if o.shared ∧ r ≠ .owner then answer s Code.tierRole
        else if pages.any (fun p => decide (0 < p.2.pins)) then answer s Code.pinned
        else if pages.any (fun p => p.2.busy) then
          ({ s with tu := { s.tu with
            pending := s.tu.pending.filter (fun p => !(pages.any (fun q => q.1 == p.1))) } } : State).tuWait r rid (.unmap field obj)
        else answer (s.unmap field obj o) Code.ok))

/-- TU_HINT (R387): HINT on every page of the object. -/
def execTuHint (r : Role) (rid field obj hint : Nat) (s : State) : Host.Outcome State Fault Refusal :=
  .next (s.tuOp r rid field (fun s =>
    if 4 < hint then (s, Code.tierArg)
    else match s.objOf field obj with
      | none => (s, Code.tierArg)
      | some o =>
        let keys := (s.objPages field o).map Prod.fst
        ({ s with tu := { s.tu with
          objs := Map.put s.tu.objs obj { o with hint := hint }
          pages := s.tu.pages.map (fun p => if keys.contains p.1 then (p.1, { p.2 with hint := hint }) else p) } }, Code.ok)))

/-- The object that holds the whole run, where the run is of whole pages of one object (R388). -/
def State.runObj (s : State) (field ua pages : Nat) : Option Obj :=
  match s.objAt field ua with
  | none => none
  | some (_, o) => if ua % 65536 = 0 ∧ 0 < pages ∧ ua + 65536 * pages ≤ o.ua + 65536 * o.pages then some o else none

/-- Each page of a run finds a home of the requested kind, one after the other (R366, R368, R388): a promotion a free slot or a
victim, any other migration a free location. -/
def State.homesFor (s : State) (f home : Nat) : List (Nat × Page) → Bool
  | [] => true
  | (q, p) :: l =>
    if p.home = 0 ∨ p.home = home then s.homesFor f home l
    else match s.moveTarget f p home with
      | some (_, h, loc, t) => (t.setPage f q { p with busy := true, target := some (h, loc) }).homesFor f home l
      | none =>
        if home ≠ 1 then false
        else match s.victim f with
          | none => false
          | some k =>
            match s.page (k / 2 ^ 24) (k % 2 ^ 24) with
            | none => false
            | some v => (s.setPage (k / 2 ^ 24) (k % 2 ^ 24) { v with busy := true }).homesFor f home l

/-- Pages of a run with their descriptors. -/
def State.runPages (s : State) (field ua pages : Nat) : List (Nat × Page) :=
  (pagesOf ua pages).filterMap (fun q => (s.page field q).map (fun p => (q, p)))

/-- TU_PLACE (R371, R373, R387, R388): a migration of each page is requested. -/
def execTuPlace (r : Role) (rid field ua pages home : Nat) (s : State) : Host.Outcome State Fault Refusal :=
  .next (s.tuOp r rid field (fun s =>
    let ps := s.runPages field ua pages
    let shared := (pagesOf ua pages).any (fun q => (s.objAt field (65536 * q)).any (fun o => o.2.shared))
    if shared ∧ home ≠ 1 ∧ r ≠ .owner then (s, Code.tierRole)
    else if home = 0 ∨ 3 < home ∨ (s.runObj field ua pages).isNone then (s, Code.tierArg)
    else if home ≠ 1 ∧ ps.any (fun q => q.2.home == 1 && decide (0 < q.2.pins)) then (s, Code.pinned)
    else if !s.homesFor field home ps then (s, Code.tierFull)
    else (ps.foldl (fun s q => if q.2.home = 0 ∨ (q.2.home = home ∧ !q.2.busy) then s else s.requestMove field q.1 home) s,
      Code.ok)))

/-- PINS of each page of a run rises by one, or the pin is refused (R373). -/
def State.pinPages (s : State) (field ua pages : Nat) : State × Nat :=
  let ps := s.runPages field ua pages
  if ps.any (fun q => decide (255 ≤ q.2.pins)) then (s, Code.pinned)
  else (ps.foldl (fun s q => s.setPage field q.1 { q.2 with pins := q.2.pins + 1 }) s, Code.ok)

/-- TU_PIN (R373, R387, R388): a pin of a BUSY page waits, and then pins the page in its new home. -/
def execTuPin (r : Role) (rid field ua pages : Nat) (s : State) : Host.Outcome State Fault Refusal :=
  if !s.tuFree r field then .next s
  else .next (s.messageLater r rid Msg.tu 0 (fun s =>
    let answer (s : State) (c : Nat) : State := s.reply r Msg.tu rid c []
    if !Role.mayField r field then answer s Code.tierRole
    else
      let s := s.check Reg.tuInject Reg.tuErr 0 31 none
      let ps := s.runPages field ua pages
      if (s.runObj field ua pages).isNone then answer s Code.tierArg
      else if ps.any (fun q => decide (255 ≤ q.2.pins)) then answer s Code.pinned
      else if ps.any (fun q => q.2.busy) then s.tuWait r rid (.pin field ua pages)
      else
        let (s, c) := s.pinPages field ua pages
        answer s c))

/-- TU_UNPIN (R387): PINS of each page falls by one; 0 stays 0 (log 40). -/
def execTuUnpin (r : Role) (rid field ua pages : Nat) (s : State) : Host.Outcome State Fault Refusal :=
  .next (s.tuOp r rid field (fun s =>
    match s.runObj field ua pages with
    | none => (s, Code.tierArg)
    | some _ =>
      ((s.runPages field ua pages).foldl (fun s q => s.setPage field q.1 { q.2 with pins := q.2.pins - 1 }) s, Code.ok)))

/-- A page is homed in entry `n` of TU.NBR. -/
def Page.inEntry (p : Page) (n : Nat) : Bool := p.home == 3 && p.loc / 2 ^ 25 == n

/-- A page is homed in entry `n`. -/
def State.entryUsed (s : State) (n : Nat) : Bool := s.tu.pages.any (fun q => q.2.inEntry n)

/-- Shadow copies that lie in entry `n` are given up. -/
def State.dropShadows (s : State) (n : Nat) : State :=
  { s with tu := { s.tu with pages := s.tu.pages.map (fun q =>
    if q.2.shome = 3 ∧ q.2.sloc / 2 ^ 25 = n ∧ !q.2.busy then (q.1, { q.2 with shome := 0, sloc := 0, shadow := false })
    else q) } }

/-- TU_EVACUATE (R357, R387): every page homed in the entry is asked to move to a local home; it is answered when none
is left there, or one finds no home. A pinned page does not move (R373) and refuses it (log 39). -/
def execTuEvacuate (r : Role) (rid n : Nat) (s : State) : Host.Outcome State Fault Refusal :=
  if !s.tuFree r 8 then .next s
  else .next (s.messageLater r rid Msg.tu 0 (fun s =>
    let answer (s : State) (c : Nat) : State := s.reply r Msg.tu rid c []
    if r ≠ .owner then answer s Code.tierRole
    else if 7 < n then answer s Code.tierArg
    else
      let s := s.dropShadows n
      let ps := s.tu.pages.filter (fun q => q.2.inEntry n)
      if ps.isEmpty then answer s Code.ok
      else if ps.any (fun q => decide (0 < q.2.pins)) then answer s Code.pinned
      else (ps.foldl (fun s q => s.requestMove (q.1 / 2 ^ 24) (q.1 % 2 ^ 24) 2) s).tuWait r rid (.evacuate n)))

/-- TU_SOW (R380, R385, R387, R388): the list is bound and filling begins at entry 0. A list that cannot be read is refused with
MEM_POISON (R345). -/
def execTuSow (r : Role) (rid ctx list entries : Nat) (s : State) : Host.Outcome State Fault Refusal :=
  .next (s.tuOp r rid ((s.ctxField ctx).getD 8) (fun s =>
    match s.cmRead list (16 * entries) with
    | (s, true) => (s, Code.memPoison)
    | (s, false) =>
      if (s.ctxField ctx).isNone ∨ !s.sowOk list entries then (s, Code.tierArg)
      else if s.tu.sow.any (fun w => !s.idleCtx w.ctx) then (s, Code.tierBusy)
      else (s.bindSow ctx list entries, Code.ok)))

/-! ### Migrations and leases (R368 to R373) -/

/-- An unmap that waits for the page's object. -/
def State.unmapWaits (s : State) (f page : Nat) : Bool :=
  match s.objAt f (65536 * page), s.tu.op with
  | some (id, _), some (_, _, .unmap g obj) => g == f && obj == id
  | _, _ => false

/-- The evacuation that waits fails: its other requests are dropped, and it is answered TIER_FULL (R357). -/
def State.failEvacuation (s : State) : State :=
  match s.tu.op with
  | some (r, rid, .evacuate n) =>
    let keys := (s.tu.pages.filter (fun q => q.2.inEntry n && !q.2.busy)).map Prod.fst
    ({ s with tu := { s.tu with
      op := none, pending := s.tu.pending.filter (fun p => !keys.contains p.1) } } : State).reply r Msg.tu rid Code.tierFull []
  | _ => s

/-- MIGRATION_START (R369 to R373): the page's pending request starts. A page that an evacuation must move and that finds no
local home fails it. -/
def execMigrationStart (field page : Nat) (s : State) : Host.Outcome State Fault Refusal :=
  match Map.find s.tu.pending (pageKey field page), s.page field page with
  | some home, some p =>
    if !s.tuUp ∨ s.slotWait field ∨ p.busy ∨ s.unmapWaits field page then .next s
    else
      let t := s.startMove field page p home
      let stays := p.home = 3 ∧ home = 2 ∧ s.evacuating p.loc ∧ !((t.page field page).any (fun p => p.busy))
      .next (if stays then t.failEvacuation else t)
  | _, _ => .next s

/-- The operation that waited, once it may end, is performed and answered (R357, R373, R387). -/
def State.settleTu (s : State) : State :=
  let done (r : Role) (rid : Nat) (q : State × Nat) : State :=
    ({ q.1 with tu := { q.1.tu with op := none } } : State).reply r Msg.tu rid q.2 []
  match s.tu.op with
  | some (r, rid, .unmap f obj) =>
    match s.objOf f obj with
    | none => done r rid (s, Code.ok)
    | some o => if (s.objPages f o).any (fun p => p.2.busy) then s else done r rid (s.unmap f obj o, Code.ok)
  | some (r, rid, .evacuate n) => if s.entryUsed n then s else done r rid (s, Code.ok)
  | some (r, rid, .pin f ua n) =>
    if (s.runPages f ua n).any (fun q => q.2.busy) then s else done r rid (s.pinPages f ua n)
  | none => s

/-- MIGRATION_SWITCH (R369 to R371): every write of the copy is complete, and the page lies in its new home; held writes that
waited go on. -/
def execMigrationSwitch (field page : Nat) (s : State) : Host.Outcome State Fault Refusal :=
  match s.page field page with
  | none => .next s
  | some p =>
    if !s.tuUp ∨ s.slotWait field ∨ !p.busy ∨ p.mig = 4 then .next s
    else match p.target with
      | some (h, l) => if s.copyReady field page p then .next ((s.switchMove field page p h l).settleTu) else .next s
      | none => .next ((s.applyHeld field page (s.tu.heldWrites.length + 1)).settleTu)

/-- LEASE_RETURN (R372): a reader returns its lease. -/
def execLeaseReturn (index : Nat) (s : State) : Host.Outcome State Fault Refusal :=
  if s.tuUp ∧ index < s.tu.leases.length then
    .next ({ s with tu := { s.tu with leases := s.tu.leases.eraseIdx index } } : State).settleDrops
  else .next s

/-! ### Poisoned blocks (R374 to R378) -/

/-- What delivers a page's block as uncorrectable counts it (R345, R350, R353): CM, or for a local page MC, which finds the pair
or its burst bad. Which of the two, the event does not say (log 8). -/
def State.blameBlock (s : State) (p : Page) : State :=
  if p.home = 1 then s.detect Reg.cmErr 0 14 none
  else if p.home = 2 then
    let c := p.loc / s.chanPages
    let (k, s) := s.pick 2
    if k = 0 then (s.mcPair c [1, 1]).1 else s.mcRetry c
  else s

/-- POISON_BLOCK (R374, R375): an uncorrectable block of a page is delivered to TU, and its refetch starts. -/
def execPoisonBlock (field ua : Nat) (s : State) : Host.Outcome State Fault Refusal :=
  match s.page field (ua / 65536) with
  | none => .next s
  | some p =>
    if !s.tuUp ∨ p.home = 0 ∨ 2 ^ 40 ≤ ua ∨ !(s.poisonIn field (ua / 64 * 64) 1).isEmpty then .next s
    else .next ((s.blameBlock p).poisonBlk field ua)

/-- The entry of the poison list that covers a block. -/
def State.poisonAt (s : State) (f ua : Nat) : Option PoisonBlk :=
  s.tu.poison.find? (fun b => b.field == f && decide (b.ua ≤ ua) && decide (ua < b.ua + b.len))

/-- The clean copy of an entry's bytes in the shadow of a commons page (R375): on this device, or come from a neighbour. -/
def State.ownCopy (s : State) (b : PoisonBlk) : Option (List Byte) :=
  match s.page b.field (b.ua / 65536) with
  | none => none
  | some p =>
    if p.home ≠ 1 ∨ !p.shadow then none
    else if p.shome = 2 then some (s.read (s.pageAddr 2 p.sloc + b.ua % 65536) b.len)
    else
      let bs := blocksOf b.ua b.len
      if bs.all (fun a => (Map.find s.tu.fetched (blockKey b.field a)).isSome) then
        some (bs.flatMap (fun a => Map.get s.tu.fetched (blockKey b.field a) []))
      else none

/-- The page has a shadow on a neighbour, whose bytes are still to come. -/
def State.shadowOut (s : State) (b : PoisonBlk) : Bool :=
  (s.page b.field (b.ua / 65536)).any (fun p => p.home == 1 && p.shadow) && (s.ownCopy b).isNone

/-- No source holds a clean copy (R377): a weight object is quarantined, a KV frame is lost, and any other block stays
poisoned, a saved stream's until its swap-in meets it (R307); the jobs whose step read it end. -/
def State.blockLost (s : State) (b : PoisonBlk) : State :=
  let s := { s with tu := { s.tu with poison := s.tu.poison.map (fun c => if c = b then { c with lost := true } else c) } }
  let s := s.settlePage b.field (b.ua / 65536)
  let fail (s : State) (code : Nat) : State :=
    b.marked.foldl (fun s q => if (s.ctx q.1).any (fun x => x.step == q.2) then s.endJob q.1 code else s) s
  match s.objAt b.field b.ua with
  | none =>
    if 0xF000000000 ≤ b.ua then fail (s.loseFrame ((b.ua - 0xF000000000) / s.frameBytes)) Code.kvLost else fail s Code.memPoison
  | some (id, o) =>
    if o.ro ∨ o.shared then
      fail { s with tu := { s.tu with objs := Map.put s.tu.objs id { o with quar := true } } } Code.weightsLost
    else fail s Code.memPoison

/-- The object of an entry has a replica for its backing source. -/
def State.replicaOf (s : State) (b : PoisonBlk) : Bool := (s.objAt b.field b.ua).any (fun o => o.2.back == 1)

/-- REFETCH_DONE (R375 to R378): a refetch ends, with a clean block, or with none to be had. Where the page's own
shadow is current, the clean bytes are the shadow's; other clean bytes are a replica's. -/
def execRefetchDone (field ua : Nat) (clean : Option (List Byte)) (s : State) : Host.Outcome State Fault Refusal :=
  match s.poisonAt field ua with
  | none => .next s
  | some b =>
    if !s.tuUp ∨ b.lost ∨ s.shadowOut b then .next s
    else match s.ownCopy b, clean with
      | some bs, _ => .next ((s.cleanBytes field b.ua bs).settleTu)
      | none, some bs =>
        if bs.length = b.len ∧ s.replicaOf b then .next ((s.cleanBytes field b.ua bs).settleTu) else .next s
      | none, none => .next ((s.blockLost b).settleTu)

/-! ### Answers from neighbours (R341, R355, R375, R563) -/

/-- A read of TU that failed is taken as poisoned (R374, R563): a block of the page's home; or, where it was of a shadow, that
shadow is no clean copy and the next source is asked. -/
def State.farReadFailed (s : State) (f ua : Nat) : State :=
  match s.page f (ua / 65536) with
  | none => s
  | some p =>
    if p.home = 3 then s.poisonBlk f ua
    else if p.shadow ∧ p.shome = 3 then
      (s.poisonIn f ua 64).foldl State.startRefetch (s.setPage f (ua / 65536) { p with shadow := false })
    else s

/-- A request of TU's ends without what it asked for (R355, R563, R614). -/
def State.tierFailed (s : State) (u : TagUse) : State :=
  match u with
  | .tierRead f ua => s.farReadFailed f ua
  | .tierWrite f ua n => (s.farWriteFailed f ua n).settleTu
  | .refetch f ua =>
    match s.poisonAt f ua with
    | none => s
    | some b => if b.lost then s else (s.blockLost b).settleTu
  | _ => s

/-- A block that TU has read of a neighbour home comes, and held writes that waited for it go on. -/
def State.farCame (s : State) (f ua : Nat) (stored : List Byte) : State :=
  match s.page f (ua / 65536) with
  | none => s
  | some p =>
    if stored.length ≠ 64 then s
    else
      let (s, bs) := s.openBlocks f ua stored
      let s := s.putFetched f ua bs
      if p.busy ∧ p.mig ≠ 4 ∧ p.target.isNone then (s.applyHeld f (ua / 65536) (s.tu.heldWrites.length + 1)).settleTu else s

/-- Clean blocks of a replica arrive (R375, R560). -/
def State.refetched (s : State) (f ua : Nat) (stored : List Byte) : State :=
  match s.poisonAt f ua with
  | none => s
  | some b =>
    if b.lost then s
    else
      let (s, bs) := s.openBlocks f ua stored
      (s.cleanBytes f ua bs).settleTu

/-! ### The furrow (R379 to R385) -/

/-- FURROW_FILL_START (R381): TU starts the next entry of the bound list. One that cannot be read (R345) ends the bound context's
job and rewinds the list, as a source that cannot be read does. -/
def execFurrowFillStart (s : State) : Host.Outcome State Fault Refusal :=
  match s.tu.sow with
  | none => .next s
  | some w =>
    if !s.tuUp ∨ s.slotWait ((s.ctxField w.ctx).getD 8) then .next s
    else match s.cmRead (w.list + 16 * w.next) 16 with
      | (s, true) => .next ((s.endJob w.ctx Code.memPoison).rewind)
      | (s, false) => .next s.startFill

/-- SEGMENT_FILLED (R381): the entry's bytes are all written and the segment is FILLED. A fill that reads a block under
refetch waits (R376); one that cannot be read ends the bound context's job and rewinds the list (R377, R384). -/
def execSegmentFilled (seg : Nat) (s : State) : Host.Outcome State Fault Refusal :=
  match s.tu.sow with
  | none => .next s
  | some w =>
    match w.flight.find? (fun p => p.2 == seg), s.ctxField w.ctx with
    | some (e, _), some f =>
      if !s.tuUp ∨ s.slotWait f then .next s
      else match s.sowEntry w.list e with
        | (src, len, _, _, reads) =>
          match s.tuRead f src len false with
          | (s, .done bs) =>
            let s := s.write (s.segAddr seg) bs
            let s := { s with tu := { s.tu with sow := some { w with
              flight := w.flight.filter (fun p => p.2 != seg), filled := w.filled ++ [(seg, reads, e)] } } }
            .next s.wake
          | (s, .wait) => .next s
          | (s, .code c) => .next ((s.endJob w.ctx c).rewind)
    | _, _ => .next s

/-! ### Register effects (R355, R357) -/

/-- A write of TU.NBRn: discarded while a page is homed in the entry. -/
def State.writeNbr (s : State) (n : Nat) (hi : Bool) (v : W32) : State :=
  if s.entryUsed n then s else (s.dropShadows n).putWord (Reg.tuNbr n) hi v

/-- A write of TU.LEND: bits of CH that name a field's channel are discarded. -/
def State.writeLend (s : State) (v : W32) : State :=
  let own := s.fields.foldl (fun m r => m ||| r.channels) 0
  s.putWord Reg.tuLend false (v &&& ~~~(BitVec.ofNat 32 own))

/-! ### GDDR6 start-up (R659 to R661) -/

/-- The channels fitted. -/
def State.fitted (s : State) : Nat := if s.chanBytes = 0 then 0 else 0xFFFF

/-- A start-up begins at a stage; with `full` it runs stage 1 or 2 to 7, else 2 to 6. No channel is out of service any
more, and none trained. -/
def State.startUp (s : State) (stage : Nat) (full : Bool) : State :=
  { (if full then s.setReg Reg.mcTstat 0 else s.setF Reg.mcTstat 47 32 0) with mcStage := some (stage, full) }

/-- Channels of the mask fail their training: each is out of service and sends a pulse (R660). -/
def State.failChannels (s : State) (mask : Nat) : State :=
  (List.range 16).foldl (fun s c =>
    if bit mask c && bit s.fitted c && s.getF Reg.mcTstat (32 + c) (32 + c) == 0 then
      ((s.setF Reg.mcTstat (32 + c) (32 + c) 1).setF Reg.mcTstat (16 + c) (16 + c) 0).pulse (15 + c) none
    else s) s

/-- The start-up ends (R660): the trained channels are in service and MEM_READY is posted. -/
def State.memReady (s : State) (usec : Nat) : State :=
  let fail := s.getF Reg.mcTstat 47 32
  let ok := s.fitted &&& (0xFFFF ^^^ fail)
  let s := (({ s with mcStage := none }).setF Reg.mcTstat 31 16 ok).setReg Reg.mcTtime (usec % 4294967296)
  s.postOwner Code.memReady 15 (natLE 2 ok ++ natLE 2 fail)

/-- DRAM_STARTUP_STAGE (R659 to R661): the stage in progress ends. Stages 3 to 5 may take channels out of service; stage 7
writes every channel zero; after the last, MEM_READY is posted. -/
def execDramStartupStage (fail usec : Nat) (s : State) : Host.Outcome State Fault Refusal :=
  match s.mcStage with
  | none => .next s
  | some (k, full) =>
    if !s.coreUp ∨ s.inReset 15 then .next s
    else
      let s := if 3 ≤ k ∧ k ≤ 5 then s.failChannels fail else s
      if k = 7 then .next ((s.zero 0x100000000 s.dramBytes).memReady usec)
      else if k = 6 ∧ !full then .next (s.memReady usec)
      else .next { s with mcStage := some (k + 1, full) }

end Sys2Proof.Machine
end

