-- ==== Sys2Proof/Machine/Access.lean ====
section
/-!
DEFINITION. Accesses to device-physical space by the host's aperture, by DM and from the link (R20, R21, R343,
R347, R400, R578, R692): where an address leads, and who may reach it.
-/
namespace Sys2Proof.Machine

/-- Who makes a device-physical access: the owner through the aperture, an owner DM channel, or one that sees the
commons banks of some windows only: first bank and banks of each (R400, R578). -/
inductive Actor where
  | owner
  | ownerDm
  | windows (w : List (Nat × Nat))

/-- Every bank that `n` bytes from `a` touch lies in one of the windows. -/
def inWindows (w : List (Nat × Nat)) (a n : Nat) : Bool :=
  (List.range ((a + n - 1) / 0x200000 + 1 - a / 0x200000)).all (fun i =>
    w.any (fun p => decide (p.1 ≤ a / 0x200000 + i) && decide (a / 0x200000 + i < p.1 + p.2)))

/-- The region rules of the commons (R281, R343, R400, R578). -/
def State.commonsOk (s : State) (k : Actor) (write : Bool) (a n : Nat) : Bool :=
  let p := s.part
  let cached := p.tier.touches a n || p.furrow.touches a n
  decide (a + n ≤ 0x10000000) && !(write && cached) &&
    (match k with
      | .owner => !(write && p.store.touches a n)
      | .ownerDm => !p.store.touches a n
      | .windows w => inWindows w a n && !cached && !p.store.touches a n)

/-- A channel of the owner kind (R347). -/
def State.ownerChan (s : State) (c : Nat) : Bool := !s.fieldChan c && !s.lentChan c

/-- Where an access leads: memory here, a neighbour device and the offset in its window, or nowhere. -/
inductive Reach where
  | here (a : Nat)
  | there (dev off : Nat)
  | bad
  deriving DecidableEq, Repr

/-- R21: an address in this device's own window names its local GDDR6. -/
def State.alias (s : State) (a : Nat) : Nat :=
  if a / 2 ^ 36 = 16 + s.devId ∧ 0x100000000 ≤ a % 2 ^ 36 then a % 2 ^ 36 else a

/-- The channels in which `n` bytes of GDDR6 from `a` lie: 16 stands for what lies beyond the memory fitted. -/
def State.chansTouched (s : State) (a n : Nat) : List Nat :=
  if s.chanBytes = 0 ∨ 0x900000000 < a + n then [16]
  else (List.range ((a + n - 1 - 0x100000000) / s.chanBytes + 1 - (a - 0x100000000) / s.chanBytes)).map (fun i =>
    (a - 0x100000000) / s.chanBytes + i)

/-- Where `n` bytes from `a` lead (R20, R21, R692). -/
def State.reach (s : State) (k : Actor) (write : Bool) (a n : Nat) : Reach :=
  let b := s.alias a
  let all := match k with
    | .windows _ => false
    | _ => true
  if b < 0x10000000 then if s.commonsOk k write b n then .here b else .bad
  else if b < 0x900000000 then
    if all && (s.chansTouched b n).all (fun c => decide (c < 16) && s.ownerChan c && s.chanUp c) then .here b else .bad
  else if 0x10000000000 ≤ b ∧ b + n ≤ 0x410000000000 then
    let d := b / 2 ^ 36 - 16
    let o := b % 2 ^ 36
    if all && s.idExists d && d != s.devId && decide (o + n ≤ 2 ^ 36) then .there d o else .bad
  else .bad

/-- `n` bytes read at a local address that the access may reach; none when they are poisoned (R345). -/
def State.readHere (s : State) (a n : Nat) : State × Option (List Byte) :=
  let (s, poison) := if a < 0x10000000 then s.cmRead a n else (s, false)
  (s, if poison then none else some (s.read a n))

/-- The access waits: its memory's clocks are held stopped (R135), or GDDR6 start-up is in progress. -/
def State.dramBusy (s : State) (a : Nat) : Bool :=
  (decide (s.alias a < 0x10000000) && s.domainHeld 11) ||
  (s.mcStage.isSome || [13, 24, 26].any s.domainHeld) && decide (0x100000000 ≤ s.alias a) && decide (s.alias a < 0x900000000)

/-- The commons windows of a field's enabled DM field channels (R400, R578). -/
def State.fieldWindows (s : State) (f : Nat) : List (Nat × Nat) :=
  (List.range 32).filterMap (fun c =>
    let v := s.reg (Reg.dmChCFG c)
    if bit v 63 && !bit v 62 && bits v 61 59 == f then some (bits v 25 19, bits v 18 11) else none)

end Sys2Proof.Machine
end

