-- ==== Sys2Proof/Machine/Dma.lean ====
section
/-!
DEFINITION. DM (chapter 12): starts, lists, the copying of a run, its report, chains and aborts.
-/
namespace Sys2Proof.Machine

/-- DM runs: its clock, no reset of it, and no safe state (R617). -/
def State.dmUp (s : State) : Bool := s.coreUp && !s.domainHeld 18 && !s.inReset 32 && !s.safe

/-- Channel `ch`. -/
def State.dmChan (s : State) (ch : Nat) : DmChan := Map.get s.dm ch ⟨none, []⟩

/-- Channel `ch` changed; an idle channel with nothing held is not listed. -/
def State.setDm (s : State) (ch : Nat) (c : DmChan) : State :=
  { s with dm := if c.run.isNone && c.held.isEmpty then Map.del s.dm ch else Map.put s.dm ch c }

/-- The run of channel `ch` changed. -/
def State.updDmRun (s : State) (ch : Nat) (f : DmRun → DmRun) : State :=
  match (s.dmChan ch).run with
  | none => s
  | some r => s.setDm ch { s.dmChan ch with run := some (f r) }

/-- An owner channel (R395). -/
def cfgOwner (v : Nat) : Bool := bit v 62

/-- CFG.FIELD. -/
def cfgField (v : Nat) : Nat := bits v 61 59

/-- The destination of a channel's events, and the field that reads its counts. -/
def cfgDest (v : Nat) : Nat := if cfgOwner v then 8 else cfgField v

/-- R395: the role may start or abort a channel, or write its SRC, DST and CTL. -/
def State.dmRole (s : State) (r : Role) (ch : Nat) : Bool :=
  let v := s.reg (Reg.dmChCFG ch)
  r == .owner || (!cfgOwner v && r != .anon && Role.mayField r (cfgField v))

/-! ### Starts (R396 to R398) -/

/-- A run begins: SERIAL advances, BUSY is set, and the channel's registers are latched (R415). -/
def State.beginRun (s : State) (ch : Nat) : State :=
  let a := Reg.dmChSTAT ch
  let s := ((s.setF a 63 32 ((s.getF a 63 32 + 1) % 2 ^ 32)).setF a 31 31 1).setF Reg.dmBusy ch ch 1
  let v (x : Nat) : W64 := BitVec.ofNat 64 (s.reg x)
  s.setDm ch { s.dmChan ch with run := some {
    cfg := v (Reg.dmChCFG ch), src := v (Reg.dmChSRC ch), dst := v (Reg.dmChDST ch), srcs := [], dsts := [],
    checked := false, rd := none, wr := none, asked := 0, parts := [], wrote := 0, back := false, reads := [], writes := []
    code := none, aborts := [] } }

/-- A start from source `src` of R397, whose field check gives `ok`: it begins a run, or waits behind the one in
progress; a refused one is counted. -/
def State.dmStart (s : State) (ch src : Nat) (ok : Bool) : State :=
  let v := s.reg (Reg.dmChCFG ch)
  if bit v 63 && bit v (44 + src) && ok then
    if (s.dmChan ch).run.isNone then s.beginRun ch else s.setF (Reg.dmChSTAT ch) 30 30 1
  else s.bump16 Reg.dmDropped 1 none

/-- DM_START (R397): the host's start message. -/
def execDmStart (r : Role) (rid ch : Nat) (s : State) : Host.Outcome State Fault Refusal :=
  .next (s.message r rid Msg.dmStart 0 (fun s =>
    if 32 ≤ ch then (s, Code.badType, [])
    else if !s.dmRole r ch then (s, Code.sxRole, [])
    else (s.dmStart ch 0 true, Code.ok, [])))

/-- TRIGGER (R156, R163, R397): a tape's start of a channel, at execution; refused on an owner channel or one of
another field. -/
def execTrigger (eng : Nat) (s : State) : Host.Outcome State Fault Refusal :=
  match s.meets eng 0x0E with
  | none => .next s
  | some (c, x, _, t, h) =>
    let ch := bits h 4 0
    let v := s.reg (Reg.dmChCFG ch)
    let s := if s.inReset 32 then s else s.dmStart ch 3 (!cfgOwner v && cfgField v == x.field)
    .next (s.pass c t)

/-- DM_TIMER_EXPIRY (R398): the timer of a channel starts it. -/
def execDmTimerExpiry (ch : Nat) (s : State) : Host.Outcome State Fault Refusal :=
  let v := s.reg (Reg.dmChTIMER ch)
  if ch < 32 ∧ s.dmUp ∧ bit v 63 ∧ bits v 31 0 ≠ 0 then .next (s.dmStart ch 1 true) else .next s

/-! ### Lists (R399 to R402) -/

/-- Where a run's LIST lies, and its entries. -/
def dmList (v : W64) : Nat × Nat := (bits v.toNat 63 42 * 64, bits v.toNat 27 16 + 1)

/-- Who a run is, to the region rules. -/
def DmRun.actor (r : DmRun) : Actor :=
  let v := r.cfg.toNat
  if cfgOwner v then .ownerDm else .windows [(bits v 25 19, bits v 18 11)]

/-- The entries of a list, 16 bytes each. -/
def State.dmEntries (s : State) (v : W64) : List (List Byte) :=
  (List.range (dmList v).2).map (fun i => s.read ((dmList v).1 + 16 * i) 16)

/-- R399, R401: an entry with a reserved bit set, or a LEN out of range. -/
def entryBad (b : List Byte) : Bool :=
  let a := fld b 0 8
  bits a 62 (if bit a 63 then 40 else 48) != 0 || fld b 8 4 == 0 || decide (2 ^ 30 < fld b 8 4) || fld b 12 4 != 0

/-- A list lies outside the commons, or a field channel's outside its window. -/
def DmRun.listOut (r : DmRun) (v : W64) : Bool :=
  let (a, n) := dmList v
  decide (0x10000000 < a + 16 * n) ||
    (match r.actor with
      | .windows w => !inWindows w a (16 * n)
      | _ => false)

/-- The path of a destination entry of a privileged channel (R401): the commons, a GDDR6 channel, a neighbour. -/
def State.dmPath (s : State) (b : List Byte) : Option Nat :=
  let a := s.alias (fld b 0 8)
  let n := fld b 8 4
  if bit (fld b 0 8) 63 then none
  else if a + n ≤ 0x10000000 then some 0
  else if 0x100000000 ≤ a ∧ a + n ≤ 0x100000000 + s.dramBytes ∧ 0 < s.chanBytes then
    let c := (a - 0x100000000) / s.chanBytes
    if (a + n - 1 - 0x100000000) / s.chanBytes = c then some (1 + c) else none
  else if 0x10000000000 ≤ a ∧ a + n ≤ 0x410000000000 then
    let d := a / 2 ^ 36
    if (a + n - 1) / 2 ^ 36 = d then some (1 + d) else none
  else none

/-- The code with which the pre-pass ends a run, if it does. -/
def State.dmListCode (s : State) (ch : Nat) (r : DmRun) : Option Nat :=
  let total (l : List (List Byte)) : Nat := (l.map (fun b => fld b 8 4)).sum
  let inStore (v : W64) : Bool := !s.commonsOk r.actor false (dmList v).1 (16 * (dmList v).2)
  if r.listOut r.src || r.listOut r.dst then some Code.dmList
  else if inStore r.src || inStore r.dst then some Code.badAddress
  else
    let a := s.dmEntries r.src
    let b := s.dmEntries r.dst
    if a.any entryBad || b.any entryBad || total a != total b then some Code.dmList
    else
      let p := b.map s.dmPath
      if decide (ch < 4) && !(p.head?.join.isSome && p.all (fun x => x == p.head?.join)) then some Code.dmPath else none

/-- The commons reads of the pre-pass (R345): both lists whole, once they lie where the run may read. -/
def State.dmListRead (s : State) (ch : Nat) (r : DmRun) : State × Option Nat :=
  match s.dmListCode ch r with
  | some c => (s, some c)
  | none =>
    let (s, a) := s.cmRead (dmList r.src).1 (16 * (dmList r.src).2)
    let (s, b) := s.cmRead (dmList r.dst).1 (16 * (dmList r.dst).2)
    (s, if a || b then some Code.memPoison else none)

/-- A field channel's work waits for its slot (R435). -/
def State.dmWaits (s : State) (r : DmRun) : Bool := !cfgOwner r.cfg.toNat && s.slotWait (cfgField r.cfg.toNat)

/-- DM_LIST_CHECK (R401): the pre-pass. -/
def execDmListCheck (ch : Nat) (s : State) : Host.Outcome State Fault Refusal :=
  match (s.dmChan ch).run with
  | none => .next s
  | some r =>
    if !s.dmUp ∨ r.checked ∨ r.code.isSome ∨ !r.aborts.isEmpty ∨ s.dmWaits r then .next s
    else if s.armed Reg.dmInject 1 then
      .next ((s.check Reg.dmInject Reg.dmErr 1 32 none).updDmRun ch (fun r => { r with code := some Code.dmFault }))
    else match s.dmListRead ch r with
      | (s, some c) => .next (s.updDmRun ch (fun r => { r with code := some c }))
      | (s, none) => .next (s.updDmRun ch (fun r => { r with
          checked := true
          srcs := (s.dmEntries r.src).map (fun b => fld b 8 4)
          dsts := (s.dmEntries r.dst).map (fun b => fld b 8 4) }))

/-! ### Copying (R393, R394, R402 to R408) -/

/-- How one access of a run ends: it is made; the run cannot go on yet; or it ends with a code. -/
inductive DmEnd where
  | done
  | wait
  | code (c : Nat)
  deriving DecidableEq, Repr

/-- The code with which the run of channel `ch` ends; nothing further is read or written for it (R408). -/
def State.dmFail (s : State) (ch code : Nat) : State :=
  s.updDmRun ch (fun r => if r.code.isSome then r else { r with code := some code })

/-- The place from which a list goes on: the entry that is under way, or the next one, read again as it is reached (R402). One
whose LEN has changed ends the run with DM_LIST, one that cannot be read with MEM_POISON. -/
def State.dmReach (s : State) (list : W64) (lens : List Nat) (at_ : Option DmPos) : State × Except Nat DmPos :=
  let next (i : Nat) : State × Except Nat DmPos :=
    let a := (dmList list).1 + 16 * i
    match s.cmRead a 16 with
    | (s, true) => (s, .error Code.memPoison)
    | (s, false) =>
      let b := s.read a 16
      if fld b 8 4 = (lens[i]?).getD 0 then (s, .ok ⟨i, fld b 0 8, 0⟩) else (s, .error Code.dmList)
  match at_ with
  | none => next 0
  | some p => if p.off < (lens[p.entry]?).getD 0 then (s, .ok p) else next (p.entry + 1)

/-- The address that a place of an entry stands for: of the unified range, or of device-physical space. -/
def DmPos.addr (p : DmPos) : Nat := (if bit p.word 63 then p.word % 2 ^ 40 else p.word % 2 ^ 48) + p.off

/-- The locations of bytes at an entry's address (R403): where they lie on this device or in a neighbour's window, and, for a
unified address, that address itself. -/
def State.dmPlaces (s : State) (f w a : Nat) : List Nat :=
  if bit w 63 then
    (2 ^ 60 + f * 2 ^ 40 + a) :: (match s.page f (a / 65536) with
      | none => []
      | some p => if p.home = 1 then [s.pageAddr 1 p.loc + a % 65536] else [])
  else [s.alias a]

/-- A stretch of `n` bytes at `a` joins the stretches already noted. -/
def joinSpan : List (Nat × Nat) → Nat → Nat → List (Nat × Nat)
  | [], a, n => [(a, n)]
  | (b, m) :: l, a, n => if b + m = a then (b, m + n) :: l else (b, m) :: joinSpan l a n

/-- The same, of stretches that keep the address word they were written by. -/
def joinWrite : List (Nat × Nat × Nat) → Nat → Nat → Nat → List (Nat × Nat × Nat)
  | [], a, w, n => [(a, w, n)]
  | (b, v, m) :: l, a, w, n => if b + m = a ∧ v + m = w then (b, v, m + n) :: l else (b, v, m) :: joinWrite l a w n

/-- Bytes of channel `ch` that the buffer holds or has room kept for (R394). -/
def DmRun.held (r : DmRun) : Nat := r.asked - r.wrote

/-- 4 KiB units of the buffer in use (R393). -/
def State.dmUnits (s : State) : Nat :=
  (s.dm.map (fun p => match p.2.run with
    | none => 0
    | some r => (4095 + r.held) / 4096)).sum

/-- The run may make accesses: its lists are checked, it has not ended and is not aborted, and its slot is open. -/
def State.dmRuns (s : State) (r : DmRun) : Bool := r.checked && r.code.isNone && r.aborts.isEmpty && !s.dmWaits r

/-- A run meets an armed injection of kind `k`: 0 the buffer, 1 the channel state (R411). -/
def State.dmInjected (s : State) (ch k : Nat) : Option State :=
  if s.armed Reg.dmInject k then some ((s.check Reg.dmInject Reg.dmErr k 32 none).dmFail ch Code.dmFault) else none

/-- The bytes of an access enter the buffer, or are to come: the run stands past them. -/
def DmRun.took (r : DmRun) (p : DmPos) (n : Nat) (places : List Nat) (bs : Option (List Byte)) : DmRun :=
  { r with
    rd := some { p with off := p.off + n }
    asked := r.asked + n
    parts := match bs with
      | none => r.parts
      | some b => Map.put r.parts r.asked b
    reads := places.foldl (fun l a => joinSpan l a n) r.reads }

/-- The read engine makes the next read of channel `ch` (R404): the aligned 64-byte block that holds its next source byte, of
which the entry's bytes are kept. -/
def State.dmReadOne (s : State) (ch : Nat) (r : DmRun) : State × DmEnd :=
  match s.dmReach r.src r.srcs r.rd with
  | (s, .error c) => (s, .code c)
  | (s, .ok p) =>
    let f := cfgField r.cfg.toNat
    let a := p.addr
    let blk := a / 64 * 64
    let n := min (64 - a % 64) ((r.srcs[p.entry]?).getD 0 - p.off)
    let got (s : State) (bs : Option (List Byte)) : State × DmEnd :=
      (s.updDmRun ch (fun _ => r.took p n (s.dmPlaces f p.word a) bs), .done)
    if bit p.word 63 then
      match s.tuRead f blk 64 false with
      | (s, .done bs) => got s (some (slice bs (a % 64) n))
      | (s, .wait) => (s, .wait)
      | (s, .code c) => (s, .code c)
    else if s.dramBusy a then (s, .wait)
    else match s.reach r.actor false blk 64 with
      | .bad => (s, .code Code.badAddress)
      | .here b =>
        match s.readHere b 64 with
        | (s, some bs) => got s (some (slice bs (a % 64) n))
        | (s, none) => (s, .code Code.memPoison)
      | .there d o =>
        match s.request (s.newMsg 0x01 0 true d 64 o []) (.dmaRead ch r.asked (a % 64) n) with
        | none => (s, .wait)
        | some s => got s none

/-- The bytes of the buffer from `off` on that have come without a gap, at most `n`. -/
def DmRun.ready (r : DmRun) (off : Nat) : Nat → Nat → List Byte
  | 0, _ => []
  | fuel + 1, n =>
    match r.parts.find? (fun q => decide (q.1 ≤ off) && decide (off < q.1 + q.2.length)) with
    | none => []
    | some q =>
      let b := slice q.2 (off - q.1) n
      b ++ r.ready (off + b.length) fuel (n - b.length)

/-- The size of the next write at `a` with `left` bytes of its entry to go (R404): a whole aligned block, or the largest
naturally aligned access that fits. In a head the sizes rise, in a tail they fall, and an entry inside one block is covered by
the fewest. -/
def writeSize (a left : Nat) : Nat :=
  if a % 64 = 0 ∧ 64 ≤ left then 64
  else ([32, 16, 8, 4, 2, 1].find? (fun k => decide (k ≤ left) && a % k == 0)).getD 1

/-- A write of `n` bytes has been issued: they leave the buffer. -/
def DmRun.put (r : DmRun) (p : DmPos) (n : Nat) (places : List Nat) : DmRun :=
  { r with
    wr := some { p with off := p.off + n }
    wrote := r.wrote + n
    parts := r.parts.filter (fun q => decide (r.wrote + n < q.1 + q.2.length))
    writes := places.foldl (fun l a => joinWrite l a (p.word + p.off) n) r.writes }

/-- The write engine makes the next write of channel `ch` (R404, R405), once its bytes are in the buffer. -/
def State.dmWriteOne (s : State) (ch : Nat) (r : DmRun) : State × DmEnd :=
  match s.dmReach r.dst r.dsts r.wr with
  | (s, .error c) => (s, .code c)
  | (s, .ok p) =>
    let f := cfgField r.cfg.toNat
    let a := p.addr
    let n := writeSize a ((r.dsts[p.entry]?).getD 0 - p.off)
    let bs := r.ready r.wrote 65 n
    let put (s : State) (r : DmRun) : State × DmEnd := (s.updDmRun ch (fun _ => r), .done)
    if bs.length < n then (s, .wait)
    else if bit p.word 63 then
      match s.tuWrite f a bs (.dm ch) with
      | (s, .done _) => put s (r.put p n (s.dmPlaces f p.word a))
      | (s, .wait) => (s, .wait)
      | (s, .code c) => (s, .code c)
    else if s.dramBusy a then (s, .wait)
    else match s.reach r.actor true a n with
      | .bad => (s, .code Code.badAddress)
      | .here b => put (s.write b bs) (r.put p n (s.dmPlaces f p.word a))
      | .there d o =>
        match s.request (s.newMsg 0x02 0 true d n o bs) (.dma ch) with
        | none => (s, .wait)
        | some s => put s (r.put p n (s.dmPlaces f p.word a))

/-- Channels in round robin after the one served last (R394): of the read engine's, 0 to 3 come before 4 to 31. -/
def dmOrder (last : Nat) (privileged : Bool) : List Nat :=
  let l := (List.range 32).map (fun i => (last + 1 + i) % 32)
  if privileged then l.filter (fun c => decide (c < 4)) ++ l.filter (fun c => decide (4 ≤ c)) else l

/-- The read engine serves channel `ch` (R394): its run has bytes left to read, its buffered bytes are below CAP, and the buffer
is not full. None where it cannot be served. -/
def State.dmServeRead (s : State) (ch : Nat) : Option State :=
  match (s.dmChan ch).run with
  | none => none
  | some r =>
    if s.dmRuns r && decide (r.asked < r.srcs.sum) && decide (r.held < 4096 * (bits r.cfg.toNat 38 32 + 1)) &&
        decide (s.dmUnits < 128) then
      match s.dmInjected ch 1 with
      | some s => some s
      | none =>
        match s.dmReadOne ch r with
        | (s, .done) => some { s with dmTurn := (ch, s.dmTurn.2) }
        | (_, .wait) => none
        | (s, .code c) => some (s.dmFail ch c)
    else none

/-- The write engine serves channel `ch`, which holds bytes in the buffer; no write of it begins at or past byte `stop`. -/
def State.dmServeWrite (s : State) (ch stop : Nat) : Option State :=
  match (s.dmChan ch).run with
  | none => none
  | some r =>
    if s.dmRuns r && decide (r.wrote < r.asked) && decide (r.wrote < stop) then
      match s.dmInjected ch 0 with
      | some s => some s
      | none =>
        match s.dmWriteOne ch r with
        | (s, .done) => some { s with dmTurn := (s.dmTurn.1, ch) }
        | (_, .wait) => none
        | (s, .code c) => some (s.dmFail ch c)
    else none

/-- What a run that waits for TU leaves behind: the blocks it has asked for (R341), and a block found poisoned (R374). -/
def State.dmAsk (s : State) (ch : Nat) : State :=
  match (s.dmChan ch).run with
  | none => s
  | some r =>
    if !s.dmRuns r then s
    else
      let s := if r.asked < r.srcs.sum then (match s.dmReadOne ch r with | (t, .wait) => t | _ => s) else s
      if r.wrote < r.asked then (match s.dmWriteOne ch r with | (t, .wait) => t | _ => s) else s

/-- The engines work, one read or write at a time, until channel `ch` has ended, or has read and written everything, or no
engine can go on. The writes of `ch` stop before byte `stop`. -/
def State.dmWork (s : State) (ch stop : Nat) : Nat → State
  | 0 => s
  | fuel + 1 =>
    match (s.dmChan ch).run with
    | none => s
    | some r =>
      if r.code.isSome ∨ r.srcs.sum ≤ r.wrote then s
      else
        let w := (dmOrder s.dmTurn.2 false).findSome? (fun c => s.dmServeWrite c (if c = ch then stop else 2 ^ 64))
        let d := (w.getD s)
        match (dmOrder d.dmTurn.1 true).findSome? (fun c => d.dmServeRead c), w with
        | some t, _ => t.dmWork ch stop fuel
        | none, some t => t.dmWork ch stop fuel
        | none, none => s.dmAsk ch

/-- The accesses that every run in progress has still to make, at most. -/
def State.dmFuel (s : State) : Nat :=
  (s.dm.map (fun p => match p.2.run with
    | none => 0
    | some r => 2 * r.srcs.sum + 2)).sum + 1

/-- The answers that a channel still waits for (R406): of channels 4 to 31 to every write, in TU's hands too; of a privileged one
to its reads, the read-back among them. -/
def State.dmOut (s : State) (ch : Nat) (r : DmRun) : Bool :=
  s.lx.tags.any (fun g => match g.use with
    | .dma c => c == ch && decide (4 ≤ ch)
    | .dmaRead c _ _ _ => c == ch
    | _ => false) ||
  (decide (4 ≤ ch) && (s.tu.heldWrites.any (fun w => w.writer == .dm ch) ||
    r.writes.any (fun w => decide (2 ^ 60 ≤ w.1) && s.farAny (fun u => u.writes (cfgField r.cfg.toNat) (w.2.1 % 2 ^ 40) w.2.2))))

/-- `n` bytes from `a` in the pieces of one page. -/
def cutPages (a n : Nat) : List (Nat × Nat) :=
  (pagesTouched a n).map (fun q => (max a (65536 * q), min (a + n) (65536 * (q + 1)) - max a (65536 * q)))

/-- The bytes from an entry's address word, `n` of them, take undefined values where the run may write them. -/
def State.dmFree (s : State) (r : DmRun) (w n : Nat) : State :=
  let uni := bit w 63
  (cutPages (if uni then w % 2 ^ 40 else w % 2 ^ 48) n).foldl (fun s q =>
    let (s, bytes) := s.freeBytes q.2
    if uni then (s.tuWrite (cfgField r.cfg.toNat) q.1 bytes (.dm 32)).1
    else match s.reach r.actor true q.1 q.2 with
      | .here b => s.write b bytes
      | _ => s) s

/-- R403: written bytes that are source bytes too are undefined. -/
def State.dmOverlap (s : State) (r : DmRun) : State :=
  r.writes.foldl (fun s w => r.reads.foldl (fun s d =>
    let lo := max w.1 d.1
    let hi := min (w.1 + w.2.2) (d.1 + d.2)
    if lo < hi then s.dmFree r (w.2.1 + (lo - w.1)) (hi - lo) else s) s) s

/-- R409, R412: every destination byte of an ended run is undefined, of one that has not checked its lists as far as they are
good. -/
def State.dmUndefine (s : State) (ch : Nat) (r : DmRun) : State :=
  if !r.checked && (s.dmListCode ch r).isSome then s
  else
    (List.zipWith (fun b n => (fld b 0 8, if r.checked then n else fld b 8 4)) (s.dmEntries r.dst)
      (if r.checked then r.dsts else (s.dmEntries r.dst).map (fun b => fld b 8 4))).foldl (fun s d => s.dmFree r d.1 d.2) s

/-- The read-back of a privileged run (R406): the aligned block of its last byte. -/
def State.dmBack (s : State) (ch : Nat) (r : DmRun) : State × DmEnd :=
  match r.wr with
  | none => (s, .done)
  | some p =>
    if 4 ≤ ch ∨ r.back then (s, .done)
    else
      let a := (p.addr - 1) / 64 * 64
      let s := s.updDmRun ch (fun r => { r with back := true })
      match s.reach r.actor false a 64 with
      | .bad => (s, .code Code.badAddress)
      | .here b =>
        let (s, d) := s.readHere b 64
        (s, if d.isSome then .done else .code Code.memPoison)
      | .there d o =>
        match s.request (s.newMsg 0x01 0 true d 64 o []) (.dmaRead ch r.srcs.sum 0 64) with
        | none => (s.updDmRun ch (fun r => { r with back := false }), .wait)
        | some s => (s, .done)

/-! ### Reports (R407 to R410) -/

/-- A write of one word of CFG (0), SRC (1), DST (2) or TIMER (3) takes effect. -/
def State.dmPut (s : State) (ch which : Nat) (hi : Bool) (v : W32) : State :=
  let s := s.putWord (Reg.dmChCFG ch + 8 * which) hi v
  if which = 0 ∧ ch < 4 then s.setF (Reg.dmChCFG ch) 62 62 1 else s

/-- A run reports with a code (R407): status, count, counter, chain starts and DM_DONE; held register writes take
effect, and a set PENDING begins the next run. -/
def State.dmReport (s : State) (ch code : Nat) (r : DmRun) : State :=
  let a := Reg.dmChSTAT ch
  let v := r.cfg.toNat
  let dest := cfgDest v
  let serial := s.getF a 63 32
  let s := { s with lx := { s.lx with tags := s.lx.tags.map (fun (g : Tag) =>
    if g.use = TagUse.dma ch then { g with use := TagUse.dma 32 } else g) } }
  let s := (((s.setF a 23 16 code).setF a 29 29 1).setF a 31 31 0).setF Reg.dmBusy ch ch 0
  let s := s.bump32 (Reg.dmChRUNS ch) 1 (if dest < 8 then some dest else none)
  let held := (s.dmChan ch).held
  let s := s.setDm ch ⟨none, []⟩
  let s := held.foldl (fun s (h : Nat × Bool × W32) => s.dmPut ch h.1 h.2.1 h.2.2) s
  let s :=
    if code = Code.ok ∧ bit v 57 ∧ !cfgOwner v then
      (s.setShared (cfgField v) (bits v 56 48) (s.shared (cfgField v) (bits v 56 48) + 1)).wake else s
  let s :=
    if code = Code.ok then
      (List.range 32).foldl (fun s c =>
        let w := s.reg (Reg.dmChCFG c)
        if bits w 43 39 = ch then s.dmStart c 2 (cfgOwner w == cfgOwner v && cfgField w == cfgField v) else s) s
    else s
  let s :=
    if code ≠ Code.ok ∨ bit v 58 then
      s.post Code.dmDone 32 dest (natLE 1 ch ++ natLE 4 serial ++ natLE 1 code) else s
  let s : State := if code = Code.aborted then s.setF a 30 30 0 else s
  if s.getF a 30 30 = 1 ∧ (s.dmChan ch).run.isNone then (s.setF a 30 30 0).beginRun ch else s

/-- The run reports once nothing is out for it (R403, R406, R408): a run that ends with its own code leaves the bytes it wrote,
those that are source bytes too undefined. -/
def State.dmFinish (s : State) (ch code : Nat) (r : DmRun) : State :=
  if s.dmOut ch r then s else (s.dmOverlap r).dmReport ch code r

/-- DM_RUN_COMPLETE (R406, R407, R409): the run's last reads and writes are made, and, once all are answered, the
run reports. -/
def execDmRunComplete (ch : Nat) (s : State) : Host.Outcome State Fault Refusal :=
  match (s.dmChan ch).run with
  | none => .next s
  | some r =>
    if !s.dmUp ∨ s.dmWaits r then .next s
    else if !r.aborts.isEmpty then
      if s.dmOut ch r then .next s
      else
        let s := (s.dmUndefine ch r).dmReport ch Code.aborted r
        .next (r.aborts.foldl (fun s w => match w with
          | none => s
          | some (q, rid) => s.reply q Msg.dmAbort rid Code.aborted []) s)
    else match r.code with
      | some c => .next (s.dmFinish ch c r)
      | none =>
        if !r.checked then .next s
        else
          let s := s.dmWork ch (2 ^ 64) s.dmFuel
          match (s.dmChan ch).run with
          | none => .next s
          | some r =>
            match r.code with
            | some c => .next (s.dmFinish ch c r)
            | none =>
              if r.wrote < r.srcs.sum then .next s
              else match s.dmBack ch r with
                | (s, .wait) => .next s
                | (s, .code c) => .next ((s.dmFail ch c).dmFinish ch c r)
                | (s, .done) => .next (s.dmFinish ch Code.ok r)

/-- DM_ACCESS_ERROR (R408): an access of the run ends with `code` when `written` bytes have been written. It happens
only to a run that does meet that code there. -/
def execDmAccessError (ch code written : Nat) (s : State) : Host.Outcome State Fault Refusal :=
  match (s.dmChan ch).run with
  | none => .next s
  | some r =>
    if !s.dmUp ∨ !s.dmRuns r then .next s
    else
      let t := s.dmWork ch written s.dmFuel
      match (t.dmChan ch).run with
      | none => .next s
      | some q =>
        if q.code = some code ∧ q.wrote = written then .next t
        else
          -- the failing access is the write that starts where the others stop
          let u := (t.dmServeWrite ch (written + 1)).getD t
          if (u.dmChan ch).run.any (fun q => q.code == some code && q.wrote == written) then .next u else .next s

/-- R409, R410: an abort of channel `ch`, and whom it answers; none where it is answered at the report. -/
def State.dmAbort (s : State) (ch : Nat) (who : Option (Role × Nat)) : State × Option Nat :=
  if (s.dmChan ch).run.isSome then (s.updDmRun ch (fun r => { r with aborts := r.aborts ++ [who] }), none)
  else if s.getF (Reg.dmChSTAT ch) 30 30 = 1 then (s.setF (Reg.dmChSTAT ch) 30 30 0, some Code.aborted)
  else (s, some Code.alreadyDone)

/-- DM_ABORT (R409, R410). -/
def execDmAbort (r : Role) (rid ch : Nat) (s : State) : Host.Outcome State Fault Refusal :=
  .next (s.messageLater r rid Msg.dmAbort 0 (fun s =>
    if 32 ≤ ch then s.reply r Msg.dmAbort rid Code.badType []
    else if !s.dmRole r ch then s.reply r Msg.dmAbort rid Code.sxRole []
    else match s.dmAbort ch (some (r, rid)) with
      | (s, some c) => s.reply r Msg.dmAbort rid c []
      | (s, none) => s))

/-- A register write of CFG, SRC, DST or TIMER: at once, or held while a run is in progress (R415). -/
def State.dmRegWrite (s : State) (ch which : Nat) (hi : Bool) (v : W32) : State :=
  if (s.dmChan ch).run.isSome then
    s.setDm ch { s.dmChan ch with held := (s.dmChan ch).held ++ [(which, hi, v)] }
  else s.dmPut ch which hi v

/-- A write of CTL (R397, R409, R410): ABORT alone, where both bits are set. -/
def State.dmCtlWrite (s : State) (ch : Nat) (v : W32) : State :=
  if bit v.toNat 1 then (s.dmAbort ch none).1
  else if bit v.toNat 0 then s.dmStart ch 0 true else s

/-- Every run ends without a report, and its destination bytes are undefined (R412, R617); aborts that wait are
answered with `code`. -/
def State.dmStop (s : State) (code : Nat) : State :=
  let s := s.dm.foldl (fun s p => match p.2.run with
    | none => s
    | some r =>
      let s := ((s.dmUndefine p.1 r).setF (Reg.dmChSTAT p.1) 31 30 0)
      r.aborts.foldl (fun s w => match w with
        | none => s
        | some (q, rid) => s.reply q Msg.dmAbort rid code []) s) s
  { s.setF Reg.dmBusy 31 0 0 with dm := [] }

end Sys2Proof.Machine
end

