-- ==== Sys2Proof/Machine/ImageCheck.lean ====
section
/-!
DEFINITION. The Osore image as bytes (R109 to R117), what its sections say (R126 to R146), and the checks of R121
in their order: the code, section table entry and record of the first failure. Where the manual does not say
which record a failure names, log 46 does.
-/
namespace Sys2Proof.Machine

/-! ### The parts of an image -/

/-- The record index where none applies (R121). -/
abbrev noRec : Nat := 0xFFFFFFFF

/-- Entry `i` of the section table (R115). -/
def secEntry (img : List Byte) (i : Nat) : List Byte := slice img (128 + 32 * i) 32

/-- The index of the entry of a section type. -/
def secIx (img : List Byte) (t : Nat) : Nat :=
  ((List.range 8).find? (fun i => fld (secEntry img i) 0 2 == t)).getD noRec

/-- The bytes of the section of a type. -/
def secBytes (img : List Byte) (t : Nat) : List Byte :=
  let e := secEntry img (secIx img t)
  slice img (fld e 8 8) (fld e 16 8)

/-- ENTRIES of the section of a type. -/
def secCount (img : List Byte) (t : Nat) : Nat := fld (secEntry img (secIx img t)) 4 4

/-- `n` records of `size` bytes from offset `at_`. -/
def records (b : List Byte) (at_ size n : Nat) : List (List Byte) :=
  (List.range n).map (fun i => slice b (at_ + size * i) size)

/-- The records of a section of fixed record size. -/
def secRecs (img : List Byte) (t size : Nat) : List (List Byte) := records (secBytes img t) 0 size (secCount img t)

/-- The index of the first record that fails its check, given the records before it. -/
def firstBadAux (ok : List (List Byte) → List Byte → Bool) (before : List (List Byte)) (i : Nat) :
    List (List Byte) → Option Nat
  | [] => none
  | r :: l => if ok before r then firstBadAux ok (before ++ [r]) (i + 1) l else some i

/-- The index of the first record that fails. -/
def firstBad (ok : List (List Byte) → List Byte → Bool) (l : List (List Byte)) : Option Nat := firstBadAux ok [] 0 l

/-! ### What the sections say -/

/-- CONNECT: client and bank groups (R126). -/
def connectOf (img : List Byte) : List (Nat × Nat) := (secRecs img 1 4).map (fun r => (fld r 0 1, fld r 2 2))

/-- The region of a type, and its SEGMENT (R128). -/
def regionOf (img : List Byte) (t : Nat) : Region × Nat :=
  match (secRecs img 2 8).find? (fun r => fld r 0 1 == t) with
  | none => (⟨0, 0⟩, 0)
  | some r => (⟨fld r 4 2, fld r 6 2⟩, fld r 1 1)

/-- PARTITION. -/
def partitionOf (img : List Byte) : Partition :=
  ⟨(regionOf img 1).1, (regionOf img 2).1, (regionOf img 3).1, (regionOf img 3).2, (regionOf img 4).1⟩

/-- EN of a FIELDS record. -/
def fieldEn (r : List Byte) : Bool := bit (fld r 1 1) 0

/-- A FIELDS record (R130). -/
def FieldRec.of (r : List Byte) : FieldRec where
  id := fld r 0 1
  isolated := bit (fld r 1 1) 1
  channels := fld r 2 2
  ways := fld r 4 2
  engines := fld r 6 2
  slot := fld r 8 2
  guard := fld r 10 2
  phase := fld r 12 1
  ctxFirst := fld r 16 4
  ctxCount := fld r 20 4
  headland := fld r 24 4
  frameLimit := fld r 28 4
  stateSlots := fld r 32 4

/-- The enabled fields. -/
def fieldsOf (img : List Byte) : List FieldRec := ((secRecs img 3 64).filter fieldEn).map FieldRec.of

/-- The policy record (R134). -/
def Policy.of (p : List Byte) : Policy where
  floor := (Rung.ofCode (fld p 0 1)).getD .moor
  hostCap := fld p 2 2
  settle := fld p 4 2
  pdmDiv := fld p 6 1
  idle := (List.range 6).map (fun i => fld p (8 + 4 * i) 4)
  wakeTimer := fld p 32 4
  vcore := fld p 36 2

/-- A hail number, or none. -/
def hailRef (n : Nat) : Option Nat := if n ≤ 13 then some n else none

/-- A hail table entry (R136). -/
def HailEntry.of (e : List Byte) : HailEntry where
  enable := bit (fld e 0 1) 0
  array := bit (fld e 0 1) 1
  vision := bit (fld e 0 1) 2
  notify := bit (fld e 0 1) 3
  target := (Rung.ofCode (fld e 1 1)).getD .moor
  cap := fld e 2 2
  engines := fld e 4 2
  blocks := fld e 6 2
  cameras := fld e 8 1
  rate := fld e 9 1
  replaces := hailRef (fld e 10 1)
  releaseTo := hailRef (fld e 11 1)
  hold := fld e 12 2
  launch := if fld e 14 2 = 0xFFFF then none else some (fld e 14 2, fld e 16 4)
  lookback := fld e 20 4

/-- The hail table. -/
def hailsOf (img : List Byte) : List HailEntry := (records (secBytes img 4) 128 32 16).map HailEntry.of

/-- The domain codes (R135). -/
def domainsOf (img : List Byte) : List Nat := (List.range 40).map (fun d => fld (secBytes img 4) (64 + d) 1)

/-- The reaction table (R138). -/
def faultsOf (img : List Byte) : List (Nat × Nat) := (secRecs img 5 4).map (fun r => (fld r 0 1, fld r 1 1))

/-- RETAIN (R140). -/
def retainOf (img : List Byte) : List Retain := (secRecs img 6 32).map (fun r => ⟨fld r 0 16, fld r 16 1⟩)

/-- The tape directory records (R142). -/
def tapeRecs (img : List Byte) : List (List Byte) := secRecs img 7 16

/-- The bytes of the tape area. -/
def tapeBytes (img : List Byte) : Nat := ((tapeRecs img).map (fun r => 8 * fld r 8 4)).sum

/-- The tapes in the tape area, from an address, in directory order (log 46). -/
def layTapes (base : Nat) : List (List Byte) → List TapeDir
  | [] => []
  | r :: l => ⟨fld r 0 2, fld r 2 1, fld r 3 1, base, fld r 8 4⟩ :: layTapes (base + 8 * fld r 8 4) l

/-- The command words of a directory record. -/
def tapeWordsOf (img r : List Byte) : List Nat :=
  (chunksOf 8 (fld r 8 4) (slice (secBytes img 7) (fld r 4 4) (8 * fld r 8 4))).map leNat

/-- The commands of a directory record. -/
def tapeGroups (img r : List Byte) : Option (List (Nat × Nat × List Nat)) := groupsOf 0 (tapeWordsOf img r) (fld r 8 4)

/-- The parameter record of CONSTANTS (R144). -/
def paramOf (img : List Byte) : List Byte := slice (secBytes img 8) 0 64

/-- The blob records (R145). -/
def blobRecs (img : List Byte) : List (List Byte) := records (secBytes img 8) 64 16 (secCount img 8)

/-- The bytes of a blob. -/
def blobBytes (img r : List Byte) : List Byte := slice (secBytes img 8) (fld r 4 4) (fld r 8 4)

/-- The blobs. -/
def blobsOf (img : List Byte) : List Blob :=
  (blobRecs img).map (fun r => ⟨fld r 0 2, fld r 2 1, fld r 12 4 * 64, fld r 8 4⟩)

/-- The blob of a kind, of which there is at most one. -/
def blobOfKind (img : List Byte) (k : Nat) : Option (List Byte) :=
  ((blobRecs img).find? (fun r => fld r 2 1 == k)).map (blobBytes img)

/-- The watch records of a blob (R146). -/
def watchRecs (b : List Byte) : List (List Byte) := chunksOf 12 b.length b

/-- The QU registers that the calibration blobs load (R146): engine, watch or 0xFF, value. -/
def watchesIn (img : List Byte) : List (Nat × Nat × Nat) :=
  ((blobRecs img).filter (fun r => fld r 2 1 == 5)).flatMap (fun r => (watchRecs (blobBytes img r)).map (fun w =>
    (fld w 0 1, fld w 1 1, if fld w 1 1 = 0xFF then fld w 4 4 else fld w 4 8)))

/-- The whole image (R111, R123). -/
def Image.of (img : List Byte) : Image where
  measurement := sha256 (img.take (fld img 32 8))
  len := fld img 16 8
  version := fld img 40 8
  imageId := fld img 48 8
  seed := fld (paramOf img) 0 8
  dram := fld (paramOf img) 8 1
  frame := fld (paramOf img) 9 1
  renorm := fld (paramOf img) 10 2
  digest := fld (paramOf img) 12 2
  connect := connectOf img
  part := partitionOf img
  fields := fieldsOf img
  retain := retainOf img
  tapes := layTapes (partitionOf img).scratch.base (tapeRecs img)
  blobs := blobsOf img
  watches := watchesIn img

/-! ### Checks 1 to 4: header, part, signature, section table -/

/-- R110, against the bytes that arrived. -/
def headerOk (img : List Byte) : Bool :=
  slice img 0 8 == ascii [0x4F, 0x53, 0x4F, 0x52, 0x45, 0, 0, 0] && fld img 8 2 == 1 && fld img 10 2 == 128 &&
  zeroAt img 15 1 && fld img 16 8 == img.length && decide (img.length ≤ 0x4000000) && fld img 24 4 == 8 &&
  fld img 28 4 == 128 && zeroAt img 56 8 && zeroAt img 96 32

/-- PART and REV. -/
def deviceOk (img : List Byte) : Bool := fld img 12 2 == 0x4580 && fld img 14 1 == 0x10

/-- The bytes of the signature block at `o` (R112). -/
def sigBlockLen (b : List Byte) (o : Nat) : Nat := 68 + fld b (o + 4) 4

/-- The signature block at `o`, whole in `b`, signs `msg` under the key whose SHA-256 is `owner` (R112 to R114). -/
def sigBlockOk (owner : Option (List Byte)) (b : List Byte) (o : Nat) (msg : List Byte) : Bool :=
  let n := fld b (o + 4) 4
  let pub := slice b (o + 8) 60
  fld b o 4 == 60 && decide (n ≤ 16384) && decide (o + 68 + n ≤ b.length) && owner == some (sha256 pub) &&
  hssVerify pub (slice b (o + 68) n) msg

/-- The measurement of an image, from its bytes as they arrived (R111, R120). -/
def measure (seen : List Byte) : List Byte := sha256 (seen.take (fld seen 32 8))

/-- R112 to R114: `owner` is the owner digest that the Sextant holds, and `seen` what it measured. -/
def signatureOk (owner : Option (List Byte)) (seen img : List Byte) : Bool :=
  let o := fld img 32 8
  img.length == o + sigBlockLen img o && owner == some (slice img 64 32) &&
  sigBlockOk owner img o (ascii [0x4F, 0x53, 0x4F, 0x52, 0x45, 0x49, 0x4D, 0x47] ++ measure seen)

/-- R116: ENTRIES and LENGTH of a section of a type. -/
def sectionSizeOk (t n len : Nat) : Bool :=
  match t with
  | 1 => decide (1 ≤ n ∧ n ≤ 18 ∧ len = 4 * n)
  | 2 => decide (n = 4 ∧ len = 32)
  | 3 => decide (1 ≤ n ∧ n ≤ 8 ∧ len = 64 * n)
  | 4 => decide (n = 1 ∧ len = 640)
  | 5 => decide (n = 64 ∧ len = 256)
  | 6 => decide (n = 4 ∧ len = 128)
  | 7 => decide (1 ≤ n ∧ n ≤ 4096 ∧ 16 * n ≤ len)
  | 8 => decide (1 ≤ n ∧ n ≤ 4096 ∧ 64 + 16 * n ≤ len)
  | _ => false

/-- R115 to R117, for one entry after the entries before it. -/
def sectionOk (sig : Nat) (before : List (List Byte)) (e : List Byte) : Bool :=
  let off := fld e 8 8
  let len := fld e 16 8
  zeroAt e 2 2 && zeroAt e 24 8 && sectionSizeOk (fld e 0 2) (fld e 4 4) len && off % 64 == 0 &&
  decide (384 ≤ off) && decide (off + len ≤ sig) &&
  before.all (fun d => fld d 0 2 != fld e 0 2 &&
    (decide (off + len ≤ fld d 8 8) || decide (fld d 8 8 + fld d 16 8 ≤ off)))

/-! ### Checks 5 to 7: CONNECT, PARTITION, FIELDS -/

/-- R126, R127. -/
def connectOk (before : List (List Byte)) (r : List Byte) : Bool :=
  let c := fld r 0 1
  let g := fld r 2 2
  (decide (c ≤ 12) || (decide (33 ≤ c) && decide (c ≤ 36)) || c == 38) && zeroAt r 1 1 && g != 0 &&
  before.all (fun q => fld q 0 1 != c) &&
  (List.range 16).all (fun i => !bit g i || decide ((before.filter (fun q => bit (fld q 2 2) i)).length ≤ 5))

/-- R128, R129, for one record; the tape area takes `tape` banks. -/
def partitionOk (tape : Nat) (before : List (List Byte)) (r : List Byte) : Bool :=
  let t := fld r 0 1
  let seg := fld r 1 1
  let first := fld r 4 2
  let n := fld r 6 2
  (match t with
    | 1 => seg == 0 && decide (4 ≤ n) && decide (tape ≤ n)
    | 2 => seg == 0 && (n == 0 || n == 12)
    | 3 => [1, 2, 4, 8, 16].contains seg && n % seg == 0 && (n == 0 || decide (2 * seg ≤ n))
    | 4 => seg == 0 && n % 16 == 0
    | _ => false) &&
  zeroAt r 2 2 && decide (first ≤ 127) && decide (first + n ≤ 128) &&
  before.all (fun q => fld q 0 1 != t &&
    (decide (first + n ≤ fld q 4 2) || decide (fld q 4 2 + fld q 6 2 ≤ first) || n == 0 || fld q 6 2 == 0))

/-- PARTITION, with its coverage of the 128 banks. -/
def partitionBad (img : List Byte) : Option Nat :=
  let rs := secRecs img 2 8
  match firstBad (partitionOk (ceilDiv (tapeBytes img) 0x200000)) rs with
  | some i => some i
  | none => if (rs.map (fun r => fld r 6 2)).sum = 128 then none else some noRec

/-- R130 to R132, for one record. -/
def fieldOk (img : List Byte) (before : List (List Byte)) (r : List Byte) : Bool :=
  let f := FieldRec.of r
  let en := (before.filter fieldEn).map FieldRec.of
  let all := en ++ [f]
  let n := (fieldsOf img).filter FieldRec.isolated
  let part := partitionOf img
  decide (f.id ≤ 7) && decide (fld r 1 1 ≤ 3) && zeroAt r 13 3 && zeroAt r 36 28 &&
  before.all (fun q => fld q 0 1 != f.id) &&
  (!fieldEn r ||
    ((if f.isolated then decide (500 ≤ f.slot) && decide (f.guard < f.slot) && decide (f.phase < n.length)
      else f.slot == 0 && f.guard == 0 && decide (f.phase ≤ 7)) &&
     decide (1 ≤ f.ctxCount) && decide (f.ctxFirst + f.ctxCount ≤ 40960) && decide (f.headland ≤ f.frameLimit) &&
     (f.channels == 0 || fld (paramOf img) 8 1 % 4 != 0) && (f.ways == 0 || part.tier.banks != 0) &&
     (List.range 16).all (fun e => !bit f.engines e ||
       (decide (e ≤ 10) && (connectOf img).any (fun c => c.1 == e))) &&
     en.all (fun g => f.channels &&& g.channels == 0 && f.ways &&& g.ways == 0 &&
       (decide (f.ctxFirst + f.ctxCount ≤ g.ctxFirst) || decide (g.ctxFirst + g.ctxCount ≤ f.ctxFirst)) &&
       (f.isolated == g.isolated || f.engines &&& g.engines == 0) &&
       !(f.isolated && g.isolated && f.phase == g.phase)) &&
     decide ((all.map FieldRec.headland).sum ≤ 65536) &&
     decide ((all.map FieldRec.stateSlots).sum ≤ (if part.store.banks = 0 then 0 else 2048))))

/-- FIELDS. -/
def fieldsBad (img : List Byte) : Option Nat :=
  match firstBad (fieldOk img) (secRecs img 3 64) with
  | some i => some i
  | none => if (fieldsOf img).isEmpty then some noRec else none

/-! ### Checks 8 to 11: POWER, hails, FAULTS, RETAIN -/

/-- The clock domains that always run (R679). -/
def alwaysOn : List Nat := [14, 20, 21, 22, 27, 36, 38, 39]

/-- R134, R135. -/
def powerOk (img : List Byte) : Bool :=
  let p := secBytes img 4
  decide (fld p 0 1 ≤ 6) && zeroAt p 1 1 && decide (32 ≤ fld p 2 2) && decide (fld p 2 2 ≤ 152) && fld p 4 2 != 0 &&
  [4, 8, 16].contains (fld p 6 1) && zeroAt p 7 1 && decide (650 ≤ fld p 36 2) && decide (fld p 36 2 ≤ 850) &&
  zeroAt p 38 26 && zeroAt p 104 24 &&
  (List.range 40).all (fun d => fld p (64 + d) 1 == 0 || (decide (fld p (64 + d) 1 ≤ 2) && !alwaysOn.contains d))

/-- The tapes that a tape reaches through NEXT and SPAWN, itself included. -/
def reachTapes (img : List Byte) (seen todo : List Nat) : Nat → List Nat
  | 0 => seen
  | fuel + 1 =>
    match todo with
    | [] => seen
    | t :: rest =>
      if seen.contains t then reachTapes img seen rest fuel
      else
        let nexts := (((tapeRecs img).find? (fun r => fld r 0 2 == t)).bind (tapeGroups img)).getD []
        reachTapes img (seen ++ [t]) (rest ++ ((nexts.filter (fun g => hClass g.2.1 == 5 || hClass g.2.1 == 6)).map
          (fun g => bits g.2.1 31 16)).eraseDups) fuel

/-- The tape kinds that a launch at an entry point needs. -/
def kindsNeeded (img : List Byte) (entry : Nat) : List Nat :=
  let n := secCount img 7
  let ts := reachTapes img [] [entry / 65536] ((n + 1) * (n + 2))
  ((tapeRecs img).filter (fun r => ts.contains (fld r 0 2))).map (fun r => fld r 2 1)

/-- Following release_to visits a hail number twice (R40). -/
def releaseLoop (hs : List (List Byte)) (seen : List Nat) (n : Nat) : Nat → Bool
  | 0 => true
  | fuel + 1 =>
    if 13 < n then false
    else if seen.contains n then true
    else releaseLoop hs (n :: seen) (fld ((hs[n]?).getD []) 11 1) fuel

/-- R40, R136, R137, for entry `n`. -/
def hailOk (img : List Byte) (hs : List (List Byte)) (n : Nat) (e : List Byte) : Bool :=
  if 14 ≤ n then zeroAt e 0 32
  else
    let ctx := fld e 14 2
    let ref (k : Nat) : Bool := decide (k ≤ 13) || k == 0xFF
    fld e 0 1 / 16 == 0 && decide (fld e 1 1 ≤ 5) && fld e 6 2 / 256 == 0 && fld e 8 1 / 16 == 0 &&
    (if fld e 8 1 = 0 then fld e 9 1 == 0 else decide (1 ≤ fld e 9 1) && decide (fld e 9 1 ≤ 60)) &&
    ref (fld e 10 1) && ref (fld e 11 1) && fld e 10 1 != n && !releaseLoop hs [] n 16 &&
    decide (fld e 20 4 ≤ 98304) && zeroAt e 24 8 &&
    (if ctx = 0xFFFF then fld e 16 4 == 0
     else (fieldsOf img).any (fun f => decide (f.ctxFirst ≤ ctx) && decide (ctx < f.ctxFirst + f.ctxCount))) &&
    (fld e 1 1 != 5 ||
      (decide (32 ≤ fld e 2 2) && decide (fld e 2 2 ≤ 152) && fld e 4 2 / 2048 == 0 &&
        (ctx == 0xFFFF || (kindsNeeded img (fld e 16 4)).all (fun k =>
          (List.range 11).any (fun g => bit (fld e 4 2) g &&
            k == (if g ≤ 4 then 0 else if g ≤ 6 then 1 else if g = 7 then 2 else if g ≤ 9 then 3 else 4))))))

/-- The hail table. -/
def hailsBad (img : List Byte) : Option Nat :=
  let hs := records (secBytes img 4) 128 32 16
  firstBad (fun before e => hailOk img hs before.length e) hs

/-- R138, R139. -/
def faultOk (before : List (List Byte)) (r : List Byte) : Bool :=
  let b := before.length
  let a := fld r 0 1
  decide (a ≤ 4) && decide (fld r 1 1 ≤ 3) && zeroAt r 2 2 && (!(a == 1 || a == 2) || decide (b ≤ 10)) &&
  !(a == 3 && [14, 37, 41, 42, 63].contains b) && !(decide (45 ≤ b) && decide (b ≤ 62) && (a != 0 || fld r 1 1 != 0)) &&
  (b != 63 || a == 4)

/-- Every bit of `a` is set in `b`. -/
def subset (a b : Nat) : Bool := a &&& b == a

/-- R140, R141. -/
def retainOk (before : List (List Byte)) (r : List Byte) : Bool :=
  decide (fld r 16 1 ≤ 15) && zeroAt r 17 15 && (before.length != 3 || zeroAt r 0 32) &&
  before.all (fun q => subset (fld r 0 16) (fld q 0 16) && subset (fld r 16 1) (fld q 16 1))

/-! ### Check 12: TAPES -/

/-- The engines of a tape kind in a field's set. -/
def kindEngines (kind : Nat) (f : FieldRec) : List Nat :=
  (List.range 11).filter (fun e => bit f.engines e &&
    kind == (if e ≤ 4 then 0 else if e ≤ 6 then 1 else if e = 7 then 2 else if e ≤ 9 then 3 else 4))

/-- The bank groups that every engine of the kind reaches in every field of the mask (R143). -/
def commonGroups (img : List Byte) (kind mask : Nat) : Nat :=
  (fieldsOf img).foldl (fun m f =>
    if bit mask f.id then
      (kindEngines kind f).foldl (fun m e =>
        m &&& (((connectOf img).find? (fun c => c.1 == e)).map Prod.snd).getD 0) m
    else m) 0xFFFF

/-- An entry point names a header word of a tape. -/
def entryResolves (heads : List (Nat × List Nat)) (entry : Nat) : Bool :=
  heads.any (fun t => t.1 == entry / 65536 && t.2.contains (entry % 65536))

/-- The header offsets of every tape that decodes into groups. -/
def tapeHeads (img : List Byte) : List (Nat × List Nat) :=
  (tapeRecs img).map (fun r => (fld r 0 2, ((tapeGroups img r).getD []).map Prod.fst))

/-- R142, R143, R153, R189, R228, R231, R335, for one tape. The last bullet of R335 never holds: a CN word names no raise target
but RDY (log 78). -/
def tapeOk (img : List Byte) (heads : List (Nat × List Nat)) (before : List (List Byte)) (r : List Byte) : Bool :=
  let kind := fld r 2 1
  let mask := fld r 3 1
  let runs := (fieldsOf img).filter (fun f => bit mask f.id)
  let guards := (runs.filter FieldRec.isolated).map FieldRec.guard
  let layers := 16 * 2 ^ (fld (paramOf img) 9 1 % 4)
  let scratch := (partitionOf img).scratch
  let need := commonGroups img kind mask
  before.all (fun q => fld q 0 2 != fld r 0 2) && decide (kind ≤ 4) && zeroAt r 12 4 && fld r 4 4 % 8 == 0 &&
  decide (16 * secCount img 7 ≤ fld r 4 4) && decide (fld r 4 4 + 8 * fld r 8 4 ≤ (secBytes img 7).length) &&
  (List.range 8).all (fun f => !bit mask f || runs.any (fun g => g.id == f && !(kindEngines kind g).isEmpty)) &&
  (match tapeGroups img r with
    | none => false
    | some gs => gs.all (fun g =>
        let h := g.2.1
        decodes kind h g.2.2 &&
        (if hClass h = 1 then
          computeOk kind h g.2.2 layers scratch need &&
            guards.all (fun u => decide (1 ≤ (Hdr.of h).bound) && decide ((Hdr.of h).bound ≤ u))
         else if hClass h = 5 ∨ hClass h = 6 then entryResolves heads (bits h 31 0) else true)))

/-- TAPES: the size of the tape area, then each tape. -/
def tapesBad (img : List Byte) : Option Nat :=
  if 0x800000 < tapeBytes img then some noRec else firstBad (tapeOk img (tapeHeads img)) (tapeRecs img)

/-! ### Check 13: CONSTANTS -/

/-- R144. -/
def paramOk (img : List Byte) : Bool :=
  let p := paramOf img
  fld p 8 1 / 8 == 0 && fld p 8 1 % 4 != 3 && decide (fld p 9 1 ≤ 2) && fld p 10 2 != 0 && fld p 12 2 != 0 &&
  zeroAt p 14 50

/-- R468, R470: layer `i` of a Lookout blob. -/
def loLayerOk (blob : List Byte) (i : Nat) : Bool :=
  let d := slice blob (1024 + 32 * i) 32
  let y := LoLayer.of blob i
  let last := i + 1 == loLayerCount blob
  let row := ceilDiv (y.kt * y.nin) 2
  decide (y.kind ≤ 1) && decide (y.wfmt ≤ 2) && (last || decide (y.ofmt ≤ 2)) && decide (1 ≤ y.kt) &&
  decide (y.kt ≤ (if y.kind = 0 then 1 else 8)) && decide (1 ≤ y.dil) && decide (y.dil ≤ (if y.kind = 0 then 1 else 4)) &&
  decide (y.mapen ≤ 1) && zeroAt d 6 2 && zeroAt d 28 4 && decide (1 ≤ y.nin) && decide (y.nin ≤ 512) &&
  y.nin == (if i = 0 then fld blob 5 1 else (LoLayer.of blob (i - 1)).nout) && decide (1 ≤ y.nout) &&
  decide (y.nout ≤ (if last then 1 else 512)) && decide (y.woff + y.nout * row ≤ blob.length) &&
  decide (y.roff + 8 * y.nout ≤ blob.length) &&
  (List.range y.nout).all (fun n =>
    (ChanRec.ofBytes (slice blob (y.roff + 8 * n) 8)).usable (if last then .none else .fmt y.ofmt)) &&
  (last || y.mapen == 0 || y.ofmt != 2 || mapF4Ok y.map)

/-- R467, R468, R470: a Lookout blob of slot `k`. Thresholds are finite (log 46). -/
def lookoutOk (blob : List Byte) (k : Nat) : Bool :=
  let layers := (List.range (loLayerCount blob)).map (LoLayer.of blob)
  let zeroIn (s i n : Nat) : Bool := k != s || zeroAt blob i n
  decide (1024 ≤ blob.length) && slice blob 0 4 == ascii [0x4C, 0x4F, 0x4D, 0x31] && decide (1 ≤ loLayerCount blob) &&
  decide (loLayerCount blob ≤ 16) && decide (1024 + 32 * loLayerCount blob ≤ blob.length) &&
  decide (1 ≤ fld blob 5 1) && decide (fld blob 5 1 ≤ 64) && decide (80 ≤ loHop blob) && decide (loHop blob ≤ 480) &&
  (match single (fld blob 8 4), single (fld blob 12 4) with
    | some t, some r => k == 0 || r.lt t
    | _, _ => false) &&
  zeroIn 0 12 4 && decide (1 ≤ fld blob 16 1) && decide (fld blob 16 1 ≤ 15) && zeroIn 1 17 1 && zeroIn 0 18 2 &&
  (k == 0 || fld blob 18 2 != 0) && zeroIn 0 20 4 && decide (fld blob 20 4 ≤ 98304) && zeroAt blob 25 7 &&
  (List.range 64).all (fun b =>
    if b < fld blob 5 1 then
      decide (fld blob (32 + 4 * b) 2 ≤ fld blob (34 + 4 * b) 2) && decide (fld blob (34 + 4 * b) 2 ≤ 256)
    else zeroAt blob (32 + 4 * b) 4) &&
  zeroAt blob 288 224 && zeroAt blob 736 288 && zeroIn 1 512 224 &&
  (List.range 14).all (fun h => zeroAt blob (512 + 16 * h + 11) 5) &&
  (List.range (loLayerCount blob)).all (loLayerOk blob) &&
  decide (((layers.filter (fun y => y.kind == 1)).map (fun y => ((y.kt - 1) * y.dil + 1) * ceilDiv y.nin 2)).sum ≤ 65536) &&
  decide (2048 + (layers.map (fun y => ceilDiv (y.nout * y.kt * y.nin) 64 + 64)).sum ≤ loHop blob * 384)

/-- R469, R470: the routes of the slot-0 blob against the hail table and AF's bank groups. -/
def routesOk (img : List Byte) : Bool :=
  let blob := blobOfKind img 3
  let route (h : Nat) : Route := match blob with
    | none => ⟨0, 0, 0, false⟩
    | some b => Route.of b h
  let af := (((connectOf img).find? (fun c => c.1 == 12)).map Prod.snd).getD 0
  (List.range 14).all (fun h =>
    let r := route h
    let e := ((hailsOf img)[h]?).getD (HailEntry.of [])
    (!(e.enable && e.launch.isSome && e.lookback != 0) || r.valid) &&
    (!r.valid ||
      (decide (Rung.height .doze ≤ e.target.height) && decide (2 * (e.lookback + 4096) ≤ r.area) && r.area % 64 == 0 &&
       decide (r.counter ≤ 511) && (partitionOf img).scratch.holds r.buf (512 + r.area) && inGroups af r.buf (512 + r.area) &&
       (List.range h).all (fun g => !(route g).valid ||
         decide (r.buf + 512 + r.area ≤ (route g).buf) || decide ((route g).buf + 512 + (route g).area ≤ r.buf)))))

/-- R146, for one record. -/
def watchOk (img : List Byte) (before : List (List Byte)) (r : List Byte) : Bool :=
  let n := fld r 1 1
  let v := fld r 4 8
  decide (fld r 0 1 ≤ 10) && zeroAt r 2 2 && before.all (fun q => slice q 0 2 != slice r 0 2) &&
  (if n = 0xFF then decide (v < 0x20000)
   else decide (n ≤ 63) && bits v 62 51 == 0 && bits v 31 16 == 0 && (fieldsOf img).any (fun f => f.id == bits v 50 48))

/-- R145, R146, R470, for one blob. -/
def blobOk (img : List Byte) (before : List (List Byte)) (r : List Byte) : Bool :=
  let kind := fld r 2 1
  let len := fld r 8 4
  let sec := secBytes img 8
  let b := blobBytes img r
  before.all (fun q => fld q 0 2 != fld r 0 2) && zeroAt r 3 1 && fld r 4 4 % 64 == 0 &&
  decide (64 + 16 * secCount img 8 ≤ fld r 4 4) && decide (fld r 4 4 + len ≤ sec.length) &&
  (match kind with
    | 1 => len % 64 == 0 && (partitionOf img).scratch.holds (fld r 12 4 * 64) len
    | 2 => (partitionOf img).scratch.holds (fld r 12 4 * 64) len
    | 3 => fld r 12 4 == 0 && decide (len ≤ 262144) && before.all (fun q => fld q 2 1 != 3) && lookoutOk b 0
    | 4 => fld r 12 4 == 0 && decide (len ≤ 262144) && before.all (fun q => fld q 2 1 != 4) && lookoutOk b 1
    | 5 =>
      let earlier := (before.filter (fun q => fld q 2 1 == 5)).flatMap (fun q => watchRecs (blobBytes img q))
      fld r 12 4 == 0 && len % 12 == 0 &&
        (firstBad (fun bs w => watchOk img (earlier ++ bs) w) (watchRecs b)).isNone
    | _ => false)

/-- CONSTANTS. -/
def constBad (img : List Byte) : Option Nat :=
  if !paramOk img then some noRec
  else match firstBad (blobOk img) (blobRecs img) with
    | some i => some i
    | none => if routesOk img then none else some noRec

/-! ### Checks 14 and 15 -/

/-- Consecutive scale blocks from an address, each with the output format it serves. -/
def blockFmts (fmt : Nat) (a : Nat) : List Nat → List (Nat × Nat)
  | [] => []
  | n :: l => (a, fmt) :: blockFmts fmt (a + scaleBlockBytes n) l

/-- The scale blocks that a command addresses in the commons, with their formats (R89). -/
def cmdFmts (kind : Nat) (h : Nat) (w : List Nat) : List (Nat × Nat) :=
  let c := Hdr.of h
  let passes (fmt a n g : Nat) : List (Nat × Nat) :=
    blockFmts fmt a ((List.replicate (c.rep + 1) (groupCounts n g)).flatten)
  let y (i : Nat) := MatY.of (opWord w i)
  let s (i : Nat) := MatS.of (opWord w i)
  if kind = 0 then
    match c.op with
    | 0x10 => passes (y 3).ofmt (s 2).saddr (y 3).n (y 3).group
    | 0x11 => passes (y 3).ofmt (s 2).saddr (y 3).n (y 3).group
    | 0x12 => if (s 1).src = 0 ∧ (y 2).ofmt ≠ 3 then passes (y 2).ofmt (s 1).saddr (y 2).n (y 2).group else []
    | 0x13 => passes (y 2).ofmt (s 1).saddr (y 2).n (y 2).group
    | 0x14 => passes (y 2).ofmt (s 1).saddr (y 2).n (y 2).group
    | 0x19 => passes (y 3).ofmt (s 2).saddr (y 0).n (y 0).group
    | _ => []
  else if kind = 1 then
    if c.op ≠ 0x20 then []
    else
      let q := AttQ.of (opWord w 0)
      let u := AttU.of (opWord w 2)
      let per := 32 + q.d / 32
      if u.src ≠ 0 then []
      else (List.range (q.g * per)).map (fun i =>
        (u.saddr + 320 * i, if i % per < 32 then 0 else (RowY.of (opWord w 4)).ofmt))
  else if kind = 2 then []
  else
    let v := WinCmd.of c w
    blockFmts v.outFmt v.s.saddr (groupCounts v.f.n v.y.group)

/-- Every scale block that a tape addresses in the commons. -/
def imageFmts (img : List Byte) : List (Nat × Nat) :=
  (tapeRecs img).flatMap (fun r => ((tapeGroups img r).getD []).flatMap (fun g =>
    if hClass g.2.1 = 1 then cmdFmts (fld r 2 1) g.2.1 g.2.2 else []))

/-- R86, R88, R89: the blocks of a scale stream that stands at `a`, `fuel` blocks at most. -/
def scalesOk (fmts : List (Nat × Nat)) (a : Nat) (b : List Byte) : Nat → Bool
  | 0 => b.isEmpty
  | fuel + 1 =>
    if b.isEmpty then true
    else
      let n := fld b 1 1 + 1
      let size := scaleBlockBytes n
      fld b 0 1 / 64 == 0 && zeroAt b 2 2 && zeroAt b 8 56 && decide (n ≤ 32) && decide (size ≤ b.length) &&
      (let mine := fmts.filter (fun p => p.1 == a)
       (List.range n).all (fun i =>
         let r := ChanRec.ofBytes (slice b (64 + 8 * i) 8)
         r.usable .none && mine.all (fun p => r.usable (.fmt p.2)))) &&
      scalesOk fmts (a + size) (b.drop size) fuel

/-- Check 14. -/
def scalesBad (img : List Byte) : Option Nat :=
  firstBad (fun _ r => fld r 2 1 != 1 ||
    scalesOk (imageFmts img) (fld r 12 4 * 64) (blobBytes img r) (fld r 8 4)) (blobRecs img)

/-- R147: the blob's destination lies in a staged bank. -/
def stagedDest (img r : List Byte) : Bool :=
  (fld r 2 1 == 1 || fld r 2 1 == 2) && fld r 8 4 != 0 && decide (fld r 12 4 * 64 / 0x200000 < ceilDiv img.length 0x200000)

/-- R121: the code, section table entry and record of the first check that fails. -/
def imageReject (owner : Option (List Byte)) (seen img : List Byte) : Option (Nat × Nat × Nat) :=
  let sec (code t : Nat) (bad : Option Nat) : Option (Nat × Nat × Nat) := bad.map (fun i => (code, secIx img t, i))
  if !headerOk img then some (Code.imgFormat, noRec, noRec)
  else if !deviceOk img then some (Code.imgDevice, noRec, noRec)
  else if !signatureOk owner seen img then some (Code.imgSignature, noRec, noRec)
  else match firstBad (sectionOk (fld img 32 8)) (records img 128 32 8) with
    | some i => some (Code.imgSection, i, noRec)
    | none =>
      sec Code.imgConnect 1 (firstBad connectOk (secRecs img 1 4)) <|>
      sec Code.imgPartition 2 (partitionBad img) <|>
      sec Code.imgFields 3 (fieldsBad img) <|>
      sec Code.imgPower 4 (if powerOk img then none else some 0) <|>
      sec Code.imgHail 4 (hailsBad img) <|>
      sec Code.imgFaults 5 (firstBad faultOk (secRecs img 5 4)) <|>
      sec Code.imgRetain 6 (firstBad retainOk (secRecs img 6 32)) <|>
      sec Code.imgTape 7 (tapesBad img) <|>
      sec Code.imgConst 8 (constBad img) <|>
      sec Code.imgScale 8 (scalesBad img) <|>
      sec Code.imgOverlap 7 (if tapeBytes img != 0 && decide ((partitionOf img).scratch.first < ceilDiv img.length 0x200000)
        then some noRec else none) <|>
      sec Code.imgOverlap 8 (firstBad (fun _ r => !stagedDest img r) (blobRecs img))

end Sys2Proof.Machine
end

