-- ==== Sys2Proof/Machine/LinkRx.lean ====
section
/-!
DEFINITION. What arrives at a Retus port and what it does (R546 to R568): frames, control units, requests and
posted messages delivered here, responses, timeouts, and a port's way up and down.
-/
namespace Sys2Proof.Machine

/-- Port `p` exists and its LX runs: the core is up, no reset of it, no safe state (R617). -/
def State.lxUp (s : State) (p : Nat) : Bool := decide (p < 4) && s.coreUp && !s.domainHeld 19 && !s.domainHeld (28 + p) &&
  !s.inReset (33 + p) && !s.safe

/-- Port `p` passes sequenced frames: UP, or trained with its HELLO queued or sent (R545, R549). -/
def State.lxOpen (s : State) (p : Nat) : Bool :=
  let t := s.port p
  s.lxUp p && (t.state == 4 || (t.state == 3 && (!t.ctrl.isEmpty || t.sent != 0)))

/-! ### Frames (R543, R546, R568) -/

/-- LINK_FRAME (R543, R546): a codeword arrives. -/
def execLinkFrame (port : Nat) (decoded corrected : Bool) (hdr crc : Nat) (body : List Byte) (s : State) :
    Host.Outcome State Fault Refusal :=
  if !s.lxOpen port ∨ 16 ≤ hdr ∨ body.length ≠ 640 then .next s
  else if s.armed (Reg.lxInject port) 1 then
    .next ((((s.setF (Reg.lxInject port) 1 1 0).setF (Reg.lxErr port) 1 1 1)).goDown port false)
  else
    let good := frameGood decoded (BitVec.ofNat 16 crc) (crc16 (natLE 1 hdr ++ body))
    .next (s.frameIn port good (decoded && corrected) hdr body)

/-- FRAME_SEND (R544 to R547): one codeword time of the port's transmitter. A resend reads the replay buffer, and a
sequenced frame may have its CRC corrupted, where an injection is armed (R568); one armed in bit 2 forces the port down. -/
def execFrameSend (port : Nat) (s : State) : Host.Outcome State Fault Refusal :=
  if !s.lxOpen port then .next s
  else if s.armed (Reg.lxInject port) 2 then .next ((s.setF (Reg.lxInject port) 2 2 0).goDown port false)
  else if (s.port port).resend.isSome && s.armed (Reg.lxInject port) 0 then
    .next ((((s.setF (Reg.lxInject port) 0 0 0).setF (Reg.lxErr port) 0 0 1)).goDown port false)
  else
    let sent := (s.port port).sent
    let resent := (s.port port).resend.isSome
    let s := s.sendFrame port
    if s.armed (Reg.lxInject port) 3 && ((s.port port).sent != sent || (resent && ((s.port port).lane.map Prod.fst).any (· < 8))) then
      let (k, s) := (s.setF (Reg.lxInject port) 3 3 0).pick 65535
      .next (s.updPort port (fun t => { t with lane := t.lane.map (fun l => (l.1, l.2.1 + BitVec.ofNat 16 (k + 1), l.2.2)) }))
    else .next s

/-! ### Control units (R546, R549, R550, R565) -/

/-- R549: the checks of a received HELLO. -/
def State.helloOk (s : State) (p system devid pport pm1 qm1 : Nat) : Bool :=
  system == s.getF (Reg.lxId 0) 63 32 && pm1 + 1 == s.rings.1 && qm1 + 1 == s.rings.2 && devid == s.neighbourId p &&
    pport == partnerPort p

/-- HELLO (R549): the port becomes UP, with what it held queued, or enters MISWIRED. -/
def execHello (port system devid pport rev pm1 qm1 : Nat) (s : State) : Host.Outcome State Fault Refusal :=
  let u := ctrlUnit 0xC0 (natLE 4 system ++ natLE 2 devid ++ natLE 1 pport ++ natLE 1 rev ++ natLE 1 pm1 ++ natLE 1 qm1)
  if !s.lxOpen port then .next s
  else match s.takeUnit port u with
    | none => .next s
    | some s =>
      if (s.port port).state = 4 then .next s
      else if s.helloOk port (fld u 4 4) (fld u 8 2) (fld u 10 1) (fld u 12 1) (fld u 13 1) then
        let s := s.updPort port (fun t => { t with
          state := 4, back := 0, peer := fld u 8 2 % 1024, pport := fld u 10 1 % 4, used := [], txq := t.held, held := [] })
        .next (s.postOwner Code.linkUp (33 + port) (natLE 2 devid ++ natLE 1 pport))
      else
        let s := (s.portTo port 6).dropAll port (s.port port).held true
        let s := s.updPort port (fun t => { t with held := [], back := 0 })
        .next (s.postOwner Code.linkMiswired (33 + port) u)

/-- The number of the oldest frame held for replay. -/
def LxPort.oldest (t : LxPort) : Nat := t.sent - t.replay.length

/-- How far a 32-bit serial lies past the oldest held frame. -/
def LxPort.past (t : LxPort) (n : Nat) : Nat := (n + 2 ^ 32 - t.oldest % 2 ^ 32) % 2 ^ 32

/-- Held frames that a LACK covers are released. -/
def LxPort.release (t : LxPort) (count : Nat) : LxPort :=
  let k := t.past count
  if t.replay.length < k then t
  else
    let low := t.oldest + k
    { t with
      replay := t.replay.drop k
      resend := match t.resend with
        | none => none
        | some j => if low ≤ j then some j else if low < t.sent then some low else none }

/-- LACK (R546): the frames that it covers are released. -/
def execLack (port count : Nat) (s : State) : Host.Outcome State Fault Refusal :=
  if !s.lxOpen port then .next s
  else match s.takeUnit port (ctrlUnit 0xC1 (natLE 4 count)) with
    | none => .next s
    | some s => .next (s.updPort port (fun t => t.release count))

/-- LNAK (R546, R550): the port resends from the named frame; the 32nd in a row that names one frame takes it down. -/
def execLnak (port num : Nat) (s : State) : Host.Outcome State Fault Refusal :=
  if !s.lxOpen port then .next s
  else match s.takeUnit port (ctrlUnit 0xC3 (natLE 4 num)) with
    | none => .next s
    | some s =>
      let t := s.port port
      let run := if 0 < t.lnakRun ∧ t.lnak = num then t.lnakRun + 1 else 1
      let s := s.updPort port (fun t => { t with lnak := num, lnakRun := run })
      if 32 ≤ run then .next (s.goDown port false)
      else if t.past num < t.replay.length then
        let s := s.updPort port (fun t => { t with resend := some (t.oldest + t.past num) })
        .next (s.bump (Reg.lxCnt0 port) 31 16 49 1 none)
      else .next s

/-- CRED (R565): units return to the pools they name. -/
def execCred (port : Nat) (returns : List (Nat × Nat)) (s : State) : Host.Outcome State Fault Refusal :=
  let u := ctrlUnit 0xC2 (returns.flatMap (fun q => natLE 4 (q.1 % 64 + q.2 % 1024 * 65536)))
  if !s.lxOpen port then .next s
  else match s.takeUnit port u with
    | none => .next s
    | some s => .next (s.updPort port (fun t => { t with
        used := returns.foldl (fun m q => Map.put m q.1 (Map.get m q.1 0 - q.2)) t.used }))

/-- BYE (R550): the port goes to SLEEPING, and raises no error. -/
def execBye (port : Nat) (s : State) : Host.Outcome State Fault Refusal :=
  if !s.lxOpen port then .next s
  else match s.takeUnit port (ctrlUnit 0xC4 []) with
    | none => .next s
    | some s => .next (s.goDown port true)

/-! ### Requests delivered here (R559 to R561) -/

/-- A message waits at port `p` to be delivered here. -/
def State.deliver (s : State) (p typ : Nat) (m : LinkMsg) (f : State → State) : State :=
  if !s.lxUp p ∨ (s.port p).state ≠ 4 ∨ m.typ ≠ typ then s
  else match s.takeMsg p m with
    | none => s
    | some s => f s

/-- A local address that a Retus request may reach (R355, R559): scratch banks of a group that the port's CONNECT
record names, the data part of a channel that is lent while TU.LEND.EN is set, or for owner traffic an owner channel. -/
def State.linkReach (s : State) (p : Nat) (m : LinkMsg) : Option Nat :=
  let a := m.arg
  let n := m.len
  if n = 0 ∨ 512 < n then none
  else if a + n ≤ 0x10000000 then
    if s.part.scratch.holds a n && inGroups (s.groups (33 + p)) a n then some a else none
  else if s.dramOk a n true (fun c => s.getF Reg.tuLend 31 31 == 1 && s.lentChan c) ||
      (m.own && s.dramOk a n false s.ownerChan) then some a
  else none

/-- A local address lies in a lent channel, whose pairs are checked (R347, R349). -/
def State.inLent (s : State) (a : Nat) : Bool :=
  decide (0x100000000 ≤ a) && decide (0 < s.chanBytes) && s.lentChan ((a - 0x100000000) / s.chanBytes)

/-- MC or CM reads for a Retus request: none when poisoned. -/
def State.linkRead (s : State) (a n : Nat) : State × Option (List Byte) :=
  if s.inLent a then s.lentRead a n
  else
    let (s, poison) := if a < 0x10000000 then s.cmRead a n else (s, false)
    (s, if poison then none else some (s.read a n))

/-- MC or CM writes for a Retus request: refused where a partial pair is uncorrectable (R352). -/
def State.linkWrite (s : State) (a : Nat) (bs : List Byte) : State × Bool :=
  if s.inLent a then s.lentWrite a bs else (s.write a bs, true)

/-- MRD (R559, R561): bytes read here, answered by RDATA. -/
def execMrd (port : Nat) (m : LinkMsg) (s : State) : Host.Outcome State Fault Refusal :=
  if s.dramBusy m.arg then .next s
  else .next (s.deliver port 0x01 m (fun s =>
    match s.linkReach port m with
    | none => s.respond m 0x81 Code.badAddress []
    | some a =>
      match s.linkRead a m.len with
      | (s, none) => s.respond m 0x81 Code.memPoison []
      | (s, some bs) => s.respond m 0x81 Code.ok bs))

/-- MWR (R352, R559, R561): bytes written here, answered by WACK. -/
def execMwr (port : Nat) (m : LinkMsg) (s : State) : Host.Outcome State Fault Refusal :=
  if s.dramBusy m.arg then .next s
  else .next (s.deliver port 0x02 m (fun s =>
    match s.linkReach port m with
    | none => s.respond m 0x82 Code.badAddress []
    | some a =>
      match s.linkWrite a m.payload with
      | (s, false) => s.respond m 0x82 Code.memPoison []
      | (s, true) => s.respond m 0x82 Code.ok []))

/-- URD (R559, R560): stored blocks of a field read through TU, when the tags of the two devices' keys agree. It waits
while TU may not take the field's work, or refetches a block. -/
def execUrd (port : Nat) (m : LinkMsg) (s : State) : Host.Outcome State Fault Refusal :=
  let ua := m.arg % 2 ^ 40
  let f := m.field
  if !s.lxUp port ∨ !s.tuUp ∨ s.slotWait f then .next s
  else if m.own ∨ (s.fieldRec f).isNone then .next (s.deliver port 0x03 m (fun s => s.respond m 0x81 Code.linkField []))
  else match s.ktag f with
    | some tag =>
      if m.payload.take 4 ≠ tag then .next (s.deliver port 0x03 m (fun s => s.respond m 0x81 Code.keyMismatch []))
      else if ua % 64 ≠ 0 ∨ m.len % 64 ≠ 0 ∨ m.len = 0 ∨ 512 < m.len then
        .next (s.deliver port 0x03 m (fun s => s.respond m 0x81 Code.badAddress []))
      else match s.tuRead f ua m.len false with
        | (t, .wait) => if (s.port port).state = 4 ∧ (s.takeMsg port m).isSome then .next t else .next s
        | (_, _) => .next (s.deliver port 0x03 m (fun s =>
          match s.tuRead f ua m.len false with
          | (s, .done bs) =>
            let (s, enc) := s.sealBlocks f ua bs
            s.respond m 0x81 Code.ok enc
          | (s, .code c) => s.respond m 0x81 c []
          | (s, .wait) => s))
    | none => .next (s.deliver port 0x03 m (fun s => s.respond m 0x81 Code.keyMismatch []))

/-! ### Posted messages (R559) -/

/-- EVT (R559): a RAISE of a shared counter of an enabled field. -/
def execEvt (port : Nat) (m : LinkMsg) (s : State) : Host.Outcome State Fault Refusal :=
  .next (s.deliver port 0x04 m (fun s =>
    let i := m.arg % 65536
    if m.own ∨ (s.fieldRec m.field).isNone ∨ 512 ≤ i then s.drop port 1
    else (s.raiseShared m.field i (BitVec.ofNat 32 (m.arg / 65536))).wake))

/-- A digest of a peer is buffered (R198): not for a step earlier than the last one compared, not twice, and at most
the next two steps' ahead. -/
def State.bufferDigest (s : State) (n peer : Nat) (step : W32) (d : List Byte) : State :=
  let stat := s.reg (Reg.meDstat n)
  let last : W32 := BitVec.ofNat 32 (bits stat 63 32)
  let compared := bits stat 31 28 != 0
  let mine := s.dig.peers.filter (fun p => p.1 == n && p.2.1 == peer)
  let ahead := mine.filter (fun p => !compared || p.2.2.1 != last)
  if (compared && !atOrAfter step last) || mine.any (fun p => p.2.2.1 == step) ||
      (decide (2 ≤ ahead.length) && !(compared && step == last)) then s
  else { s with dig := { s.dig with peers := s.dig.peers ++ ([(n, peer, step, d)] : List (Nat × Nat × W32 × List Byte)) } }

/-- DIG (R198, R559): a replica's digest for a group of the field. -/
def execDig (port : Nat) (m : LinkMsg) (s : State) : Host.Outcome State Fault Refusal :=
  .next (s.deliver port 0x05 m (fun s =>
    let n := m.arg % 256
    let g := s.reg (Reg.meDgrp n)
    if m.own ∨ 8 ≤ n ∨ !bit g 63 ∨ bits g 50 48 ≠ m.field then s.drop port 1
    else if (s.dgrpIds n).contains m.src then s.bufferDigest n m.src (BitVec.ofNat 32 (m.arg / 65536)) m.payload
    else s))

/-- WAKE (R559): LINK is raised. -/
def execWake (port : Nat) (m : LinkMsg) (s : State) : Host.Outcome State Fault Refusal :=
  .next (s.deliver port 0x06 m (fun s => s.raiseHail 12 none))

/-! ### Responses and timeouts (R561 to R563) -/

/-- A piece of a host access through a neighbour window is answered; with the last one the host is (R647). -/
def State.gatherPiece (s : State) (g i status : Nat) (data : List Byte) : State :=
  match Map.find s.lx.gathers g with
  | none => s
  | some h =>
    let h := { h with
      left := h.left - 1
      data := Map.put h.data i data
      status := if h.status = Code.ok then status else h.status }
    if 0 < h.left then { s with lx := { s.lx with gathers := Map.put s.lx.gathers g h } }
    else
      let s := { s with lx := { s.lx with gathers := Map.del s.lx.gathers g } }
      let typ := if h.read then Msg.memRead else Msg.memWrite
      s.reply h.role typ h.rid h.status (if h.read ∧ h.status = Code.ok then (h.data.map Prod.snd).flatten else [])

/-- A request's tag is free again (R562), and a request of TU's that waits for one may be sent once its answer has been
taken by `f`. -/
def State.endRequest (s : State) (tag : Nat) (f : State → State) : State :=
  let s := f { s with lx := { s.lx with tags := s.lx.tags.filter (fun h => h.tag != tag) } }
  s.pumpFar (s.tu.far.length + 1)

/-- A response ends its tag; one that finds its tag ended is discarded and counted. -/
def State.answer (s : State) (p : Nat) (m : LinkMsg) (f : State → TagUse → State) : State :=
  match s.lx.tags.find? (fun g => g.tag == m.tag) with
  | none => s.drop p 1
  | some g => s.endRequest m.tag (fun s => f s g.use)

/-- A request ends at its source with a code and no answer (R563, R614). -/
def State.requestFailed (s : State) (u : TagUse) (code : Nat) : State :=
  match u with
  | .host h i => s.gatherPiece h i code []
  | .dma ch => s.dmFail ch code
  | .dmaRead ch _ _ _ => s.dmFail ch code
  | .push c _ _ _ => s.endJob c code
  | .refetch _ _ => s.tierFailed u
  | .tierRead _ _ => s.tierFailed u
  | .tierWrite _ _ _ => s.tierFailed u

/-- RDATA (R562): the answer to a read reaches its source. -/
def execRdata (port : Nat) (m : LinkMsg) (s : State) : Host.Outcome State Fault Refusal :=
  .next (s.deliver port 0x81 m (fun s => s.answer port m (fun s use =>
    let status := m.arg % 256
    match use with
    | .host g i => s.gatherPiece g i status m.payload
    | .dmaRead ch off skip len =>
      if status ≠ Code.ok then s.dmFail ch status
      else s.updDmRun ch (fun r => if off < r.srcs.sum then { r with parts := Map.put r.parts off (slice m.payload skip len) } else r)
    | .refetch f ua => if status = Code.ok then s.refetched f ua m.payload else s.tierFailed use
    | .tierRead f ua => if status = Code.ok then s.farCame f ua m.payload else s.tierFailed use
    | _ => s)))

/-- WACK (R561): the answer to a write reaches its source. A push that was refused ends its job with the code. -/
def execWack (port : Nat) (m : LinkMsg) (s : State) : Host.Outcome State Fault Refusal :=
  .next (s.deliver port 0x82 m (fun s => s.answer port m (fun s use =>
    let status := m.arg % 256
    match use with
    | .host g i => s.gatherPiece g i status []
    | .dma ch => if status = Code.ok then s else s.dmFail ch status
    | .push c _ _ _ => if status = Code.ok then s.wake else s.endJob c status
    | .tierWrite _ _ _ => if status = Code.ok then s else s.tierFailed use
    | _ => s)))

/-- LINK_TIMEOUT (R563): a request has gone unanswered for TIMEOUT µs of the port it left by. -/
def execLinkTimeout (tag : Nat) (s : State) : Host.Outcome State Fault Refusal :=
  match s.lx.tags.find? (fun g => g.tag == tag) with
  | none => .next s
  | some g =>
    if !s.lxUp g.port ∨ (s.port g.port).ctl.toNat % 65536 = 0 then .next s
    else
      .next (s.endRequest tag (fun s =>
        let s := (s.bump (Reg.lxCnt1 g.port) 15 0 48 1 none).postOwner Code.linkTimeout (33 + g.port) []
        s.requestFailed g.use Code.linkTimeout))

/-! ### A port's way up and down (R548, R550, R566) -/

/-- PORT_DOWN (R550): the signal or the codeword lock is lost, and the port goes down. -/
def execPortDown (port : Nat) (s : State) : Host.Outcome State Fault Refusal :=
  if s.lxOpen port then .next (s.goDown port false) else .next s

/-- PRBS_DETECT (R548, R566, R570): the partner's PRBS13 takes a port from DOWN, SLEEPING or WAKING into TRAINING, and
LX.CTL and LX.EQ take effect. -/
def execPrbsDetect (port : Nat) (s : State) : Host.Outcome State Fault Refusal :=
  let t := s.port port
  if s.lxUp port ∧ s.image.isSome ∧ s.hasRing port ∧ (t.state = 1 ∨ t.state = 5 ∨ t.state = 2) then
    .next (s.updPort port (fun t => { t.cleared with
      state := 3
      ctl := BitVec.ofNat 32 (s.reg (Reg.lxCtl port))
      eq := BitVec.ofNat 32 (s.reg (Reg.lxEq port)) }))
  else .next s

/-- TRAINING_DONE (R548, R549): training ends, and HELLO goes out in sequenced frame 0; or it fails, and the port returns
to DOWN. -/
def execTrainingDone (port : Nat) (ok : Bool) (s : State) : Host.Outcome State Fault Refusal :=
  if !s.lxUp port ∨ (s.port port).state ≠ 3 ∨ s.lxOpen port then .next s
  else if ok then .next (s.updPort port (fun t => { t with ctrl := [s.helloUnit port] }))
  else .next (s.portTo port 1)

/-- LINK_WAKING (R566): a message held for a port in DOWN or SLEEPING makes it wake its partner. -/
def execLinkWaking (port : Nat) (s : State) : Host.Outcome State Fault Refusal :=
  let t := s.port port
  if s.lxUp port ∧ (t.state = 1 ∨ t.state = 5) ∧ !t.held.isEmpty then
    .next (s.updPort port (fun t => { t with state := 2, back := if t.back = 0 then t.state else t.back }))
  else .next s

/-- WAKE_LIMIT_EXPIRY (R566): a port that is not UP within WAKEMS ms of entering WAKING discards what it held and returns
to its earlier state. -/
def execWakeLimitExpiry (port : Nat) (s : State) : Host.Outcome State Fault Refusal :=
  let t := s.port port
  if s.lxUp port ∧ t.back ≠ 0 then
    let s := (s.portTo port t.back).dropAll port t.held true
    .next (s.updPort port (fun t => { t with held := [], back := 0 }))
  else .next s

/-! ### Register writes (R570) -/

/-- A write of LX.CTL: EN acts at once; the rest at the next entry into TRAINING. Without an image the port stays
OFF (R567). -/
def State.writeLxCtl (s : State) (p : Nat) (v : W32) : State :=
  let s := s.putWord (Reg.lxCtl p) false v
  if !bit v.toNat 31 then s.portOff p
  else if ((s.port p).state = 0 ∨ (s.port p).state = 6) ∧ s.image.isSome ∧ !s.safe then
    (s.portTo p 1).updPort p (fun t => { t with held := [], back := 0 })
  else s

/-- A write of LX.ID, discarded while any port is in TRAINING, UP or SLEEPING. -/
def State.writeLxId (s : State) (hi : Bool) (v : W32) : State :=
  if s.lx.ports.any (fun t => t.state == 3 || t.state == 4 || t.state == 5) then s else s.putWord (Reg.lxId 0) hi v

end Sys2Proof.Machine
end

