-- ==== Sys2Proof/Machine/Power.lean ====
section
/-!
DEFINITION. The power ladder (chapter 16) and the clocks' detectors (chapter 21): descents and what a dropped store leaves,
climbs, wake sources, derate, cold boots, and the loss and return of clocks.
-/
namespace Sys2Proof.Machine

/-! ### Rungs and quiet (R514, R515) -/

/-- The next rung down. -/
def Rung.below : Rung → Option Rung
  | .run => some .idle
  | .idle => some .doze
  | .doze => some .nap
  | .nap => some .listen
  | .listen => some .moor
  | .moor => some .fallow
  | .fallow => none

/-- The next rung up. -/
def Rung.above : Rung → Option Rung
  | .run => none
  | .idle => some .run
  | .doze => some .idle
  | .nap => some .doze
  | .listen => some .nap
  | .moor => some .listen
  | .fallow => some .moor

/-- Every running job is a gate job that EE goes on with (R510). -/
def State.onlyGateJobs (s : State) : Bool :=
  s.dx.ctxs.all (fun p => match p.2.running with
    | none => true
    | some j => j.job.gate.isSome && s.visionGate)

/-- No core block has work in progress (R515, R639, R660). -/
def State.coreQuiet (s : State) : Bool :=
  s.dx.ctxs.all (fun p => p.2.running.isNone) && s.dm.all (fun c => c.2.run.isNone) &&
  s.tu.pages.all (fun p => !p.2.busy) && (match s.tu.sow with | none => true | some w => w.flight.isEmpty) &&
  s.tu.op.isNone && s.km.recs.all (fun r => r.2.flush != 1) && s.km.copier.isEmpty &&
  s.se.swapQ.isEmpty && s.lx.tags.isEmpty && s.hp.outq.isEmpty && s.ip.ports.all (fun p => p.frame.isNone) && s.mcStage.isNone

/-- The device is quiet for a descent (R515): no block that runs on this rung and stops on the next has work in
progress. -/
def State.quietFor (s : State) : Bool :=
  match s.pw.rung with
  | .run => s.onlyGateJobs
  | .idle => s.onlyGateJobs
  | .doze => s.coreQuiet
  | _ => true

/-- The idle time of the step down from a rung (R134), in µs. -/
def State.idleTime (s : State) : Nat :=
  match s.pw.island with
  | none => 0
  | some (p, _, _) => (p.idle[6 - s.pw.rung.height]?).getD 0

/-- A saturating count of PW.CNT rises by one. -/
def State.bumpPw (s : State) (hi lo cap : Nat) : State :=
  match s.bumpQuiet Reg.pwCnt hi lo cap 1 with
  | (s, false) => s
  | (s, true) => s.postPw Code.counterCapped 0xFF (natLE 1 41 ++ natLE 8 0x20 ++ natLE 1 lo)

/-! ### What a dropped store leaves (R520, R521) -/

/-- The RETAIN record of a rung below Doze (R140). -/
def State.retain (s : State) (r : Rung) : Option Retain :=
  match s.image with
  | none => none
  | some im => match r with
    | .nap => im.retain[0]?
    | .listen => im.retain[1]?
    | .moor => im.retain[2]?
    | _ => none

/-- Commons bank `b` holds a tape, or a blob of kind 1 or 2 (R520). -/
def Image.pinsBank (im : Image) (b : Nat) : Bool :=
  let touches (a n : Nat) : Bool := decide (a < 0x200000 * (b + 1)) && decide (0x200000 * b < a + n)
  im.tapes.any (fun t => touches t.base (8 * t.words)) ||
    im.blobs.any (fun c => (c.kind == 1 || c.kind == 2) && touches c.dest c.len)

/-- The banks that the rung does not retain. -/
def State.lostBanks (s : State) (r : Rung) : List Nat :=
  match s.image, s.retain r with
  | some im, some k => (List.range 128).filter (fun b => !bit k.banks b && !im.pinsBank b)
  | _, _ => []

/-- One of the banks holds a byte of the stretch. -/
def inBanks (banks : List Nat) (a n : Nat) : Bool :=
  banks.any (fun b => decide (a < 0x200000 * (b + 1)) && decide (0x200000 * b < a + n))

/-- A field has lost state (R521). -/
def State.lostState (s : State) (f : Nat) : State :=
  if s.pw.lostFields.contains f then s else { s with pw := { s.pw with lostFields := s.pw.lostFields ++ [f] } }

/-- The field of context `c` has lost state (R521). -/
def State.lostOf (s : State) (c : Nat) : State :=
  match s.ctxField c with
  | none => s
  | some f => s.lostState f

/-- Bit `k` of PW.LAST.LOSS is to be set at the next return to Run. -/
def State.setLoss (s : State) (k : Nat) : State := { s with pw := { s.pw with loss := s.pw.loss ||| 2 ^ k } }

/-- A tier-cache page whose bank is lost takes its shadow home, or, with no other copy, is poisoned as a whole. -/
def State.losePage (s : State) (k : Nat) (p : Page) : State :=
  let f := k / 2 ^ 24
  let page := k % 2 ^ 24
  if p.shadow then s.setPage f page { p with home := p.shome, loc := p.sloc, shome := 0, sloc := 0, shadow := false }
  else
    (s.lostState f).enterPoison ⟨f, 65536 * page, false, true, [], []⟩ 1024

/-- A context whose staging half lay in a lost bank is cut back to its linked blocks, its halves zero. -/
def State.cutStaging (s : State) (c : Nat) (r : KvRec) : State :=
  let s := (s.lostOf c).updKv c (fun r => { r with tc := 64 * r.linked, flush := 0, both := false })
  let s := { s with km := { s.km with starved := s.km.starved.filter (fun d => d != c) } }
  s.zero r.stage (2 * s.frameBytes)

/-- Commons banks lose their contents (R521). -/
def State.dropBanks (s : State) (banks : List Nat) : State :=
  if banks.isEmpty then s
  else
    let pages := s.tu.pages.filter (fun q => q.2.home == 1 && inBanks banks (s.pageAddr 1 q.2.loc) 65536)
    let recs := s.km.recs.filter (fun q => q.2.stage != 0 && inBanks banks q.2.stage (2 * s.frameBytes))
    let streams := s.se.streams.filter (fun q => q.2.state == 1 &&
      (s.streamSlots q.2).any (fun k => inBanks banks (s.slotBank k 0) 12288))
    let furrow := inBanks banks s.part.furrow.base s.part.furrow.size
    let s := banks.foldl (fun s b => s.zero (0x200000 * b) 0x200000) s
    let s := pages.foldl (fun s q => s.losePage q.1 q.2) s
    let s := recs.foldl (fun s q => s.cutStaging q.1 q.2) s
    let s := streams.foldl (fun s q => (s.lostOf q.1).loseStream q.1) s
    let s := match s.tu.sow with
      | none => s
      | some w => if furrow then s.lostOf w.ctx else s
    let s := if furrow then s.rewind else s
    { s.setLoss 0 with pw := { (s.setLoss 0).pw with
      zeroing := s.pw.zeroing ++ banks.filter (fun b => !s.pw.zeroing.contains b) } }

/-- Every object of every field is unmapped, without write-back (R521). -/
def State.dropObjects (s : State) : State :=
  let s := (s.tu.objs.map (fun o => o.2.field)).foldl State.lostState s
  s.emptyTier

/-- Every stream that is not resident loses its saved state (R307, R521). -/
def State.loseSaved (s : State) : State :=
  (s.se.streams.filter (fun q => q.2.state != 1)).foldl (fun s q => (s.lostOf q.1).loseStream q.1) s

/-- GDDR6 loses its contents (R521): every object, every KV record, and every stream that is not resident. -/
def State.dropDram (s : State) : State :=
  if s.dramBytes = 0 then s
  else
    let s := s.dropObjects
    let s := s.km.recs.foldl (fun s q => (s.lostOf q.1).freeKv q.1) s
    s.loseSaved.setLoss 1

/-- GDDR6 refresh has lapsed (R681): every byte that was written there takes a value that no rule states (log 80). -/
def State.lapseDram (s : State) : State :=
  let held := s.mem.filter (fun c => decide (0x100000000 ≤ c.1) && decide (c.1 < 0x100000000 + s.dramBytes))
  held.foldl (fun u c => u.write c.1 [Config.freeByte s.free c.1]) { s with free := s.free + 1 }

/-- DRAM_EN falls (R524): the channels' bytes are gone, and they are to be trained again (R661). -/
def State.lowerDramEn (s : State) : State :=
  let s := ((s.zero 0x100000000 s.dramBytes).setReg Reg.mcTstat 0).dropDram
  { s with pw := { s.pw with dramEn := false }, mcStage := none }

/-- The context table loses its contents (R521): every context is CLOSED, its records zero. -/
def State.dropContexts (s : State) : State :=
  let s := s.km.recs.foldl (fun s q => s.freeKv q.1) s
  let s := s.dx.ctxs.foldl (fun s q => s.lostState q.2.field) s
  { s with
    dx := { DxState.reset with phase := s.dx.phase, guard := s.dx.guard, stamp := s.dx.stamp }
    km := { s.km with recs := [], starved := [], edits := [], walks := [], copier := [] }
    se := { s.se with streams := [], slots := [], swapQ := [], displaced := [] }
    tu := { s.tu with sow := none } }

/-- KM's system object is unmapped in every field (R278). -/
def State.dropSystem (s : State) : State :=
  (List.range 8).foldl (fun s f =>
    if s.tu.pages.any (fun p => p.1 / 2 ^ 24 == f && p.2.obj == 4095) then s.dropPages f 0xEF00000000 0x1100000000 else s) s

/-- KM stands as after image load (R278), every role's KM.SEL among its registers. -/
def State.resetKm (s : State) : State := ({ s.dropSystem with km := KmState.reset }).resetRegs 38

/-- Stores that KEEP drops (R140, R521). -/
def State.dropKept (s : State) (keep : Nat) : State :=
  let s := if bit keep 0 then s else s.lowerDramEn
  let s := if bit keep 1 then s else s.dropContexts.setLoss 2
  let s := if bit keep 2 then s else ((s.km.recs.foldl (fun s q => s.lostOf q.1) s).resetKm).setLoss 3
  if bit keep 3 then s else s.dropObjects.setLoss 4

/-- Entry into a rung below Doze drops what the rung does not retain (R521). -/
def State.dropStores (s : State) (r : Rung) : State :=
  match s.retain r with
  | none => s
  | some k => (s.dropBanks (s.lostBanks r)).dropKept k.keep

/-- R517: what Nap's set drops is to be saved, where Nap retains GDDR6: evictions of pages whose only copy lies in a
dropped tier-cache bank, and swap-outs of streams with a slot in a dropped bank. -/
def State.napSave (s : State) : State :=
  match s.retain .nap with
  | none => s
  | some k =>
    if !bit k.keep 0 then s
    else
      let banks := s.lostBanks .nap
      let pages := s.tu.pages.filter (fun q => q.2.home == 1 && !q.2.shadow && q.2.pins == 0 &&
        inBanks banks (s.pageAddr 1 q.2.loc) 65536)
      let streams := s.se.streams.filter (fun q => q.2.state == 1 &&
        (s.streamSlots q.2).any (fun i => inBanks banks (s.slotBank i 0) 12288))
      let s := pages.foldl (fun s q => s.requestMove (q.1 / 2 ^ 24) (q.1 % 2 ^ 24) (if q.2.hint = 3 then 3 else 2)) s
      streams.foldl (fun s q => s.requestOut q.1) s

/-- The save work of an entry into Nap is done. -/
def State.saved (s : State) : Bool :=
  s.se.swapQ.isEmpty && s.tu.pages.all (fun p => !p.2.busy) && s.tu.pending.isEmpty

/-! ### Descending (R514 to R519) -/

/-- IDLE_TIMER_EXPIRY (R514, R516, R517): the idle timer of the step down expires and the entry starts. Without an image
every idle time counts as 0 (R656); one of 0xFFFF_FFFF never expires. Fallow is not entered without LCLK (R682). -/
def execIdleTimerExpiry (s : State) : Host.Outcome State Fault Refusal :=
  match s.pw.rung.below with
  | none => .next s
  | some r =>
    if !s.pwUp ∨ s.ck.stopped ∨ s.ck.gaveUp ∨ s.pw.entry.isSome ∨ s.pw.rung.height ≤ s.standing.height ∨ !s.quietFor ∨
        (s.image.isSome ∧ s.idleTime = 0xFFFFFFFF) ∨ (r = .fallow ∧ s.getF Reg.ckStatus 28 28 = 0) then .next s
    else
      let s := { s with pw := { s.pw with entry := some r } }
      .next (if r = .nap then s.napSave else s)

/-- What is lost in Fallow (R511, R521, R526): everything but the island set, PW's state, the fuses, the clocks that CK
finds present, and the lines PW and CK hold for FC. -/
def State.intoFallow (s : State) : State :=
  { State.reset with
    pending := s.pending
    regs := s.regs.filter (fun p => decide (regAddr 12 0 ≤ p.1 ∧ p.1 < regAddr 13 0) ||
      decide (regAddr 41 0 ≤ p.1 ∧ p.1 < regAddr 42 0) || p.1 == Reg.ckStatus)
    sx := { SxState.reset with owners := s.sx.owners, tallyUsed := s.sx.tallyUsed, tallyBurnt := s.sx.tallyBurnt }
    fc := { FcState.reset with pulses := s.fc.pulses.filter (fun p => p.bit == 41 || p.bit == 42) }
    pw := { s.pw with rung := .fallow, entry := none, window := false, dramEn := false, zeroing := List.range 128,
                      deepest := .fallow, loss := 0x3F, lostFields := [], hostClaim := none }
    af := { s.stopAf.af with bufs := [] }
    ck := s.ck
    free := s.free }

/-- The device stands on the rung it has entered (R510, R516, R521). -/
def State.enter (s : State) (r : Rung) : State :=
  let s := (s.bumpPw 15 0 50)
  let s := { s with pw := { s.pw with
    entry := none, window := false, rung := r
    deepest := if r.height < s.pw.deepest.height then r else s.pw.deepest } }
  match r with
  | .nap => ((((List.range 4).foldl State.portBye s).dropStores .nap)).settle
  | .listen => (s.dropStores .listen).settle
  | .moor => (s.dropStores .moor).settle
  | .fallow => s.intoFallow
  | _ => s.settle

/-- ENTRY_WINDOW (R516, R519): the entry's work is done and its window opens; offered again, the window ends and the
device stands on the lower rung. The sample before the window takes a set edge latch (R529). No window opens while the
standing rung is no longer below the one being left: the entry is abandoned (R518). -/
def execEntryWindow (s : State) : Host.Outcome State Fault Refusal :=
  match s.pw.entry with
  | none => .next s
  | some r =>
    if !s.pwUp ∨ s.ck.stopped ∨ s.ck.gaveUp then .next s
    else if s.pw.window then .next (s.enter r)
    else if s.pw.latch then .next s.sampleLatch
    else if s.pw.rung.height ≤ s.standing.height ∨ r = .nap ∧ !s.saved then .next s
    else .next { s with pw := { s.pw with window := true } }

/-- ENTRY_ABANDON (R518): before the window, a standing rung no longer below the rung being left abandons the entry. -/
def execEntryAbandon (s : State) : Host.Outcome State Fault Refusal :=
  if s.pwUp ∧ s.pw.entry.isSome ∧ !s.pw.window ∧ s.pw.rung.height ≤ s.standing.height then
    .next (({ s with pw := { s.pw with entry := none } }).bumpPw 31 16 49)
  else .next s

/-! ### Climbing (R521, R524 to R526) -/

/-- SERVICE_EVENT to a field (R441): its usable engines. -/
def State.serviceEvent (s : State) (f : Nat) : State :=
  match s.fieldRec f with
  | none => s
  | some r => s.post Code.serviceEvent 39 f
      (natLE 2 (r.engines &&& (0x7FF ^^^ (s.getF Reg.fcFence 10 0))))

/-- The owner events that PW held are posted (R654). -/
def State.postHeld (s : State) : State :=
  s.pw.held.foldl (fun s e => s.postOwner e.code 41 e.items) { s with pw := { s.pw with held := [] } }

/-- The F-clock starts again: the round restarts at phase 0 (R431). -/
def State.restartRound (s : State) : State := { s with dx := { s.dx with phase := 0, guard := false } }

/-- DRAM_EN rises on a rung that retains GDDR6, and MC's start-up begins (R524, R661). -/
def State.raiseDramEn (s : State) : State :=
  if s.image.isSome ∧ s.dramCode % 4 ≠ 0 ∧ !s.pw.dramEn then
    { s with pw := { s.pw with dramEn := true }, mcStage := some (1, true) }.setReg Reg.mcTstat 0
  else s

/-- The device stands on Run again (R521, R538): PW.LAST takes the record, and a descent that lost a store is posted. -/
def State.returnToRun (s : State) : State :=
  let d := s.pw.deepest.code
  let l := s.pw.loss
  let fs := s.pw.lostFields
  let s := (s.setF Reg.pwLast 63 61 d).setF Reg.pwLast 53 48 l
  let s := { s with pw := { s.pw with deepest := .run, loss := 0, lostFields := [] } }
  if l = 0 then s else fs.foldl State.serviceEvent (s.postOwner Code.rungReturn 41 (natLE 1 d ++ natLE 1 l))

/-- The device stands one rung higher. -/
def State.climbTo (s : State) (r : Rung) : State :=
  let s := { s with pw := { s.pw with rung := r } }
  match r with
  | .moor => s.startAf.settle
  | .listen | .nap => (if (s.retain r).any (fun k => bit k.keep 0) then s.raiseDramEn else s).settle
  | .doze => s.restartRound.raiseDramEn.postHeld.settle
  | .run => s.returnToRun.settle
  | _ => s.settle

/-- CLIMB_STEP (R525): a step of a climb completes. A step that needs the root PLL waits for lock (R681); the step from
Nap after an exit from Fallow is the cold boot of R526. What a claim waits for on this rung follows (R34, R654). -/
def execClimbStep (s : State) : Host.Outcome State Fault Refusal :=
  match s.pw.rung.above with
  | none => .next s
  | some r =>
    let root := r = .nap ∨ r = .doze ∨ r = .idle ∨ r = .run
    if !s.pwUp ∨ s.pw.entry.isSome ∨ s.standing.height ≤ s.pw.rung.height ∨ s.ck.gaveUp ∨ (root ∧ s.ck.stopped) ∨
        (r = .doze ∧ s.image.isNone) then .next s
    else .next (s.climbTo r).standClaims

/-- BANK_ZEROED (R522): a bank that was not retained has been zeroed. -/
def execBankZeroed (bank : Nat) (s : State) : Host.Outcome State Fault Refusal :=
  if s.coreUp ∧ s.pw.zeroing.contains bank then
    .next { s with pw := { s.pw with zeroing := s.pw.zeroing.filter (fun b => b != bank) } }
  else .next s

/-- A cold boot by power-on or RESET_N (R655, R656, R574): every store but the fuses is lost. -/
def State.boot (s : State) : State :=
  let s := { State.reset with
    pending := s.pending
    sx := { SxState.reset with owners := s.sx.owners, tallyUsed := s.sx.tallyUsed, tallyBurnt := s.sx.tallyBurnt }
    free := s.free }
  s.postOwner Code.booted 40 (natLE 1 0x10 ++ natLE 1 0)

/-- COLD_BOOT (R655, R656, R526): power-on, or RESET_N rising; or, with `fallow`, the end of the climb out of Fallow, on
Doze without an image under the island set. -/
def execColdBoot (fallow : Bool) (s : State) : Host.Outcome State Fault Refusal :=
  if !fallow then .next s.boot
  else if !s.pwUp ∨ s.pw.rung ≠ .nap ∨ s.image.isSome ∨ s.ck.stopped ∨ s.ck.gaveUp then .next s
  else
    let s := ({ s with pw := { s.pw with rung := .doze } }).setReg Reg.pwCnt 0
    .next ((s.postOwner Code.booted 40 (natLE 1 0x10 ++ natLE 1 1)).postHeld.settle.standClaims)

/-- RESET_N_LOW (R655): RESET_N is driven low for long enough: every store but the fuses is lost, until it rises. -/
def execResetNLow (s : State) : Host.Outcome State Fault Refusal :=
  .next { s.boot with resetLow := true, hp := HpState.reset }

/-! ### Wake sources (R527 to R530) -/

/-- WAKE_TIMER (R527): the island wake timer expires and raises TIMER. -/
def execWakeTimer (s : State) : Host.Outcome State Fault Refusal :=
  match s.pw.island with
  | none => .next s
  | some (p, _, _) =>
    if s.pwUp ∧ s.pw.wakeTimer ∧ p.wakeTimer ≠ 0 ∧ s.getF Reg.ckStatus 29 29 = 1 then .next (s.raiseHail 13 none) else .next s

/-- WAKE_N_LOW (R529): a sample finds WAKE_N low; in a window nothing samples. -/
def execWakeNLow (s : State) : Host.Outcome State Fault Refusal :=
  if !s.pwUp ∨ s.pw.window then .next s else .next (({ s with pw := { s.pw with latch := false } }).raiseHost)

/-- WAKE_N_EDGE (R519, R529): a falling edge sets the latch; one within a window is lost and counted. -/
def execWakeNEdge (s : State) : Host.Outcome State Fault Refusal :=
  if !s.pwUp then .next s
  else if s.pw.window then .next (s.bumpPw 47 32 48)
  else .next { s with pw := { s.pw with latch := true } }

/-- WAKE_PATTERN (R519, R530): the wake detector of a stopped port, enabled and armed, detects the pattern and raises LINK; in
a window, the one of an entry into Nap among them, it is lost and counted. -/
def execWakePattern (port : Nat) (s : State) : Host.Outcome State Fault Refusal :=
  let stopped : Bool := decide (s.pw.rung.height < Rung.height .doze) || (s.pw.window && s.pw.entry == some .nap)
  if !s.pwUp ∨ 4 ≤ port ∨ s.getF Reg.pwLinkwake port port = 0 ∨ stopped = false then .next s
  else if s.pw.window then .next (s.bumpPw 47 32 48)
  else .next (s.raiseHail 12 none)

/-! ### Derate and telemetry (R532 to R534, R599) -/

/-- The sustained limit in force in milliwatts (R32, R513): none while nothing claims Run. -/
def State.powerCap (s : State) : Option Nat :=
  match s.pw.island with
  | none => none
  | some (p, _, _) =>
    let caps := s.runEntries.map HailEntry.cap
    let caps := if s.pw.hostClaim = some .run then p.hostCap :: caps else caps
    if caps.isEmpty then (if s.image.isSome && s.jobDemand then some (250 * p.hostCap) else none)
    else some (250 * caps.foldl max 0)

/-- R533: level, budget and quiet count after a sample of `p` mW at `tj` °C. -/
def derateNext (l b q : Nat) (cap : Option Nat) (p : Nat) (tj : Int) : Nat × Nat × Nat :=
  let above : Bool := match cap with | none => false | some c => decide (c < p)
  let (l1, b1, q1) :=
    if 46000 < p then (min 15 (l + 4), b, q)
    else if above then
      if 120 ≤ b + 1 then (min 15 (l + 1), b + 1, q) else (l, b + 1, q)
    else
      let b1 := b - 1
      let low : Bool := match cap with | none => true | some c => decide (p + 500 < c)
      let q1 := if b1 = 0 ∧ low = true ∧ tj ≤ 100 then q + 1 else q
      if q1 = 12 ∧ 0 < l then (l - 1, b1, 0) else (l, b1, q1)
  let l2 := if 105 < tj then min 15 (l1 + 1) else l1
  (l2, b1, if above = true ∨ 100 < tj then 0 else q1)

/-- POWER_SAMPLE (R533, R534): one sample of power and temperature moves the derate level. -/
def execPowerSample (milliwatts : Nat) (tj : Int) (s : State) : Host.Outcome State Fault Refusal :=
  if !s.pwUp ∨ !s.islandUp then .next s
  else
    let (l, b, q) := derateNext s.pw.level s.pw.budget s.pw.quiet s.powerCap milliwatts tj
    let rose := s.pw.level = 0 ∧ 0 < l
    let hot := decide (105 < tj)
    let passed := hot && !s.pw.hot
    let s := { s with pw := { s.pw with level := l, budget := b, quiet := q, hot := hot } }
    let s := if rose then s.postPw Code.powerLimit 0xFF [] else s
    .next (if passed then s.postPw Code.thermal 0xFF [] else s)

/-- TELEM_UPDATE (R599, R602): SX.TELEM takes the averages, power in 0.25 W and temperature in 5 °C steps. -/
def execTelemUpdate (milliwatts : Nat) (tj : Int) (s : State) : Host.Outcome State Fault Refusal :=
  if !s.coreUp then .next s
  else .next ((s.setF Reg.sxTelem 8 0 (min 511 (milliwatts / 250))).setF Reg.sxTelem 23 16 (min 255 (tj.toNat / 5)))

/-! ### Rails and clocks (R535, R680 to R682) -/

/-- RAIL_DROOP (R535): PW detects a condition of PW.ERR bit `check`. -/
def execRailDroop (check : Nat) (s : State) : Host.Outcome State Fault Refusal :=
  if s.pwUp ∧ check < 5 then .next (s.detect Reg.pwErr check 41 none) else .next s

/-- The clock that CK.ERR bit `check` watches is meant to run (R680): root PLL from Nap up, REFCLK from Listen up,
ICLK and LCLK on every rung but Fallow. -/
def State.clockWatched (s : State) (check : Nat) : Bool :=
  let h := s.pw.rung.height
  if check = 0 then decide (Rung.height .nap ≤ h)
  else if check = 1 then decide (Rung.height .listen ≤ h)
  else decide (Rung.height .moor ≤ h)

/-- The stop of R681: domains 0 to 31 stop, open camera frames are cut, and ports go down. -/
def State.stopClocks (s : State) : State :=
  let s := (List.range 4).foldl (fun s p => s.cutFrame p 4) s
  let s := (List.range 4).foldl (fun s p => if 3 ≤ (s.port p).state then s.goDown p false else s) s
  { s with ck := { s.ck with stopped := true } }

/-- A loss of clock `check`, detected or faked (R680 to R682, R689). -/
def State.loseClock (s : State) (check : Nat) : State :=
  let s := s.setF Reg.ckErr check check 1
  if check ≤ 1 then (s.setF Reg.ckStatus (31 - check) (31 - check) 0).stopClocks
  else if check = 2 then ((s.setF Reg.ckStatus 29 29 0).stopAf).pulse 42 none
  else (s.setF Reg.ckStatus 28 28 0).pulse 42 none

/-- CLOCK_LOSS (R680 to R682). -/
def execClockLoss (check : Nat) (s : State) : Host.Outcome State Fault Refusal :=
  if s.resetLow ∨ s.ck.gaveUp ∨ 4 ≤ check ∨ !s.clockWatched check ∨
      s.getF Reg.ckStatus (31 - check) (31 - check) = 0 ∨ (check ≤ 1 ∧ s.ck.stopped) then .next s
  else .next (s.loseClock check)

/-- RELOCK_ATTEMPT (R681): CK retries lock: on lock the domains restart, RELOCKS rises and a pulse is sent; a stop of
more than 12 µs has lost GDDR6. -/
def execRelockAttempt (ok long : Bool) (s : State) : Host.Outcome State Fault Refusal :=
  if !s.ck.stopped ∨ s.ck.gaveUp ∨ s.resetLow ∨ !ok then .next s
  else
    let s := ({ s with ck := { s.ck with stopped := false } }).setF Reg.ckStatus 31 30 3
    let s := (s.bump16 Reg.ckCnt 1 none).pulse 42 none
    let s := s.restartRound
    .next (if long ∧ s.dramBytes ≠ 0 then s.dropDram.lapseDram.setF Reg.pwLast 49 49 1 else s)

/-- RELOCK_GIVE_UP (R681): 1 ms has passed without lock: the device stays stopped until RESET_N. -/
def execRelockGiveUp (s : State) : Host.Outcome State Fault Refusal :=
  if s.ck.stopped then .next { s with ck := { s.ck with gaveUp := true } } else .next s

/-- CLOCK_PRESENT (R682): ICLK (2) or LCLK (3) is present again. -/
def execClockPresent (check : Nat) (s : State) : Host.Outcome State Fault Refusal :=
  if (check = 2 ∨ check = 3) ∧ !s.resetLow then .next (s.setF Reg.ckStatus (31 - check) (31 - check) 1) else .next s

end Sys2Proof.Machine
end

