-- ==== Sys2Proof/Machine/Image.lean ====
section
/-!
DEFINITION. Loading an image (R118 to R123, R656 to R661): how a load begins and ends, and what applying an image
does. The requests are served through Sextant.lean, which orders them with quotes and key releases.
-/
namespace Sys2Proof.Machine

/-! ### A device without an image (R119, R122, R656) -/

/-- Requests that wait in DX when it stops are answered with a code (R614, R644): closes, and aborts that wait at the commit
point or for their job's report. -/
def State.answerDx (s : State) (code : Nat) : State :=
  let s := s.dx.ctxs.foldl (fun s p =>
    let s := match p.2.closing with
      | some (some (r, rid)) => s.reply r Msg.ctxClose rid code []
      | _ => s
    (match p.2.running with | none => [] | some j => j.aborts).foldl (fun s (a : Role × Nat) => s.reply a.1 Msg.jobAbort a.2 code []) s) s
  s.dx.commitQ.foldl (fun s q => match q with
    | .abort _ _ r rid => s.reply r Msg.jobAbort rid code []
    | _ => s) s

/-- Requests that wait in TU are answered with a code. -/
def State.answerTu (s : State) (code : Nat) : State :=
  s.tu.op.toList.foldl (fun s u => s.reply u.1 Msg.tu u.2.1 code []) s

/-- The operation that waits for KM's copier is answered with a code. -/
def State.answerKm (s : State) (code : Nat) : State :=
  s.km.copier.foldl (fun s j => match j with
    | .host r rid _ _ => s.reply r Msg.kv rid code []
    | .flush _ _ _ => s) s

/-- The host's accesses through neighbour windows are answered with a code. -/
def State.answerLx (s : State) (code : Nat) : State :=
  s.lx.gathers.foldl (fun s g => s.reply g.2.role (if g.2.read then Msg.memRead else Msg.memWrite) g.2.rid code []) s

/-- Counts that clear at image load (R277, R313, R447, R478, R508). KM's clear with its registers. -/
def clearedAtLoad : List Nat :=
  [Reg.seSatcnt, Reg.afClip, Reg.loCnt, Reg.ipGatecnt] ++ (List.range 8).map Reg.seField ++
  (List.range 4).map Reg.ipPortCNT0 ++ (List.range 4).map Reg.ipPortCNT1 ++ (List.range 8).map Reg.dxFsub ++
  (List.range 8).map Reg.dxFdone ++ (List.range 8).map Reg.dxFend ++ (List.range 8).map Reg.dxFover ++
  (List.range 8).map Reg.sxEpoch

/-- DRAM_EN is low (R656): nothing that GDDR6 held is left. -/
def State.dramOff (s : State) : State :=
  { (s.zero 0x100000000 0x800000000).setReg Reg.mcTstat 0 with
    mcStage := none, pw := { s.pw with dramEn := false } }

/-- The blocks of the core lose what an image gave them (R119 stage 1, R278, R313, R656): contexts, claims, objects,
streams, models, runs and link partners are gone. Requests that waited are answered with NO_IMAGE. -/
def State.dropBlocks (s : State) : State :=
  let had := s.image.isSome
  let s := ((((s.answerDx Code.noImage).answerTu Code.noImage).answerKm Code.noImage).answerLx Code.noImage).dmStop Code.noImage
  let s := { s with lx := { s.lx with tags := [], gathers := [] } }
  let s := ((List.range 4).foldl State.portBye s).abandonSounding.resetKm
  let s := { s with
    image := none
    pw := { s.pw with
      claims := [], raised := [], hostClaim := none, island := if had then none else s.pw.island, wakeTimer := s.pw.wakeTimer && !had }
    fc := { s.fc with table := fcTableReset, held := none }
    dx := { DxState.reset with stamp := s.dx.stamp }
    se := SeState.reset
    tu := TuState.reset
    lo := LoState.reset
    ip := { s.ip with
      ports := s.ip.ports.map (fun (p : IpPort) => { p with running := false, frame := none, serial := 0, bands := none, verdicts := [] })
      fresh := false, run := 0 }
    dig := ⟨[], [], []⟩ }
  if had then { s with af := { s.stopAf.af with bufs := [] } } else { s with af := { s.af with streams := [], bufs := [] } }

/-- The device comes to hold no image, as R656 sets out. -/
def State.dropImage (s : State) : State := s.dropBlocks.dramOff.settle

/-! ### Beginning and ending a load (R118, R119, R657, R658) -/

/-- No step runs and no job is queued (R118). -/
def State.dispatcherIdle (s : State) : Bool := s.dx.ctxs.all (fun p => !p.2.busy)

/-- Every key but the session keys is erased (R595). The session keys go when the load ends, once its last reply is
sealed (log 47). -/
def State.eraseKeys (s : State) : State :=
  { s with sx := { s.sx with kems := [], modelKeys := [], memKeys := [], prefixKeys := [] } }

/-- IMG_BEGIN served (R118, R119, R618, R657). -/
def State.imgBegin (s : State) (r : Role) (rid len : Nat) : State :=
  let no (c : Nat) : State := s.reply r Msg.imgBegin rid c []
  if len < 128 ∨ 0x4000000 < len then no Code.imgFormat
  else if s.getF Reg.fcSafe 30 30 = 1 then no Code.safeLocked
  else if s.load.isSome ∨ !s.dispatcherIdle then no Code.imgBusy
  else
    let s := s.dropImage.eraseKeys
    let s := { s with regs := s.regs.filter (fun p => !clearedAtLoad.contains p.1) }
    { s.zero 0 0x10000000 with load := some ⟨r, rid, len, [], true⟩ }

/-- COMMONS_ZEROED (R119, R657): stage 2 ends and IMG_BEGIN is answered. -/
def execCommonsZeroed (s : State) : Host.Outcome State Fault Refusal :=
  match s.load with
  | none => .next s
  | some l =>
    if !s.coreUp ∨ !l.zeroing then .next s
    else .next ({ s with load := some { l with zeroing := false } }.reply l.role Msg.imgBegin l.rid 0 [])

/-- A load ends, with no image in force unless one was applied (R122); the session keys are erased (R595). -/
def State.endLoad (s : State) : State :=
  { s with load := none, sx := { s.sx with sessionKeys := [], inCtr := [], outCtr := [] } }

/-! ### Applying an image (R123, R659) -/

/-- A copy put in its place by image offset, first by first. -/
def insertCopy (c : Nat × Nat × List Byte) : List (Nat × Nat × List Byte) → List (Nat × Nat × List Byte)
  | [] => [c]
  | d :: l => if c.1 < d.1 then c :: d :: l else d :: insertCopy c l

/-- The copies of tapes and of blobs of kinds 1 and 2: image offset, destination, bytes, in ascending offset. -/
def imageCopies (img : List Byte) : List (Nat × Nat × List Byte) :=
  let tapeOff := fld (secEntry img (secIx img 7)) 8 8
  let blobOff := fld (secEntry img (secIx img 8)) 8 8
  let tapes := List.zipWith (fun (r : List Byte) (t : TapeDir) =>
    (tapeOff + fld r 4 4, t.base, slice (secBytes img 7) (fld r 4 4) (8 * t.words))) (tapeRecs img) (Image.of img).tapes
  let blobs := ((blobRecs img).filter (fun r => fld r 2 1 == 1 || fld r 2 1 == 2)).map (fun r =>
    (blobOff + fld r 4 4, fld r 12 4 * 64, blobBytes img r))
  (tapes ++ blobs).foldl (fun l c => insertCopy c l) []

/-- Every slot of the state store blank in both banks (R284, R313), from the last bank down. -/
def State.blankStore (s : State) (base : Nat) : Nat → State
  | 0 => s
  | n + 1 => (s.write (base + 6144 * n) blankBank).blankStore base n

/-- The QU registers of the engines that `p` names at their reset values, and the watches of the image's calibration blobs
loaded (R146). What a watch has counted, its prescaler and its DRIFT bit go with its setting, as at a host's write (R99, log 75). -/
def State.loadWatches (s : State) (im : Image) (p : Nat → Bool) : State :=
  let s := { s with
    regs := s.regs.filter (fun r =>
      let o := (r.1 - regAddr 0 0) % 0x10000
      !(decide (r.1 < regAddr 11 0) && p ((r.1 - regAddr 0 0) / 0x10000) &&
        (o == 0x800 || o == 0x810 || (decide (0x900 ≤ o) && decide (o < 0xD00)))))
    engines := s.engines.mapIdx (fun e (g : Engine) =>
      if p e then { g with prescale := [], heldWatch := [], drifted := [] } else g) }
  (im.watches.filter (fun w => p w.1)).foldl (fun s w =>
    if w.2.1 = 0xFF then s.setReg (Reg.quCtl w.1) w.2.2 else s.setReg (Reg.quWatch w.1 w.2.1) w.2.2) s

/-- `n` random bytes (R575). -/
def State.random (s : State) (n : Nat) : List Byte × State :=
  ((List.range n).map (Config.randomByte s.free), { s with free := s.free + 1 })

/-- A memory key pair and a prefix key for an enabled field (R261, R595). -/
def State.fieldKeys (s : State) (f : FieldRec) : State :=
  let (k, s) := s.random 32
  let (t, s) := s.random 32
  let (p, s) := s.random 16
  { s with sx := { s.sx with
    memKeys := Map.put s.sx.memKeys f.id (k, t), prefixKeys := Map.put s.sx.prefixKeys f.id p } }

/-- Bits of TU.LEND.CH that name a field's channel read as 0 (R355). -/
def State.clearLent (s : State) : State :=
  let own := s.fields.foldl (fun m r => m ||| r.channels) 0
  let ch := s.getF Reg.tuLend 15 0
  if ch &&& own = 0 then s else s.setF Reg.tuLend 15 0 (ch &&& (0xFFFF ^^^ own))

/-- The sections' registers are loaded and the blocks start (R123, R608, R618, R659, R661). The image is recorded with the
measurement of the bytes that arrived (R111, R120). -/
def State.startImage (s : State) (seen img : List Byte) : State :=
  let im := { Image.of img with measurement := measure seen }
  let power := secBytes img 4
  let s := (s.loadWatches im (fun _ => true)).setReg Reg.fcSafe 0x7F
  let s := { s with
    image := some im
    fc := { s.fc with table := faultsOf img, held := none }
    sx := { s.sx with loads := s.sx.loads + 1 }
    pw := { s.pw with island := some (Policy.of power, domainsOf img, hailsOf img), wakeTimer := true }
    lo := { LoState.reset with model0 := blobOfKind img 3, model1 := blobOfKind img 4 } }
  let s := (im.fields.foldl State.fieldKeys s).restartRound.startAf.clearLent
  let s := (List.range 4).foldl (fun s p =>
    if s.getF (Reg.lxCtl p) 31 31 = 1 ∧ (s.port p).state = 0 then s.updPort p (fun t => { t with state := 1 }) else s) s
  if im.dram % 4 = 0 then s.postOwner Code.memReady 15 (natLE 4 0)
  else { s.startUp 1 true with pw := { s.pw with dramEn := true } }

/-- Stage 5 of R119: the copies, the state store blank, the staged banks released, and the start. The banks that held the
staged image then read as zero (R123), those of the state store among them: a slot there becomes blank (R313) as it is
taken (log 77). -/
def State.applyImage (s : State) (seen img : List Byte) : State :=
  let s := (imageCopies img).foldl (fun s c => s.write c.2.1 c.2.2) s
  let store := (Image.of img).part.store
  let s := if store.banks = 0 then s else s.blankStore store.base 4096
  let s := s.zero 0 (ceilDiv img.length 0x200000 * 0x200000)
  (s.startImage seen img).settle

/-! ### Image data (R658) -/

/-- The reply to an IMG_DATA, with its section and record indices. -/
def State.dataReply (s : State) (r : Role) (rid code sec rec_ : Nat) : State :=
  s.reply r Msg.imgData rid code (natLE 4 sec ++ natLE 4 rec_)

/-- The load is complete: the staged image is checked, with the measurement of what arrived, and applied when every check passes
(R120, R121, R123). -/
def State.finishLoad (s : State) (r : Role) (rid : Nat) (seen img : List Byte) : State :=
  match imageReject s.sx.owners.getLast? seen img with
  | some (c, sec, rec_) => (s.dataReply r rid c sec rec_).endLoad
  | none => ((s.applyImage seen img).dataReply r rid 0 noRec noRec).endLoad

/-- IMG_DATA served (R657, R658). With no load in progress no byte is the next one: IMG_FORMAT (log 46). -/
def State.imgData (s : State) (r : Role) (rid off : Nat) (data : List Byte) : State :=
  match s.load with
  | none => s.dataReply r rid Code.imgFormat noRec noRec
  | some l =>
    if l.role ≠ r then s.reply r Msg.imgData rid Code.imgBusy []
    else if off ≠ l.seen.length ∨ l.len < l.seen.length + data.length then (s.dataReply r rid Code.imgFormat noRec noRec).endLoad
    else
      let s := s.write l.seen.length data
      let seen := l.seen ++ data
      if seen.length < l.len then { s with load := some { l with seen := seen } }.dataReply r rid 0 noRec noRec
      else s.finishLoad r rid seen (s.read 0 l.len)

/-- IMG_DATA (R658): it waits while the commons is being zeroed for its load. -/
def execImgData (r : Role) (rid off : Nat) (data : List Byte) (s : State) : Host.Outcome State Fault Refusal :=
  if s.load.any (fun l => l.zeroing && l.role == r) then .next s
  else .next (s.messageLater r rid Msg.imgData 8 (fun s => s.imgData r rid off data))

/-- IMG_TIMEOUT (R658): a load that has received nothing for 1 s ends. -/
def execImgTimeout (s : State) : Host.Outcome State Fault Refusal :=
  match s.load with
  | none => .next s
  | some l => if !s.coreUp ∨ l.zeroing then .next s else .next s.endLoad

end Sys2Proof.Machine
end

