-- ==== Sys2Proof/Machine/Sextant.lean ====
section
/-!
DEFINITION. The Sextant (chapter 18): owners, quotes and the Tally, key release, key drop, weight loads, and the order
in which SX serves requests (R587).
-/
namespace Sys2Proof.Machine

/-! ### The key store and its checks (R600) -/

/-- The held owner digest (R576): the highest programmed slot. -/
def State.ownerDigest (s : State) : Option (List Byte) := s.sx.owners.getLast?

/-- The device serial (R573). -/
def serial : List Byte := (List.range 16).map Config.serialByte

/-- AUTHFAIL rises by one (R580, R602). -/
def State.authFail (s : State) : State := s.bump Reg.sxCnt 47 32 50 1 none

/-! ### The Tally (R583, R584, R586) -/

/-- The Tally is used up: no bit is left to burn, and the epoch has no leaf left (R586). -/
def State.tallySpent (s : State) : Bool :=
  decide (8192 ≤ s.sx.tallyUsed) && (match s.sx.epoch with | none => true | some (_, l) => decide (1024 ≤ l))

/-- A bit burns, or is skipped when an injection fails its read-back; at 8,064 burnt bits TALLY_LOW is posted once. -/
def State.burnTally (s : State) : Nat → State
  | 0 => s
  | fuel + 1 =>
    if 8192 ≤ s.sx.tallyUsed then s
    else
      let e := s.sx.tallyUsed
      let s := { s with sx := { s.sx with tallyUsed := e + 1 } }
      if s.armed Reg.sxInject 0 then (s.check Reg.sxInject Reg.sxErr 0 37 none).burnTally fuel
      else
        let s := { s with sx := { s.sx with tallyBurnt := s.sx.tallyBurnt + 1, epoch := some (e, 0) } }
        if 8064 ≤ s.sx.tallyBurnt ∧ !s.sx.tallyLow then
          ({ s with sx := { s.sx with tallyLow := true } }).postOwner Code.tallyLow 37 []
        else s

/-- The epoch of the next quote: the one in progress, or a new one under R583. -/
def State.openEpoch (s : State) : State :=
  match s.sx.epoch with
  | some (_, l) => if l < 1024 then s else ({ s with sx := { s.sx with epoch := none } }).burnTally 2
  | none => s.burnTally 2

/-! ### Quotes (R582 to R590) -/

/-- The body of a quote (R587) by an epoch's Tally bit and leaf. -/
def State.quoteBody (s : State) (im : Image) (nonce : List Byte) (bit_ leaf : Nat) : List Byte :=
  ascii [0x53, 0x58, 0x51, 0x55, 0x4F, 0x54, 0x45, 0x31] ++ natLE 2 1 ++ natLE 2 0x4580 ++ natLE 1 0x10 ++
  natLE 1 (b2n (decide (8064 ≤ s.sx.tallyBurnt))) ++ natLE 2 0 ++ serial ++ (s.ownerDigest.getD (List.replicate 32 0)) ++
  im.measurement ++ natLE 8 im.version ++ natLE 8 im.imageId ++ natLE 4 bit_ ++ natLE 4 leaf ++ natLE 4 s.sx.loads ++
  natLE 1 ((im.fields.map (fun f => 2 ^ f.id)).sum) ++ natLE 3 0 ++
  (List.range 8).flatMap (fun f => natLE 4 (s.reg (Reg.sxEpoch f))) ++ nonce ++
  (List.range 1184).map (Config.kemPublic s.sx.kemMade) ++ List.replicate 32 0

/-- QUOTE served (R586, R589): refused, or its signing begins. -/
def State.quote (s : State) (r : Role) (rid : Nat) (nonce : List Byte) : State :=
  let no (c : Nat) : State := s.reply r Msg.quote rid c []
  if s.load.isSome then no Code.measuring
  else match s.image with
    | none => no Code.noImage
    | some im =>
      if s.tallySpent then no Code.tallySpent
      else
        let s := s.sxChecks.openEpoch
        match s.sx.epoch with
        | none => s.reply r Msg.quote rid Code.tallySpent []
        | some (e, l) =>
          { s with sx := { s.sx with
            quote := some ⟨r, rid, s.quoteBody im nonce e l, s.sx.kemMade, e, l⟩
            kemMade := s.sx.kemMade + 1 } }

/-- The signing of a quote is done (R584, R588): it is answered, its leaf is used, and its KEM key is pending, at most
four of them. -/
def State.quoteSigned (s : State) (q : QuoteJob) : State :=
  let sig := (List.range 5172).map (fun i => Config.hssSign q.bit q.leaf i q.body)
  let kems := s.sx.kems ++ [⟨q.pair, sha256 q.body⟩]
  let s := { s with sx := { s.sx with
    quote := none
    kems := kems.drop (kems.length - 4)
    epoch := s.sx.epoch.map (fun (e : Nat × Nat) => (e.1, e.2 + 1)) } }
  (s.bump Reg.sxCnt 15 0 48 1 none).reply q.role Msg.quote q.rid 0 (q.body ++ sig)

/-! ### Key release (R591 to R595) -/

/-- A decrypted entry (R593). -/
structure KeyEntry where
  kind : Nat
  field : Nat
  id : Nat
  key : List Byte
  key2 : List Byte
  deriving DecidableEq, Repr

/-- The entry of 96 bytes. -/
def KeyEntry.of (b : List Byte) : KeyEntry := ⟨fld b 0 1, fld b 1 1, fld b 4 4, slice b 8 32, slice b 40 32⟩

/-- Check 5 of R594 for one entry after those before it. -/
def State.entryOkSx (s : State) (before : List (List Byte)) (b : List Byte) : Bool :=
  let e := KeyEntry.of b
  decide (1 ≤ e.kind) && decide (e.kind ≤ 4) && zeroAt b 2 2 && zeroAt b 72 24 &&
  (if e.kind = 4 then e.field == 0 else (s.fieldRec e.field).isSome) && (e.kind == 1 || e.id == 0) &&
  (if e.kind = 2 then e.key != e.key2 else zeroAt b 40 32) &&
  before.all (fun q => slice q 0 2 != slice b 0 2 || fld q 4 4 != e.id)

/-- Check 6 of R594: a page of the field has a home or shadow in local GDDR6 or on a neighbour. -/
def State.keyInUse (s : State) (f : Nat) : Bool :=
  s.tu.pages.any (fun p => p.1 / 2 ^ 24 == f && (decide (2 ≤ p.2.home) || decide (2 ≤ p.2.shome)))

/-- The model keys held after an entry is applied. -/
def putModelKey (ks : List ModelKey) (e : KeyEntry) : List ModelKey :=
  if e.kind = 1 then ks.filter (fun k => !(k.field == e.field && k.id == e.id)) ++ [⟨e.field, e.id, e.key⟩] else ks

/-- An entry takes effect (R595): a session key restarts both counters of its session (R580). -/
def State.applyKey (s : State) (e : KeyEntry) : State :=
  let session (n : Nat) : State := { s with sx := { s.sx with
    sessionKeys := Map.put s.sx.sessionKeys n e.key, inCtr := Map.del s.sx.inCtr n, outCtr := Map.put s.sx.outCtr n 0 } }
  if e.kind = 1 then { s with sx := { s.sx with modelKeys := putModelKey s.sx.modelKeys e } }
  else if e.kind = 2 then { s with sx := { s.sx with memKeys := Map.put s.sx.memKeys e.field (e.key, e.key2) } }
  else if e.kind = 3 then session e.field
  else session 8

/-- Check 1 of R594: MAGIC, COUNT, reserved bytes and lengths. -/
def releaseOk (p : List Byte) : Bool :=
  let n := fld p 40 2
  let sig := fld p (1136 + 96 * n + 76) 4
  slice p 0 8 == ascii [0x53, 0x58, 0x4B, 0x45, 0x59, 0x52, 0x45, 0x4C] && decide (1 ≤ n) && decide (n ≤ 16) &&
  zeroAt p 42 6 && decide (sig ≤ 16384) && p.length == 1136 + 96 * n + 80 + sig

/-- The rest of the checks, once check 3 has found the KEM key and it is erased. -/
def State.releaseWith (s : State) (r : Role) (rid : Nat) (p : List Byte) (k : KemKey) : State :=
  let n := fld p 40 2
  let end_ := 1136 + 96 * n
  let no (c : Nat) : State := s.reply r Msg.keyRelease rid c []
  let shared := (List.range 32).map (Config.kemShared k.pair (slice p 48 1088))
  let wrap := sha256 (ascii [0x53, 0x58, 0x57, 0x52, 0x41, 0x50, 0x30, 0x31] ++ shared ++ k.qd)
  match gcmOpen wrap (List.replicate 12 0) (slice p 0 48) (slice p 1136 (96 * n)) (slice p end_ 16) with
  | none => s.authFail.reply r Msg.keyRelease rid Code.keyAuth []
  | some pt =>
    let bs := records pt 0 96 n
    let es := bs.map KeyEntry.of
    if (firstBad s.entryOkSx bs).isSome then no Code.keyArg
    else if es.any (fun e => e.kind == 2 && s.keyInUse e.field) then no Code.keyInUse
    else if 64 < (es.foldl putModelKey s.sx.modelKeys).length then no Code.keyFull
    else ((es.foldl State.applyKey s).bump Reg.sxCnt 31 16 49 1 none).reply r Msg.keyRelease rid 0 []

/-- KEY_RELEASE served (R594). -/
def State.keyRelease (s : State) (r : Role) (rid : Nat) (p : List Byte) : State :=
  let s := s.sxChecks
  let end_ := 1136 + 96 * fld p 40 2 + 16
  let pub := slice p end_ 60
  if !releaseOk p then s.reply r Msg.keyRelease rid Code.keyArg []
  else if s.ownerDigest ≠ some (sha256 pub) ∨ !hssVerify pub (p.drop (end_ + 64)) (p.take end_) then
    s.authFail.reply r Msg.keyRelease rid Code.keyAuth []
  else match s.sx.kems.find? (fun k => k.qd == slice p 8 32) with
    | none => s.reply r Msg.keyRelease rid Code.keyStale []
    | some k => ({ s with sx := { s.sx with kems := s.sx.kems.filter (fun j => j.pair != k.pair) } }).releaseWith r rid p k

/-! ### Owners (R576, R577) -/

/-- OWNER_SET served: its slot begins to burn, or it is refused. -/
def State.ownerSet (s : State) (r : Role) (rid slot : Nat) (digest rest : List Byte) : State :=
  let pub := slice rest 0 60
  let msg := ascii [0x53, 0x58, 0x4F, 0x57, 0x4E, 0x45, 0x52, 0x31] ++ serial ++ natLE 1 slot ++ digest
  let signed := s.ownerDigest == some (sha256 pub) && fld rest 60 4 + 64 == rest.length && hssVerify pub (rest.drop 64) msg
  if s.image.isNone ∧ slot = s.sx.owners.length ∧ slot ≤ 3 ∧ digest.length = 32 ∧ (slot = 0 ∨ signed = true) then
    { s.sxChecks with sx := { s.sxChecks.sx with burn := some ⟨r, rid, slot, digest⟩ } }
  else s.reply r Msg.ownerSet rid Code.ownerRefused []

/-! ### One at a time, in arrival order (R587) -/

/-- SX is busy with a quote or a burn. -/
def State.sxBusy (s : State) : Bool := s.sx.quote.isSome || s.sx.burn.isSome

/-- SX serves one of the requests it takes one at a time. -/
def State.sxServe (s : State) (i : Instr) : State :=
  match i with
  | .quote r rid nonce => s.quote r rid nonce
  | .keyRelease r rid p => s.keyRelease r rid p
  | .ownerSet r rid slot digest rest => s.ownerSet r rid slot digest rest
  | .imgBegin r rid len => s.imgBegin r rid len
  | _ => s

/-- The request is served at once, or waits its turn. -/
def State.sxTake (s : State) (i : Instr) : State :=
  if s.sxBusy then { s with sx := { s.sx with queue := s.sx.queue ++ [i] } } else s.sxServe i

/-- Requests that waited are served in order until one keeps SX busy. -/
def State.sxDrain (s : State) : Nat → State
  | 0 => s
  | fuel + 1 =>
    match s.sx.queue with
    | [] => s
    | i :: l => if s.sxBusy then s else (({ s with sx := { s.sx with queue := l } }).sxServe i).sxDrain fuel

/-- IMG_BEGIN (R118, R587, R657). -/
def execImgBegin (r : Role) (rid len : Nat) (s : State) : Host.Outcome State Fault Refusal :=
  .next (s.messageLater r rid Msg.imgBegin 0 (fun s => s.sxTake (.imgBegin r rid len)))

/-- QUOTE (R587, R589). -/
def execQuote (r : Role) (rid : Nat) (nonce : List Byte) (s : State) : Host.Outcome State Fault Refusal :=
  .next (s.messageLater r rid Msg.quote 6580 (fun s =>
    if nonce.length = 32 then s.sxTake (.quote r rid nonce) else s.reply r Msg.quote rid Code.badType []))

/-- QUOTE_DONE (R585): the quote in progress is signed and answered; SX goes on to the next request. -/
def execQuoteDone (s : State) : Host.Outcome State Fault Refusal :=
  match s.sx.quote with
  | none => .next s
  | some q => if !s.coreUp then .next s else .next ((s.quoteSigned q).sxDrain (s.sx.queue.length + 1))

/-- KEY_RELEASE (R594). -/
def execKeyRelease (r : Role) (rid : Nat) (data : List Byte) (s : State) : Host.Outcome State Fault Refusal :=
  .next (s.messageLater r rid Msg.keyRelease 0 (fun s => s.sxTake (.keyRelease r rid data)))

/-- OWNER_SET (R577). -/
def execOwnerSet (r : Role) (rid slot : Nat) (digest rest : List Byte) (s : State) : Host.Outcome State Fault Refusal :=
  .next (s.messageLater r rid Msg.ownerSet 0 (fun s => s.sxTake (.ownerSet r rid slot digest rest)))

/-- OWNER_BURN_DONE (R577): the slot is burnt and read back. -/
def execOwnerBurnDone (s : State) : Host.Outcome State Fault Refusal :=
  match s.sx.burn with
  | none => .next s
  | some b =>
    if !s.coreUp then .next s
    else
      let s := { s with sx := { s.sx with owners := s.sx.owners ++ [b.digest], burn := none } }
      .next ((s.reply b.role Msg.ownerSet b.rid 0 []).sxDrain (s.sx.queue.length + 1))

/-! ### KEY_DROP and WEIGHT_LOAD (R596 to R598) -/

/-- KEY_DROP (R596). -/
def execKeyDrop (r : Role) (rid field id : Nat) (s : State) : Host.Outcome State Fault Refusal :=
  .next (s.message r rid Msg.keyDrop 0 (fun s =>
    let s := s.sxChecks
    if !Role.mayField r field then (s, Code.sxRole, [])
    else if s.sx.modelKeys.any (fun k => k.field == field && k.id == id) then
      ({ s with sx := { s.sx with modelKeys := s.sx.modelKeys.filter (fun k => !(k.field == field && k.id == id)) } }, 0, [])
    else (s, Code.keyArg, [])))

/-- The header of R597 is well formed for the payload. -/
def weightOk (p : List Byte) : Bool :=
  let n := fld p 16 4
  decide (48 ≤ p.length) && decide (fld p 4 1 ≤ 7) && zeroAt p 5 3 && zeroAt p 20 12 && fld p 8 8 % 65536 == 0 &&
  decide (64 ≤ n) && decide (n ≤ 65536) && n % 64 == 0 && p.length == 48 + n

/-- WEIGHT_LOAD's effect, its status (R598); none while TU's write waits. -/
def State.weightLoad (s : State) (p : List Byte) : State × Option Nat :=
  let s := s.sxChecks
  let f := fld p 4 1
  let ua := fld p 8 8
  let n := fld p 16 4
  match s.sx.modelKeys.find? (fun k => k.field == f && k.id == fld p 0 4) with
  | none => (s, some Code.keyArg)
  | some k =>
    match s.objAt f ua with
    | none => (s, some Code.tierRole)
    | some (_, o) =>
      if !o.ro then (s, some Code.tierRole)
      else
        let off := ua - o.ua
        match gcmOpen k.key (List.replicate 4 0 ++ natLE 8 (off / 64)) (slice p 0 4 ++ natLE 8 off ++ natLE 4 n)
            (slice p 32 n) (p.drop (32 + n)) with
        | none => (s.authFail, some Code.weightsAuth)
        | some pt =>
          match s.tuWrite f ua pt .weights with
          | (s, .done _) => (s, some 0)
          | (s, .wait) => (s, none)
          | (s, .code c) => (s, some c)

/-- WEIGHT_LOAD (R597, R598): its write through TU waits for the slot of an isolated field, when the field's session issues it
(R435), and for TU, which keeps what it has begun for it. -/
def execWeightLoad (r : Role) (rid : Nat) (data : List Byte) (s : State) : Host.Outcome State Fault Refusal :=
  let f := fld data 4 1
  let runs : Bool := weightOk data && Role.mayField r f
  if runs = true ∧ ((r ≠ .owner ∧ s.slotWait f) ∨ s.mcStage.isSome) then .next s
  else if runs && s.canTake r 0 && (s.msgGate r Msg.weightLoad).isNone then
    match (s.takeRequest r rid Msg.weightLoad).weightLoad data with
    | (t, none) => .next { t with hp := { t.hp with requests := s.hp.requests } }
    | (t, some c) => .next (t.reply r Msg.weightLoad rid c [])
  else .next (s.message r rid Msg.weightLoad 0 (fun s =>
    (s, if !Role.mayField r f then Code.sxRole else Code.keyArg, [])))

end Sys2Proof.Machine
end

