-- ==== Sys2Proof/Machine/Faults.lean ====
section
/-!
DEFINITION. The fault collector (chapter 19): pulses and their reactions, replay and fencing, block and field resets, and
the safe state; and the firing of the waypoint trigger, which reactions cause.
-/
namespace Sys2Proof.Machine

/-! ### The waypoint trigger (R627) -/

/-- A firing with its cause: latched while ARM is set and nothing is being latched, else counted as missed. -/
def State.fireWaypoint (s : State) (cause : Nat) : State :=
  if s.inReset 43 then s
  else if s.getF Reg.wpCtl 31 31 = 1 ∧ s.getF Reg.wpStatus 30 30 = 0 then
    let s := (s.setF Reg.wpCtl 31 31 0).setReg Reg.wpTrig ((s.reg Reg.wpTrig + 1) % 4294967296)
    let s := (s.setF Reg.wpStatus 30 30 1).setF Reg.wpStatus 6 0 cause
    (s.bump Reg.wpCnt 31 16 49 1 none).check Reg.wpInject Reg.wpErr 0 43 none
  else s.bump Reg.wpCnt 15 0 48 1 none

/-! ### Fences (R613) -/

/-- A fence or a return is posted to the owner and to every field whose set holds the engine (R441). -/
def State.postFence (s : State) (e : Nat) : State :=
  let s := s.postOwner Code.engineFenced 63 (natLE 1 e ++ natLE 4 (s.reg Reg.fcFence))
  (s.fields.filter (fun r => bit r.engines e)).foldl (fun s r => s.serviceEvent r.id) s

/-- Engine `e` is fenced; the strand that holds it is asked to leave it. -/
def State.fence (s : State) (e : Nat) : State :=
  if 10 < e ∨ s.fenced e then s
  else
    let s := (s.setF Reg.fcFence e e 1).bump Reg.fcCnt 47 32 50 1 none
    let s := if (s.engine e).strand.isSome then s.updEngine e (fun g => { g with yield := true }) else s
    s.postFence e

/-- The owner returns engine `e`. -/
def State.unfence (s : State) (e : Nat) : State :=
  if s.fenced e then (s.setF Reg.fcFence e e 0).postFence e else s

/-! ### Replays and fence restarts (R612) -/

/-- The open step that a pulse names still runs, and its attempt is not being abandoned. -/
def State.stepLive (s : State) (p : Nat × W32) : Bool :=
  match s.ctx p.1 with
  | none => false
  | some x =>
    match x.running with
    | none => false
    | some j => x.step == p.2 && j.phase == .active && j.open_.isSome

/-- The replays and fence restarts of the running job of `c`. -/
def State.stepCounts (s : State) (c : Nat) : Nat × Nat :=
  (((s.ctx c).bind Ctx.running).map (fun j => (j.replays, j.restarts))).getD (0, 0)

/-- The step of context `c` restarts with the fenced engine out of placement, or, with its restarts spent, the job ends. -/
def State.fenceRestart (s : State) (c : Nat) : State :=
  if (s.stepCounts c).2 < 2 then
    ((s.updRun c (fun j => { j with restarts := j.restarts + 1 })).bump Reg.fcCnt 31 16 49 1 none).replayStep c
  else s.endJob c Code.replaySpent

/-- The detections of engines `es` that name the open step of context `c`, handled once: a fence restart if `fenced`, else
a replay, which becomes a fence restart once the replays are spent. -/
def State.restartStep (s : State) (c : Nat) (fenced : Bool) (es : List Nat) : State :=
  if fenced then s.fenceRestart c
  else if (s.stepCounts c).1 < 2 then
    ((s.updRun c (fun j => { j with replays := j.replays + 1 })).bump Reg.fcCnt 31 16 49 1 none).replayStep c
  else (es.foldl State.fence s).fenceRestart c

/-! ### What a block reset does (R614, R615) -/

/-- Blocks that can be reset: those with a window but CM, SX, PW, CK and FC. -/
def resettable (b : Nat) : Bool := snapBlocks.contains b && !([14, 37, 41, 42, 63].contains b)

/-- The step whose command engine `e` runs. -/
def State.runningStep (s : State) (e : Nat) : Option (Nat × W32) :=
  match (s.engine e).strand with
  | none => none
  | some (c, _) => if s.runsCommand e then (s.ctx c).map (fun x => (c, x.step)) else none

/-- Engine `e` loses its buffers: the command it runs is abandoned, its strand gone with the attempt; a strand that runs
none gives up the engine. -/
def State.resetEngine (s : State) (e : Nat) : State :=
  let s := match (s.engine e).strand with
    | none => s
    | some (c, sid) =>
      match s.strandAt c sid with
      | none => s.freeEngine e
      | some (_, _, t) => if s.runsCommand e || t.wait.any Wait.inner then s.dropStrand c t
        else s.leaveEngine c sid e t.held none
  let s := if s.sd.run.any (fun r => r.2.1 == e) && !s.sd.failed then s.abandonSounding else s
  s.updEngine e (fun _ => Engine.reset)

/-- SE's reset (R615): every resident stream is lost. -/
def State.resetSe (s : State) : State :=
  let s := s.se.streams.foldl (fun s p =>
    if p.2.state = 1 ∨ p.2.state = 3 then s.loseStream p.1
    else if p.2.state = 4 then (s.freeSlots p.1).updStream p.1 (fun r => { r with state := 2, first := 0 })
    else s) s
  { s with se := { s.se with swapQ := [], stages := [] } }

/-- Jobs that some strand or lease of theirs ties to a block that is reset end with BLOCK_RESET. -/
def State.endWaiting (s : State) (p : Nat → Strand → Bool) : State :=
  s.dx.ctxs.foldl (fun s q => match q.2.running with
    | none => s
    | some j => if j.strands.any (p q.1) then s.endJob q.1 Code.blockReset else s) s

/-- TU's reset (R615): every object is unmapped, without write-back; segments are free; what waits on TU ends. -/
def State.resetTu (s : State) : State :=
  let s := s.answerTu Code.blockReset
  let s := s.endWaiting (fun c t => (match t.wait with | some (.furrow _) => true | _ => false) ||
    t.engine.any (fun e => (s.projWait e).isSome) ||
    s.tu.leases.any (fun l => l.ctx == c && l.sid == t.sid))
  s.rewind.emptyTier

/-- The request of a tag ends with BLOCK_RESET (R614). -/
def State.endTag (s : State) (g : Tag) : State := s.requestFailed g.use Code.blockReset

/-- DM's reset (R412): every run ends, and with it the tags it held. -/
def State.resetDm (s : State) : State :=
  let s := s.dmStop Code.blockReset
  { s with lx := { s.lx with tags := s.lx.tags.filter (fun (g : Tag) => match g.use with
    | .dma _ => false
    | .dmaRead _ _ _ _ => false
    | _ => true) } }

/-- LXp's reset (R551): the port goes to DOWN without BYE, and its requests end. -/
def State.resetLx (s : State) (p : Nat) : State :=
  let s := ((s.portTo p 1).dropAll p (s.port p).held true).updPort p (fun t => { t with held := [], back := 0 })
  let mine := s.lx.tags.filter (fun g => g.port == p)
  mine.foldl State.endTag { s with lx := { s.lx with tags := s.lx.tags.filter (fun g => g.port != p) } }

/-- KM's reset (R278): jobs with an open walk, or that wait for a walk or a staging half, end. -/
def State.resetKmBlock (s : State) : State :=
  let s := s.answerKm Code.blockReset
  (s.endWaiting (fun c t => (match t.wait with | some .walker => true | some (.append _) => true | _ => false) ||
    s.km.walks.contains (c, t.sid))).resetKm

/-- DX's reset (R615): every job reports BLOCK_RESET, running ones first, then the queued ones of each context in serial
order; every context is CLOSED. -/
def State.resetDx (s : State) : State :=
  let s := s.dx.ctxs.foldl (fun s q => match q.2.running with
    | none => s
    | some j => s.postEnd q.1 q.2 j.job.serial Code.blockReset) s
  let s := s.dx.ctxs.foldl (fun s q => q.2.queue.foldl (fun s k => s.postEnd q.1 q.2 k.serial Code.blockReset) s) s
  let s := s.endDigests.freeEngines
  { s.dropContexts with pw := s.pw }

/-- The requests that HP has passed to their blocks and that are not answered. -/
def State.passed (s : State) : List (Role × Nat × Nat) :=
  s.dx.ctxs.flatMap (fun p =>
    (match p.2.closing with | some (some (r, i)) => [(r, Msg.ctxClose, i)] | _ => []) ++
    (match p.2.running with | none => [] | some j => j.aborts.map (fun a => (a.1, Msg.jobAbort, a.2)))) ++
  s.dx.commitQ.filterMap (fun q => match q with | .abort _ _ r i => some (r, Msg.jobAbort, i) | _ => none) ++
  s.tu.op.toList.map (fun u => (u.1, Msg.tu, u.2.1)) ++
  s.km.copier.filterMap (fun j => match j with | .host r i _ _ => some (r, Msg.kv, i) | _ => none) ++
  s.lx.gathers.map (fun g => (g.2.role, if g.2.read then Msg.memRead else Msg.memWrite, g.2.rid)) ++
  s.dm.flatMap (fun p => match p.2.run with
    | none => []
    | some r => r.aborts.filterMap (fun a => a.map (fun q => (q.1, Msg.dmAbort, q.2)))) ++
  (s.sx.quote.map (fun q => (q.role, Msg.quote, q.rid))).toList ++
  (s.sx.burn.map (fun b => (b.role, Msg.ownerSet, b.rid))).toList ++
  s.sx.queue.filterMap (fun i => match i with
    | .quote r i _ => some (r, Msg.quote, i)
    | .keyRelease r i _ => some (r, Msg.keyRelease, i)
    | .ownerSet r i _ _ _ => some (r, Msg.ownerSet, i)
    | .imgBegin r i _ => some (r, Msg.imgBegin, i)
    | _ => none) ++
  (s.load.bind (fun l => if l.zeroing then some (l.role, Msg.imgBegin, l.rid) else none)).toList

/-- HP's reset (R665): both queues are discarded and the port is in 8S; replies to requests already passed on are
discarded. -/
def State.resetHp (s : State) : State :=
  { s with hp := { s.hp with dtr := false, requests := [], outq := [], discard := s.hp.discard ++ s.passed } }

/-- No snapshot is valid. -/
def State.clearSnaps (s : State) : State := snapBlocks.foldl (fun s b => s.setF (Reg.snapHdr b) 31 31 0) s

/-- The effect of a block's reset beyond its registers and counters (R615). -/
def State.resetEffect (s : State) (b : Nat) : State :=
  if b ≤ 10 then (if b = 7 then s.resetSe else s).resetEngine b
  else if b = 11 then
    let s := (List.range 4).foldl (fun s p => s.cutFrame p 5) s
    { s with ip := { s.ip with gate := IpState.reset.gate, entry := 0, fresh := false, run := 0 } }
  else if b = 12 then
    let s := if s.af.running then s.startAf else s
    { s with af := { s.af with active := AfState.reset.active } }
  else if b = 13 then { s with lo := { s.lo with session := none } }
  else if b = 15 then (if s.pw.dramEn then s.startUp 2 (s.mcStage.any Prod.snd) else s)
  else if b = 31 then s.resetTu
  else if b = 32 then s.resetDm
  else if 33 ≤ b ∧ b ≤ 36 then s.resetLx (b - 33)
  else if b = 38 then s.resetKmBlock
  else if b = 39 then s.resetDx
  else if b = 40 then s.resetHp
  else if b = 43 then s.clearSnaps
  else if b = 44 then { s.abandonSounding with sd := ⟨[], none, false⟩ }
  else s

/-- R590: the reset epochs that a reset of block `b` advances: for an engine those of the fields with it, else every one. -/
def State.advanceEpochs (s : State) (p : Nat → Bool) : State :=
  ((List.range 8).filter p).foldl (fun s f => s.setReg (Reg.sxEpoch f) ((s.reg (Reg.sxEpoch f) + 1) % 4294967296)) s

/-- A block's registers take their reset values, LX.ID kept, and those that the image loads the image's (R614). The digest
group registers, which five engines hold in common, stand over the reset of one of them (log 49). -/
def State.resetBlockRegs (s : State) (b : Nat) : State :=
  let kept := s.regs.filter (fun r => r.1 == regAddr 33 0x10 ||
    (decide (regAddr 0 0x100 ≤ r.1) && decide (r.1 < regAddr 0 0x1C0)))
  let t := s.resetRegs b
  let t := if b = 33 ∨ b = 0 then { t with regs := kept.foldl (fun m r => Map.put m r.1 r.2) t.regs } else t
  let t := { t with sel := t.sel.filter (fun p => p.1 / 16 != b) }
  match s.image with
  | none => t
  | some im => if b ≤ 10 then t.loadWatches im (fun e => e == b) else t

/-- A block reset begins (R614). One in progress stands. -/
def State.startReset (s : State) (b : Nat) : State :=
  if !resettable b ∨ s.inReset b then s
  else
    let s := s.advanceEpochs (fun f => decide (10 < b) || bit (((s.fieldRec f).map FieldRec.engines).getD 0) b)
    let s := (s.resetEffect b).resetBlockRegs b
    { s with fc := { s.fc with resets := s.fc.resets ++ [b] } }.settle.wake

/-- BLOCK_RESET_DONE (R614, R665): the reset ends. -/
def execBlockResetDone (block : Nat) (s : State) : Host.Outcome State Fault Refusal :=
  if !s.inReset block ∨ !s.coreUp then .next s
  else
    let s := { s with fc := { s.fc with resets := s.fc.resets.filter (fun b => b != block) } }
    if block = 40 then .next (s.postOwner Code.blockReset 40 (natLE 1 40))
    else if block = 7 then .next s.retryStreams
    else .next s

/-! ### The safe state (R617, R618) -/

/-- Every engine abandons its command and holds nothing. -/
def State.stopEngines (s : State) : State := s.endDigests.freeEngines

/-- Every key but the owner session key is erased (R617). -/
def State.eraseForSafe (s : State) : State :=
  let mine {β : Type} (m : Map β) : Map β := m.filter (fun p => p.1 == Role.owner.code)
  { s.eraseKeys with sx := { s.eraseKeys.sx with
    sessionKeys := mine s.sx.sessionKeys, inCtr := mine s.sx.inCtr, outCtr := mine s.sx.outCtr } }

/-- A load in progress ends when bit 63 caused the safe state (R618). -/
def State.lockLoad (s : State) : State :=
  match s.load with
  | none => s
  | some l =>
    let s := { s with load := none }
    if l.zeroing then s.reply l.role Msg.imgBegin l.rid Code.safeLocked [] else s

/-- The device enters the safe state (R617) with its cause: an FC.STATUS bit, or 64 for the owner's write. -/
def State.enterSafe (s : State) (cause : Nat) : State :=
  if s.safe then s
  else
    let locked := if cause = 63 then 1 else 0
    let s := s.setReg Reg.fcSafe (2 ^ 31 + locked * 2 ^ 30 + cause)
    let s := if s.getF Reg.wpCtl 31 31 = 1 then s.fireWaypoint 66 else s
    let s := s.postOwner Code.safeEntered 63 (natLE 1 cause ++ natLE 8 (s.reg Reg.fcStatus))
    let s := if cause = 63 then s.lockLoad else s
    let im := s.image
    let s := ((List.range 4).foldl State.portOff s).stopEngines.dropBlocks.stopAf.eraseForSafe
    { s with fc := { s.fc with held := im, fieldReset := none } }.settle

/-! ### Latching pulses (R606, R608 to R612) -/

/-- The pulses in ascending bit order, those of one bit in the order they were sent. -/
def insertPulse (p : Pulse) : List Pulse → List Pulse
  | [] => [p]
  | q :: l => if p.bit < q.bit then p :: q :: l else q :: insertPulse p l

/-- ACTION and FLAGS of a source. -/
def State.reaction (s : State) (b : Nat) : Nat × Nat := (s.fc.table[b]?).getD (0, 1)

/-- The pulse brings the safe state: its ACTION is SAFE, or it sets FC.STATUS bit 63, whatever its ACTION (R617). -/
def State.bringsSafe (s : State) (p : Pulse) : Bool := (s.reaction p.bit).1 == 4 || p.bit == 63

/-- The block that a source's RESET_BLOCK resets. -/
def sourceBlock (b : Nat) : Nat := if 15 ≤ b ∧ b ≤ 30 then 15 else b

/-- The pulse causes a replay, a fence, a reset or the safe state (R610). -/
def State.causes (s : State) (p : Pulse) : Bool :=
  if s.bringsSafe p then !s.safe
  else match (s.reaction p.bit).1 with
  | 1 => p.step.any s.stepLive
  | 2 => (decide (p.bit ≤ 10) && !s.fenced p.bit) || p.step.any s.stepLive
  | 3 => (resettable (sourceBlock p.bit) && !s.inReset (sourceBlock p.bit)) || p.step.any s.stepLive
  | _ => false

/-- One pulse is latched: counted, its bit set, FAULT posted, and the waypoint fired (R606, R609, R610). -/
def State.latch (s : State) (p : Pulse) : State :=
  let (act, flags) := s.reaction p.bit
  let fresh := s.getF Reg.fcStatus p.bit p.bit = 0
  let post := bit flags 0 ∧ (fresh ∨ s.causes p)
  let s := (s.bump Reg.fcCnt 15 0 48 1 none).setF Reg.fcStatus p.bit p.bit 1
  let s := if post then
      let (c, n) := p.step.getD (0xFFFF, 0xFFFFFFFF)
      s.postOwner Code.fault 63 (natLE 1 p.bit ++ natLE 1 act ++ natLE 2 c ++ natLE 4 n.toNat)
    else s
  if bit flags 1 then s.fireWaypoint p.bit else s

/-- The engine's own part of a pulse's reaction (R612): FENCE fences it and RESET_BLOCK resets its block; with the step
that the reset abandons. -/
def State.enginePart (s : State) (p : Pulse) : State × List (Nat × Nat × Nat × W32) :=
  match (s.reaction p.bit).1 with
  | 2 => (s.fence p.bit, [])
  | 3 =>
    let v := if p.bit ≤ 10 ∧ !s.inReset p.bit then s.runningStep p.bit else none
    (s.startReset (sourceBlock p.bit), (v.map (fun n => (p.bit, 3, n.1, n.2))).toList)
  | _ => (s, [])

/-- Every step that a detection names, or that a reset abandons, is handled once: `l` holds engine, action, context and
step of each. -/
def State.stepParts (s : State) : List (Nat × Nat × Nat × W32) → Nat → State
  | [], _ => s
  | _, 0 => s
  | p :: l, fuel + 1 =>
    let same (q : Nat × Nat × Nat × W32) : Bool := q.2.2 == p.2.2
    let acts := (p :: l).filter (fun q => same q && q.2.1 != 0)
    let rest := l.filter (fun q => !same q)
    let s := if acts.isEmpty || !s.stepLive p.2.2 then s
      else s.restartStep p.2.2.1 (acts.any (fun q => q.2.1 == 2)) (acts.map Prod.fst)
    s.stepParts rest fuel

/-- The reactions to pulses latched in one F-cycle, in ascending bit order; bit 63 locks the safe state that it causes or
finds (R618). -/
def State.react (s : State) (ps : List Pulse) : State :=
  match ps.find? s.bringsSafe with
  | some p =>
    let s := s.enterSafe p.bit
    if ps.any (fun q => q.bit == 63) then s.setF Reg.fcSafe 30 30 1 else s
  | none =>
    let named := ps.filterMap (fun p => p.step.map (fun n => (p.bit, (s.reaction p.bit).1, n.1, n.2)))
    let (s, l) := ps.foldl (fun (a : State × List (Nat × Nat × Nat × W32)) p =>
      let (s, m) := a.1.enginePart p
      (s, a.2 ++ m)) (s, named)
    s.stepParts l l.length

/-- FC's registers or reaction table are updated: an armed injection is found as a parity error, bit 63 (R607, R632). -/
def State.fcUpdate (s : State) : State :=
  if s.armed Reg.fcInject 0 then (s.setF Reg.fcInject 0 0 0).pulse 63 none else s

/-- FAULT_PULSE (R606, R609): FC latches the pulses that wait, as of one F-cycle, and applies their reactions. A detection
in a sounding's engine names no step, and fails the sounding (R623). -/
def execFaultPulse (s : State) : Host.Outcome State Fault Refusal :=
  if !s.coreUp ∨ s.fc.pulses.isEmpty then .next s
  else
    let hit := s.sd.run.any (fun r => s.fc.pulses.any (fun (p : Pulse) => p.bit == r.2.1 && p.step.any (fun n => n.1 == 0xFFFF)))
    let ps := s.fc.pulses.foldl (fun l (p : Pulse) =>
      insertPulse { p with step := p.step.filter (fun n => n.1 != 0xFFFF) } l) []
    let s := { s with fc := { s.fc with pulses := [] } }
    let s := if hit then { s with sd := { s.sd with failed := true } } else s
    .next ((ps.foldl State.latch s.fcUpdate).react ps)

/-! ### Field resets (R616) -/

/-- The running job of `c` has neither completed nor ended. -/
def State.endsNow (s : State) (c : Nat) : Bool :=
  match (s.ctx c).bind Ctx.running with
  | none => false
  | some j => j.phase == .active || j.phase == .replaying

/-- Every job of context `c` is aborted and the context closed, as CTX_CLOSE would close it. -/
def State.resetCtx (s : State) (c : Nat) : State :=
  let s := s.drain c
  let s := if s.endsNow c then s.abortJob c none else s
  match s.ctx c with
  | none => s
  | some x =>
    if x.closing.isSome then s
    else if x.busy ∨ s.closeWaits c then s.setCtx c { x with closing := some none }
    else s.closeCtx c

/-- A field reset begins (R616). -/
def State.startFieldReset (s : State) (f : Nat) : State :=
  let mine := (s.dx.ctxs.filter (fun p => p.2.field == f)).map Prod.fst
  let bound := s.tu.sow.any (fun w => mine.contains w.ctx)
  let s := mine.foldl State.resetCtx (s.advanceEpochs (fun g => g == f))
  let s := { s with dx := { s.dx with shared := s.dx.shared.filter (fun p => p.1 / 512 != f) } }
  let s := (List.range 32).foldl (fun s ch =>
    let v := s.reg (Reg.dmChCFG ch)
    if !cfgOwner v ∧ cfgField v = f ∧ (s.dmChan ch).run.isSome then (s.dmAbort ch none).1 else s) s
  let s := (s.km.nodes.filter (fun p => p.2.field == f)).foldl (fun s p => s.removeNode p.1) s
  let s : State := if bound then { s with tu := { s.tu with sow := none } } else s
  let s : State := if s.dx.furrowField = some f then { s with dx := { s.dx with furrowField := none } } else s
  { s with fc := { s.fc with fieldReset := some f } }.settle.wake

/-- A DM run of field `f` is in progress. -/
def State.fieldRuns (s : State) (f : Nat) : Bool :=
  s.dm.any (fun p => p.2.run.any (fun r => !cfgOwner r.cfg.toNat && cfgField r.cfg.toNat == f))

/-- FIELD_RESET_DONE (R616): every write of the field is complete, its contexts closed and its runs ended. -/
def execFieldResetDone (s : State) : Host.Outcome State Fault Refusal :=
  match s.fc.fieldReset with
  | none => .next s
  | some f =>
    if !s.coreUp ∨ s.dx.ctxs.any (fun p => p.2.field == f) ∨ s.fieldRuns f then .next s
    else .next { s with fc := { s.fc with fieldReset := none } }

/-- FC.RESET.BUSY. -/
def State.resetBusy (s : State) : Bool := !s.fc.resets.isEmpty || s.fc.fieldReset.isSome

/-- A write of FC.RESET (R614, R616). -/
def State.writeFcReset (s : State) (v : Nat) : State :=
  if s.resetBusy then s
  else if bit v 30 then
    if s.image.isSome ∧ (s.fieldRec (bits v 5 0)).isSome then s.startFieldReset (bits v 5 0) else s
  else
    let b := bits v 5 0
    let step := if b ≤ 10 ∧ resettable b then s.runningStep b else none
    let s := s.startReset b
    s.stepParts (step.map (fun n => (b, 3, n.1, n.2))).toList 1

/-- A write of FC.FENCE (R613): an engine in both SET and ENGINE is left as it is. -/
def State.writeFcFence (s : State) (v : Nat) : State :=
  (List.range 11).foldl (fun s e =>
    if bit v (16 + e) && !bit v e then s.fence e
    else if bit v e && !bit v (16 + e) then s.unfence e else s) s

end Sys2Proof.Machine
end

