-- ==== Sys2Proof/Machine/Sounding.lean ====
section
/-!
DEFINITION. Soundings (chapter 19): the checks of a pack at SD_LOAD, the start of a sounding, its run over the operators'
own work, and its verdict; and the waypoint's snapshots.
-/
namespace Sys2Proof.Machine

/-! ### Packs (R619, R620) -/

/-- SD runs. -/
def State.sdUp (s : State) : Bool := s.coreUp && !s.domainHeld 23 && !s.inReset 44 && !s.safe && s.image.isSome

/-- The header of a pack (R619). -/
structure PackHdr where
  kind : Nat
  flags : Nat
  words : Nat
  inOff : Nat
  inLen : Nat
  outOff : Nat
  outLen : Nat
  seed : Nat
  id : Nat
  digest : List Byte
  deriving DecidableEq, Repr

/-- The header's fields. -/
def PackHdr.of (b : List Byte) : PackHdr :=
  ⟨fld b 10 1, fld b 11 1, fld b 12 4, fld b 16 4, fld b 20 4, fld b 24 4, fld b 28 4, fld b 32 8, fld b 44 4, slice b 48 32⟩

/-- SDPACK01. -/
def sdMagic : List Byte := ascii [0x53, 0x44, 0x50, 0x41, 0x43, 0x4B, 0x30, 0x31]

/-- The header is in range, in an area of `size` bytes. -/
def packHdrOk (b : List Byte) (size : Nat) : Bool :=
  let p := PackHdr.of b
  slice b 0 8 == sdMagic && fld b 8 2 == 1 && decide (p.kind ≤ 4) && decide (p.flags ≤ 1) && decide (1 ≤ p.words) &&
  decide (p.words ≤ 4096) && p.inOff % 64 == 0 && decide (128 + 8 * p.words ≤ p.inOff) && p.outOff % 64 == 0 &&
  decide (64 ≤ p.outLen) && decide (p.outLen ≤ 0x100000) && decide (p.outOff + p.outLen ≤ size) &&
  decide (1 ≤ fld b 40 4) && decide (fld b 40 4 ≤ 65535) && (slice b 80 48).all (· == 0)

/-- The commands of a pack: offset, header and operand words. -/
def packGroups (pack : List Byte) (words : Nat) : Option (List (Nat × Nat × List Nat)) :=
  groupsOf 0 ((chunksOf 8 words (slice pack 128 (8 * words))).map leNat) words

/-- The commons address fields of an operator's words: word, high bit, low bit. -/
def addrFields (kind : Nat) (h : Hdr) : List (Nat × Nat × Nat) :=
  let a (i : Nat) : Nat × Nat × Nat := (i, 63, 42)
  let w (i : Nat) : Nat × Nat × Nat := (i, 58, 37)
  let s (i : Nat) : Nat × Nat × Nat := (i, 36, 15)
  match kind, h.op with
  | 0, 0x12 => [a 0, w 1, s 1, a 2]
  | 0, 0x13 => [a 0, s 1, a 2]
  | 0, 0x14 => [a 0, s 1, a 2]
  | 0, 0x18 => [a 0, a 1, a 2]
  | 0, 0x19 => [a 0, a 1, s 2, a 3]
  | 0, _ => [a 0, a 1, s 2, a 3]
  | 1, _ => [a 0, (1, 39, 18), w 2, s 2, a 3, a 4] ++ (if h.preempt then [(3, 27, 6)] else [])
  | 2, 0x30 => [a 0, a 1, (1, 38, 17), a 2, a 3]
  | 2, _ => [a 0, (1, 51, 30), a 2]
  | _, 0x41 => [a 0, s 2, a 3]
  | _, _ => [a 0, w 2, s 2, a 3]

/-- A command's operand words with the area's base, in units of 64 bytes, added to every address field (R620). -/
def rebase (kind : Nat) (h : Hdr) (base : Nat) (ops : List Nat) : List Nat :=
  (addrFields kind h).foldl (fun ops f =>
    listUpd ops f.1 (fun w => setBits w f.2.1 f.2.2 ((bits w f.2.1 f.2.2 + base / 64) % 2 ^ (f.2.1 + 1 - f.2.2)))) ops

/-- A layer of a pack's SCAN, whose table holds offsets as the command's words do. -/
def ScanLayer.rebased (y : ScanLayer) (base : Nat) : ScanLayer :=
  { y with e := { y.e with waddr := y.e.waddr + base, lam := y.e.lam + base, out := y.e.out + base } }

/-- The operands need a field, a stream or a furrow: SRC, DIGEST, APPEND, or the counters of CN (R620, R621). -/
def needsField (kind : Nat) (h : Hdr) (ops : List Nat) : Bool :=
  if kind = 0 then h.op == 0x1C || (h.op == 0x12 && (MatS.of (opWord ops 1)).src != 0)
  else if kind = 1 then h.op == 0x21 || (AttU.of (opWord ops 2)).src != 0
  else if kind = 2 then false
  else (WinS.of (opWord ops 2)).src != 0 || (WinCmd.of h ops).cn.isSome

/-- The ranges that a pack's command names, and those it writes, with its addresses rebased. -/
def State.packRanges (s : State) (kind : Nat) (h : Hdr) (ops : List Nat) (base : Nat) : List (Nat × Nat) × List (Nat × Nat) :=
  if kind = 2 ∧ h.op = 0x30 then
    let c := Scan.of ops
    let ls := (s.scanLayers c).map (fun y => y.rebased base)
    ((c.l.table, 32 * c.l.layers) :: (if c.l.mk_ then [(c.l.mark, 32)] else []) ++ scanRanges c ls, scanOuts c ls)
  else
    (cmdRanges kind h ops, outRanges kind h ops)

/-- The range lies in the stretch of `n` bytes from `a`. -/
def within (r : Nat × Nat) (a n : Nat) : Bool := decide (a ≤ r.1) && decide (r.1 + r.2 ≤ a + n)

/-- Two stretches share a byte. -/
def overlap (a n b m : Nat) : Bool := decide (0 < n) && decide (0 < m) && decide (a < b + m) && decide (b < a + n)

/-- The load checks of the operator itself (R189, R228, R335). -/
def packCmdOk (kind : Nat) (h : Hdr) (ops : List Nat) (scratch : Region) : Bool :=
  if kind = 0 then matOk h ops
  else if kind = 1 then attOk h ops 64 scratch
  else if kind = 2 then true
  else winOk h ops

/-- The first item of R620 that a pack at `addr` of an area from `base` fails, numbered in the rule's order: 0 the signature,
1 the header, 2 a command that does not decode, 3 a class, 4 an operand, 5 a range, 6 the output region; `pack` holds its
bytes with the signature block. -/
def State.packBad (s : State) (base size addr : Nat) (pack : List Byte) : Option Nat :=
  let p := PackHdr.of pack
  let sig := p.inOff + p.inLen
  if !sigBlockOk s.sx.owners.getLast? pack sig (sdMagic ++ sha256 (pack.take sig)) then some 0
  else if !packHdrOk pack size then some 1
  else match packGroups pack p.words with
    | none => some 2
    | some gs =>
      let out := base + p.outOff
      let cmds := (gs.filter (fun g => hClass g.2.1 == 1)).map (fun g =>
        (Hdr.of g.2.1, g.2.2, rebase p.kind (Hdr.of g.2.1) base g.2.2))
      if gs.any (fun g => !decodes p.kind g.2.1 g.2.2) || cmds.any (fun g => !packCmdOk p.kind g.1 g.2.2 s.part.scratch) then
        some 2
      else if gs.any (fun g => !([0x00, 0x01, 0x0A].contains (hClass g.2.1))) then some 3
      else if cmds.any (fun g => needsField p.kind g.1 g.2.1) then some 4
      else if cmds.any (fun g =>
          let (all, outs) := s.packRanges p.kind g.1 g.2.2 base
          !(all.all (fun r => within r (addr + p.inOff) p.inLen || within r out p.outLen)) ||
          !(outs.all (fun r => within r out p.outLen))) then some 5
      else if overlap out p.outLen addr pack.length ||
          s.sd.packs.any (fun q => overlap out p.outLen q.2.addr q.2.len) then some 6
      else none

/-- PACK_REFUSED is posted with the slot and the failing item. -/
def State.refusePack (s : State) (slot item : Nat) : State := s.postOwner Code.packRefused 44 (natLE 1 slot ++ natLE 1 item)

/-- SD_LOAD's effect (R620, R631). -/
def State.loadPack (s : State) (slot off : Nat) : State × Nat :=
  let base := 0x200000 * s.getF Reg.sdArea 14 8
  let size := 0x200000 * s.getF Reg.sdArea 6 0
  let addr := base + off
  let sig := fld (s.read addr 24) 16 4 + fld (s.read addr 24) 20 4
  let len := sig + sigBlockLen (s.read (addr + sig) 8) 0
  if s.getF Reg.sdArea 6 0 = 0 ∨ !s.part.scratch.holds base size ∨ 15 < slot ∨ size < off + len then (s.refusePack slot 1, Code.packRefused)
  else
    let pack := s.read addr len
    match s.packBad base size addr pack with
    | some i => (s.refusePack slot i, Code.packRefused)
    | none => ({ s with sd := { s.sd with packs := Map.put s.sd.packs slot ⟨base, addr, len, sha256 pack⟩ } }, Code.ok)

/-- SD_LOAD (R620): a load into the slot of the running sounding waits for its verdict. -/
def execSdLoad (r : Role) (rid slot off : Nat) (s : State) : Host.Outcome State Fault Refusal :=
  if s.sd.run.any (fun q => q.1 == slot) then .next s
  else .next (s.message r rid Msg.sdLoad 0 (fun s =>
    let (s, c) := s.loadPack slot off
    (s, c, [])))

/-! ### Starting a sounding (R622) -/

/-- The header of a loaded pack. -/
def State.packHdr (s : State) (p : Pack) : PackHdr := PackHdr.of (s.read p.addr 128)

/-- A free state slot. -/
def State.freeSlotList (s : State) : List Nat := (List.range s.slotTotal).filter (fun k => (Map.find s.se.slots k).isNone)

/-- The slots whose pack may run on engine `e` now; `recent` holds the pairs that ran within their PERIOD. -/
def State.packsFor (s : State) (e : Nat) (recent : List (Nat × Nat)) : List Nat :=
  (s.sd.packs.filter (fun q =>
    let h := s.packHdr q.2
    h.kind == engineKind e && !recent.contains (q.1, e) && (!bit h.flags 0 || s.fenced e) &&
    (e != 7 || !s.freeSlotList.isEmpty))).map Prod.fst

/-- Engine `e` may be sounded: ungated, and fenced or idle with no strand waiting for its kind. -/
def State.soundable (s : State) (idle : List Nat) (e : Nat) : Bool :=
  s.engineOn e && !s.inReset e && (s.engine e).strand.isNone &&
  (s.fenced e || (idle.contains e && !s.readyStrands.any (fun p => s.tapeKind p.2.2.tape == engineKind e)))

/-- The output region is zeroed and the engine taken, on SE with a blank state slot of no field. -/
def State.beginSounding (s : State) (n e : Nat) (p : Pack) : State :=
  let h := s.packHdr p
  let s := s.zero (p.base + h.outOff) h.outLen
  if e = 7 then
    let free := s.freeSlotList
    let (i, s) := s.pick free.length
    let k := (free[i]?).getD 0
    let s := { s with se := { s.se with slots := Map.put s.se.slots k ⟨0xFFFF, 0, 0, 0, 0⟩ } }
    let s := (s.write (s.slotBank k 0) blankBank).write (s.slotBank k 1) blankBank
    { s with sd := { s.sd with run := some (n, e, some k), failed := false } }
  else { s with sd := { s.sd with run := some (n, e, none), failed := false } }

/-- SOUNDING_START (R620, R622): the first eligible engine, and one of the packs that may run on it (log 8); a pack whose
bytes have changed is dropped. -/
def execSoundingStart (idle : List Nat) (recent : List (Nat × Nat)) (s : State) : Host.Outcome State Fault Refusal :=
  if !s.sdUp ∨ s.pw.rung ≠ .run ∨ s.getF Reg.sdCtl 31 31 = 0 ∨ s.sd.run.isSome then .next s
  else match (List.range 11).find? (fun e => s.soundable idle e && !(s.packsFor e recent).isEmpty) with
    | none => .next s
    | some e =>
      let ns := s.packsFor e recent
      let (i, s) := s.pick ns.length
      let n := (ns[i]?).getD 0
      match Map.find s.sd.packs n with
      | none => .next s
      | some p =>
        let s := s.check Reg.sdInject Reg.sdErr 1 44 none
        if sha256 (s.read p.addr p.len) ≠ p.sha then
          .next (({ s with sd := { s.sd with packs := Map.del s.sd.packs n } }).refusePack n 0)
        else .next (s.beginSounding n e p)

/-! ### Running a pack (R621, R623) -/

/-- SCAN or HOLD over the sounding's own slot. -/
def State.soundState (s : State) (v : Env) (ops : List Nat) (base k : Nat) : OpResult :=
  let r : StreamRec := ⟨1, false, false, 1, k, 0⟩
  if v.h.op = 0x30 then
    let c := Scan.of ops
    let ls := (s.scanLayers c).map (fun y => y.rebased base)
    match s.scanFault c r ls with
    | some _ => (s, some (0, .shape))
    | none =>
      match s.scanLoad v c 0 ls with
      | (s, none) => (s.scanRun v c [k] ls, none)
      | q => q
  else
    let x := StX.of (opWord ops 0)
    let h := StH.of (opWord ops 1)
    let nblk := ceilDiv ((h.taps - 1) * x.k) 192
    if 63 < h.boff + nblk ∨ (List.range nblk).any (fun b =>
        let q := s.getBlock [k] (h.boff + b)
        q.1 != 255 && !(q.1 == 1 && q.2.all (· == 0))) then (s, some (0, .shape))
    else (s.holdRun x h (RowY.of (opWord ops 2)) [k] nblk, none)

/-- The work of one operator of a pack, as on its engine. -/
def State.soundWork (s : State) (v : Env) (kind : Nat) (ops : List Nat) (base k : Nat) : OpResult :=
  if kind = 0 then
    match v.h.op with
    | 0x10 => s.gateWork v ops
    | 0x11 => s.addWork v ops
    | 0x12 => s.projGroups v ⟨MatX.of (opWord ops 0), MatS.of (opWord ops 1), MatY.of (opWord ops 2), v.h.rep + 1⟩
    | 0x13 => s.sumqWork v ops
    | 0x14 => s.rmsnormWork v ops
    | 0x18 => (s.outerRows v (MatX.of (opWord ops 0)) (MatX.of (opWord ops 1)) (MatY.of (opWord ops 2)), none)
    | _ => s.updateRows v (MatY.of (opWord ops 0)) (MatG.of (opWord ops 1)) (MatS.of (opWord ops 2)) (MatY.of (opWord ops 3))
  else if kind = 1 then
    match s.attPair v (Attend.of ops) with
    | (s, none) => (s.attOutputs v (Attend.of ops) 0 [], none)
    | q => q
  else if kind = 2 then s.soundState v ops base k
  else
    let w := WinCmd.of v.h ops
    if w.oht = 0 ∨ w.owt = 0 then ((s.setF (Reg.engStatus v.eng) 28 28 1).bump16 (Reg.weEmptycmds v.eng) 1 none, none)
    else s.winRun { v with map := w.map } w 0 (ceilDiv (w.rows.2 * w.owt) 64)

/-- A failed group of a sounding's command: the engine's bits are set as in a step. A sounding has no step to replay and no
field: its skew sets SYNC, is counted, and is posted to the owner alone, and SKEW stays as it is (log 72). -/
def State.soundFault (s : State) (e i : Nat) (g : GroupFault) : State :=
  match g with
  | .shape => s
  | .badScale => s.setF (Reg.quStatus e) 2 2 1
  | .skew a b => ((s.setF (Reg.quStatus e) 0 0 1).bump16 (Reg.quSynccnt e) 1 none).postOwner Code.quSync e
      (natLE 1 e ++ natLE 4 i ++ natLE 1 a ++ natLE 1 b)

/-- The checks that an operator's accesses make, and the units that make them (R607). -/
def soundChecks (kind : Nat) (h : Hdr) (ops : List Nat) : Nat × Nat :=
  let y := MatY.of (opWord ops 2)
  let q := AttQ.of (opWord ops 0)
  let w := WinCmd.of h ops
  if kind = 0 then (if h.op = 0x12 then (7, min 8 (ceilDiv y.n y.group)) else (6, 8))
  else if kind = 1 then (7, min 4 (q.q * q.g))
  else if kind = 2 then (if h.op = 0x30 then (15, (Scan.of ops).l.layers) else (2, 8))
  else (if w.pool then 6 else 7, min 8 w.units)

/-- The bytes of the area that a pack's command reads, with its addresses rebased. -/
def State.packReads (s : State) (kind : Nat) (h : Hdr) (ops : List Nat) (base : Nat) : List (Nat × Nat) :=
  if kind = 0 then matReads h ops
  else if kind = 1 then attReads h ops
  else if kind = 2 then
    (if h.op = 0x30 then
      let c := Scan.of ops
      s.scanReads c ((s.scanLayers c).map (fun y => y.rebased base))
    else holdReads ops)
  else
    let w := WinCmd.of h ops
    if w.oht = 0 ∨ w.owt = 0 then [] else w.streamReads ++ w.inReads w.rows.1 w.rows.2

/-- One command of a pack: the state after it, and whether it completed. -/
def State.soundCmd (s : State) (e kind seed base k : Nat) (h : Nat) (ops : List Nat) : State × Bool :=
  if hClass h ≠ 1 then (s, true)
  else
    let hd := Hdr.of h
    let ops := rebase kind hd base ops
    let first := ((opForm kind hd.op).map Prod.fst).getD 0
    let map := if hd.words = first + 1 ∧ kind ≤ 2 then some (opWord ops first) else none
    let v : Env := ⟨e, 0xFFFF, 8, seed, 0, hd, map, []⟩
    let (s, poison) := (s.packReads kind hd ops base).foldl (fun (a : State × Bool) r =>
      let (s, p) := a.1.cmRead r.1 r.2
      (s, a.2 || p)) (s, false)
    let s := s.bump32 (Reg.engCmds e) 1 none
    if poison then (s, false)
    else match (s.engChecks v (soundChecks kind hd ops).1 (soundChecks kind hd ops).2).soundWork v kind ops base k with
      | (s, none) => (s, true)
      | (s, some (i, g)) => (s.soundFault e i g, false)

/-- The commands of a pack in order, up to one that fails. -/
def State.soundRun (s : State) (e kind seed base k : Nat) : List (Nat × Nat × List Nat) → State
  | [] => s
  | g :: gs =>
    match s.soundCmd e kind seed base k g.2.1 g.2.2 with
    | (s, true) => s.soundRun e kind seed base k gs
    | (s, false) => s

/-- The verdict of the sounding of slot `n` on engine `e` (R623). -/
def State.soundVerdict (s : State) (n e id : Nat) (pass : Bool) : State :=
  let s := { s with sd := { s.sd with run := none, failed := false } }
  if pass then (s.setReg (Reg.sdLast e) (0x40000000 + n * 65536)).bump Reg.sdCnt 15 0 48 1 none
  else
    let s := (s.setReg (Reg.sdLast e) (0x80000000 + n * 65536)).bump Reg.sdCnt 47 32 50 1 none
    let s := (s.detect Reg.sdErr 0 44 none).fence e
    let s := s.postOwner Code.soundingFail 44 (natLE 1 e ++ natLE 4 id)
    if s.getF Reg.wpCtl 29 29 = 1 then s.fireWaypoint 65 else s

/-- SOUNDING_VERDICT (R621, R623): the pack has run on its engine, and its output region is hashed and compared. A pulse of
the engine's own detectors fails the sounding. -/
def execSoundingVerdict (s : State) : Host.Outcome State Fault Refusal :=
  match s.sd.run with
  | none => .next s
  | some (n, e, slot) =>
    match Map.find s.sd.packs n with
    | none => .next s
    | some p =>
      if !s.sdUp ∨ !s.engineOn e ∨ s.inReset e then .next s
      else
        let h := s.packHdr p
        let gs := (packGroups (s.read p.addr (128 + 8 * h.words)) h.words).getD []
        let s := s.soundRun e h.kind h.seed p.base (slot.getD 0) gs
        let s := match slot with
          | none => s
          | some k => { s with se := { s.se with slots := Map.del s.se.slots k } }
        let hurt := s.sd.failed || s.fc.pulses.any (fun (q : Pulse) => q.bit == e && q.step.any (fun m => m.1 == 0xFFFF))
        let wrong := s.armed Reg.sdInject 1
        let s := if wrong then s.setF Reg.sdInject 1 1 0 else s
        let same := sha256 (s.read (p.base + h.outOff) h.outLen) == h.digest
        .next (s.soundVerdict n e h.id (same && !hurt && !wrong))

/-! ### Waypoints (R628, R629) -/

/-- Block `b` is clocked and powered when the trigger reaches it. -/
def State.latches (s : State) (b : Nat) : Bool :=
  if b ≤ 10 then s.engineOn b
  else if b = 11 then (s.ip.ports.any IpPort.running || bit s.blockMask 0) && !s.domainHeld 12 && !s.domainHeld 25
  else if b = 12 ∨ b = 13 then s.islandUp && s.af.running && !s.domainHeld 37
  else if b = 14 then !s.domainHeld 11
  else if b = 15 then !s.domainHeld 24
  else if b = 31 then !s.domainHeld 16
  else if b = 32 then !s.domainHeld 18
  else if 33 ≤ b ∧ b ≤ 36 then
    ((s.port (b - 33)).state != 0 || bit s.blockMask (b - 29)) && !s.domainHeld 19 && !s.domainHeld (28 + (b - 33))
  else if b = 38 then !s.domainHeld 17
  else if b = 39 then !s.domainHeld 15
  else if b = 44 then s.getF Reg.sdCtl 31 31 == 1 && !s.domainHeld 23
  else true

end Sys2Proof.Machine
end

