-- ==== Sys2Proof/Machine/Flags.lean ====
section
/-!
DEFINITION. The status words: every register that a block computes from its own state rather than stores (the ro
fields of the register tables of chapters 6 to 21), what a field session and the open role see of a register (R578), and
the waypoint snapshots (R628, R629).
-/
namespace Sys2Proof.Machine

/-! ### Status of the engines (R204, R236, R312, R339) -/

/-- The context whose strand holds engine `e`; 0xFFFF when idle. -/
def State.engCtx (s : State) (e : Nat) : Nat :=
  match (s.engine e).strand with
  | none => 0xFFFF
  | some (c, _) => c

/-- The command on engine `e` waits inside itself: for a furrow segment, the walker, its stream, a staging half, a halo
row or digests. -/
def State.engStalls (s : State) (e : Nat) : Bool := (s.engWaits e).any Wait.inner

/-- The wait bit [29] of an engine's STATUS: a furrow segment (ME), the walker (AE), R304 (SE), R329 or R330 (WE). A running
ATTEND waits for the walker while a block of its walk has not come. -/
def State.engWaitBit (s : State) (e : Nat) : Bool :=
  (s.engWaits e).any (Wait.counts e) || (s.innerWait e).any (Wait.counts e)

/-- A sounding uses engine `e` (R621). -/
def State.sounds (s : State) (e : Nat) : Bool := s.sd.run.any (fun r => r.2.1 == e)

/-- STATUS of engine `e`, over its stored EMPTY bit. -/
def State.engStatusWord (s : State) (e v : Nat) : Nat :=
  b2n (s.runsCommand e || s.engStalls e || s.sounds e) * 2 ^ 31 + b2n (s.fenced e) * 2 ^ 30 +
    b2n (s.engWaitBit e) * 2 ^ 29 + bits v 28 28 * 2 ^ 28 + s.engCtx e

/-! ### Records shown by a SEL register -/

/-- The copy of the SEL register of block `b` that a role holds (R276, R312, R390, R446). -/
def State.selOf (s : State) (b : Nat) (r : Role) : Nat := (Map.get s.sel (16 * b + r.code) 0).toNat

/-- The stream record of R285. -/
def StreamRec.word (r : StreamRec) : Nat :=
  r.state * 2 ^ 61 + b2n r.zero * 2 ^ 60 + b2n r.lost * 2 ^ 59 + (r.nslot - 1) * 2 ^ 56 + r.first * 2 ^ 45 +
    r.swap / 4096 * 2 ^ 17

/-- The KV record of R249. -/
def KvRec.word (r : KvRec) : Nat :=
  r.flush * 2 ^ 62 + r.half * 2 ^ 61 + b2n r.walk * 2 ^ 60 + b2n r.held * 2 ^ 59 + r.tc * 2 ^ 42 +
    r.stage / 64 * 2 ^ 20 + b2n r.both * 2 ^ 19

/-- Word 0 of the descriptor of R363. -/
def Page.word0 (p : Page) (o : Option Obj) : Nat :=
  2 ^ 63 + b2n p.busy * 2 ^ 62 + p.mig * 2 ^ 59 + p.home * 2 ^ 57 + b2n p.shadow * 2 ^ 56 +
    b2n (o.any Obj.ro) * 2 ^ 55 + b2n (o.any Obj.shared) * 2 ^ 54 + b2n p.poison * 2 ^ 53 +
    b2n (o.any Obj.quar) * 2 ^ 52 + p.hint * 2 ^ 48 + p.pins * 2 ^ 40 + p.obj * 2 ^ 28 + p.loc

/-- Word 1 of the descriptor of R363. -/
def Page.word1 (p : Page) : Nat := p.shome * 2 ^ 62 + p.sloc * 2 ^ 34 + p.hits * 2 ^ 28 + p.use

/-- The descriptor words of the page that a TU.SEL value names; zero for a page that is not mapped. -/
def State.descWords (s : State) (sel : Nat) : Nat × Nat :=
  match s.page (bits sel 42 40) (bits sel 23 0) with
  | none => (0, 0)
  | some p => (p.word0 (Map.find s.tu.objs p.obj), p.word1)

/-- The state code of R418. -/
def State.ctxState (s : State) (c : Nat) : Nat :=
  match s.ctx c with
  | none => 0
  | some x =>
    let strands := match x.running with | none => [] | some j => j.strands
    if x.halted then 8
    else if (s.kv c).flush = 2 then 7
    else if s.dx.switchQ.contains c then 3
    else if strands.any (fun t => t.engine.isSome) then 5
    else if strands.any (fun t => t.wait.isNone || t.wait == some .stream) then 4
    else if x.running.isSome then 6
    else if x.queue.isEmpty then 1 else 2

/-- DX.REC of a context (R446). -/
def State.ctxRecord (s : State) (c : Nat) : Nat :=
  match s.ctx c with
  | none => 0
  | some x =>
    s.ctxState c * 2 ^ 60 + x.field * 2 ^ 57 + b2n x.sow.isSome * 2 ^ 56 + x.queue.length * 2 ^ 52 +
      ((x.sow.map (fun w => w.2.2)).getD 0) * 2 ^ 44 + x.step.toNat

/-- DX.RECJOBS of a context: completed jobs in the layout of R205 (R443). -/
def State.ctxJobs (s : State) (c : Nat) : Nat :=
  match s.ctx c with
  | none => 0
  | some x => min x.completed 0xFFFFFFFF + (if 0xFFFFFFFF ≤ x.completed then 2 ^ 32 else 0)

/-! ### Status of the other blocks -/

/-- IP.PORTp.STATUS over its stored FLICKER (R507). -/
def State.portStatus (s : State) (p v : Nat) : Nat :=
  let q := s.camera p
  b2n q.running * 2 ^ 31 + b2n q.frame.isSome * 2 ^ 30 + (if q.running then s.cameraRate p else 0) * 2 ^ 8 + bits v 1 0

/-- AF.STATUS (R477). -/
def State.afStatusWord (s : State) : Nat :=
  b2n s.af.array.isSome * 2 ^ 31 + b2n (s.af.array.isSome && s.af.splice.isNone) * 2 ^ 30 + s.af.streams.length

/-- LO.STATUS (R477). -/
def State.loStatusWord (s : State) : Nat :=
  b2n s.lo.session.isSome * 2 ^ 31 + b2n s.lo.model1.isSome * 2 ^ 30 + b2n s.lo.model0.isSome * 2 ^ 29

/-- MC.TSTAT over its stored masks (R667). -/
def State.tstatWord (s : State) (v : Nat) : Nat :=
  b2n s.mcStage.isSome * 2 ^ 63 + b2n (s.mcStage.any (fun t => t.1 == 7)) * 2 ^ 62 + bits v 47 0

/-- TU.FURROW (R390). -/
def State.furrowWord (s : State) : Nat :=
  match s.tu.sow with
  | none => s.segments * 2 ^ 16
  | some w => 2 ^ 31 + s.segments * 2 ^ 16 + w.filled.length * 2 ^ 8 + w.flight.length

/-- TU.SOW (R390). -/
def State.sowWord (s : State) : Nat :=
  match s.tu.sow with
  | none => 0xFFFF * 2 ^ 48
  | some w => w.ctx * 2 ^ 48 + w.list / 64 * 2 ^ 26 + w.entries

/-- Pages of field `f` that a home holds. -/
def State.pagesIn (s : State) (f home : Nat) : Nat :=
  (s.tu.pages.filter (fun p => p.1 / 2 ^ 24 == f && p.2.home == home)).length

/-- TU.FIELDf over its stored KVHINT (R390). -/
def State.tuFieldWord (s : State) (f v : Nat) : Nat :=
  bits v 63 60 * 2 ^ 60 + s.pagesIn f 1 * 2 ^ 44 + s.pagesIn f 2 * 2 ^ 24 + s.pagesIn f 3 * 2 ^ 4

/-- KM.FRAMEQ (R276): HEAD is 0 while no frame is free. -/
def State.frameqWord (s : State) : Nat := s.km.free * 2 ^ 32 + (if s.km.free = 0 then 0 else s.km.head)

/-- KM.FIELDf (R276). -/
def State.kmFieldWord (s : State) (f : Nat) : Nat :=
  s.heldFrames f * 2 ^ 32 + s.nodeCount f * 2 ^ 16 +
    (s.km.recs.filter (fun p => p.2.flush == 2 && s.ctxField p.1 == some f)).length

/-- DX.ROUND (R446): how far the open slot has gone is a free value, for the model has no clock. -/
def State.roundWord (s : State) : Nat :=
  if s.fields.any FieldRec.isolated then 2 ^ 31 + s.dx.phase * 2 ^ 24 + Config.freeNat s.free % 2 ^ 16 else 0

/-- The engines gated under R32: in Run, those that no claim ungates. -/
def State.gatedOff (s : State) (e : Nat) : Bool :=
  s.pw.rung == .run && !bit s.runMask e && !(e == 10 && s.visionGate)

/-- A mask of the engines that satisfy a predicate. -/
def engMask (p : Nat → Bool) : Nat := ((List.range 11).map (fun e => if p e then 2 ^ e else 0)).sum

/-- DX.ENGINES (R446). -/
def State.enginesWord (s : State) : Nat := engMask s.gatedOff * 2 ^ 16 + engMask s.fenced

/-- LX.STATUS (R570). -/
def State.lxStatusWord (s : State) (p : Nat) : Nat :=
  let t := s.port p
  t.state * 2 ^ 28 + (if t.state = 4 then t.peer * 2 ^ 18 + t.pport * 2 ^ 16 else 0)

/-- SX.STATUS (R602). -/
def State.sxStatusWord (s : State) : Nat :=
  b2n s.image.isSome * 2 ^ 31 + b2n s.load.isSome * 2 ^ 30 + b2n s.sx.epoch.isSome * 2 ^ 29 +
    b2n (decide (8064 ≤ s.sx.tallyBurnt)) * 2 ^ 28 + b2n s.tallySpent * 2 ^ 27 + s.sx.owners.length * 2 ^ 24 +
    ((s.sx.epoch.map Prod.snd).getD 0) % 1024

/-- SX.KEYS (R602). -/
def State.sxKeysWord (s : State) : Nat :=
  b2n (s.sessionKey .owner).isSome * 2 ^ 24 +
    ((List.range 8).map (fun f => if (Map.find s.sx.sessionKeys f).isSome then 2 ^ (16 + f) else 0)).sum +
    s.sx.kems.length * 2 ^ 8 + s.sx.modelKeys.length

/-- HP.STATUS (R667). -/
def State.hpStatusWord (s : State) : Nat :=
  b2n s.hp.dtr * 2 ^ 31 + b2n s.image.isSome * 2 ^ 30 + b2n s.load.isSome * 2 ^ 29 + min s.hp.outq.length 0xFFFF

/-- The standing rung of R31 as PW.STATUS shows it: after an exit from Fallow a claim may stand above the Doze that the
device holds (R526). -/
def State.standShown (s : State) : Rung :=
  if s.pw.rung = .fallow ∧ s.pw.claims.isEmpty then .fallow else if s.safe then .doze else s.claimed

/-- PW.STATUS (R537). -/
def State.pwStatusWord (s : State) : Nat :=
  s.pw.rung.code * 2 ^ 29 + s.standShown.code * 2 ^ 26 + b2n s.pw.entry.isSome * 2 ^ 25 + b2n s.pw.window * 2 ^ 24 +
    s.pw.level * 2 ^ 20 +
    b2n (s.pw.hostClaim == some .run || (s.image.isSome && s.jobDemand)) * 2 ^ 16 +
    ((List.range 14).map (fun h => if s.pw.claims.any (fun c => c.hail == h) then 2 ^ h else 0)).sum

/-- The code of clock domain `d` (R135). -/
def State.domainCode (s : State) (d : Nat) : Nat :=
  match s.pw.island with
  | none => 0
  | some (_, ds, _) => (ds[d]?).getD 0

/-- Clock domain `d` of R679 has work, so that its gating owner lets it run; the blocks of R656 run without an image. -/
def State.domainBusy (s : State) (d : Nat) : Bool :=
  if d ≤ 10 then (s.pw.rung == .run && bit s.runMask d) || (d == 10 && s.visionGate)
  else if d = 12 ∨ d = 25 then s.ip.ports.any IpPort.running || bit s.blockMask 0
  else if d = 13 ∨ d = 26 then s.mcStage.isSome || (s.pw.rung == .run && s.getF Reg.mcTstat 31 16 != 0)
  else if 15 ≤ d ∧ d ≤ 18 then s.image.isSome || bit s.blockMask ([8, 2, 1, 3].getD (d - 15) 8)
  else if d = 19 then s.lx.ports.any (fun t => t.state != 0) || s.blockMask / 16 != 0
  else if d = 23 then s.getF Reg.sdCtl 31 31 == 1
  else if 28 ≤ d ∧ d ≤ 31 then (s.port (d - 28)).state != 0 || bit s.blockMask (d - 24)
  else if 32 ≤ d ∧ d ≤ 35 then (s.camera (d - 32)).running
  else true

/-- Clock domain `d` runs (R510, R679): its source is there on this rung, and it has work or is held running by code 1;
code 2 holds it stopped. An engine's domain can run in Run alone, EE's also for the gate. -/
def State.domainRuns (s : State) (d : Nat) : Bool :=
  let source :=
    if d ≤ 9 then s.coreUp && s.pw.rung == .run
    else if d = 10 then s.coreUp && (s.pw.rung == .run || s.visionGate)
    else if d = 13 ∨ d = 26 then s.coreUp && s.pw.dramEn
    else if d ≤ 35 then s.coreUp
    else if d = 36 then s.islandUp
    else if d = 37 then s.islandUp && s.af.running
    else if d = 38 then s.getF Reg.ckStatus 28 28 == 1
    else decide (Rung.height .listen ≤ s.pw.rung.height) && s.getF Reg.ckStatus 30 30 == 1
  source && s.domainCode d != 2 && (s.domainBusy d || s.domainCode d == 1)

/-- CK.RUN (R689). -/
def State.ckRunWord (s : State) : Nat := ((List.range 40).map (fun d => if s.domainRuns d then 2 ^ d else 0)).sum

/-- SD.STATUS (R631). -/
def State.sdStatusWord (s : State) : Nat :=
  match s.sd.run with
  | none => 0x1F * 2 ^ 16
  | some (n, e, _) => 2 ^ 31 + e * 2 ^ 16 + n

/-- SD.LOADED (R631). -/
def State.sdLoadedWord (s : State) : Nat :=
  ((List.range 16).map (fun n => if (Map.find s.sd.packs n).isSome then 2 ^ n else 0)).sum

/-! ### The value a register shows -/

/-- The SE, IP, AF, LO, MC and TU registers that are computed; `v` is what is stored. -/
def State.liveA (s : State) (r : Role) (b o v : Nat) : Nat :=
  let sel := s.selOf b r
  if b = 7 ∧ o = 0x20 then s.slotTotal - s.se.slots.length
  else if b = 7 ∧ o = 0x24 then sel
  else if b = 7 ∧ o = 0x28 then ((s.stream sel).map StreamRec.word).getD 0
  else if b = 7 ∧ 0x40 ≤ o ∧ o < 0x80 then s.heldSlots ((o - 0x40) / 8) * 2 ^ 48 + bits v 33 0
  else if b = 11 ∧ 0x100 ≤ o ∧ o < 0x200 ∧ o % 64 = 4 then s.portStatus ((o - 0x100) / 64) v
  else if b = 12 ∧ o = 0x8 then s.afStatusWord
  else if b = 12 ∧ o = 0x14 then s.lastSample % 2 ^ 32
  else if b = 12 ∧ o = 0x18 then b2n s.af.splice.isSome * 2 ^ 32 + bits v 31 0
  else if b = 13 ∧ o = 0x4 then s.loStatusWord
  else if b = 15 ∧ o = 0 then v + ((s.image.map Image.dram).getD 0) % 8 * 2 ^ 16
  else if b = 15 ∧ o = 0x18 then s.tstatWord v
  else if b = 31 ∧ o = 0x14 then s.furrowWord
  else if b = 31 ∧ o = 0x18 then s.sowWord
  else if b = 31 ∧ o = 0x20 then sel
  else if b = 31 ∧ o = 0x28 then (s.descWords sel).1
  else if b = 31 ∧ o = 0x30 then (s.descWords sel).2
  else if b = 31 ∧ 0x80 ≤ o ∧ o < 0xC0 then s.tuFieldWord ((o - 0x80) / 8) v
  else v

/-- The LX, SX, KM, DX, HP, PW, CK, WP, SD and FC registers that are computed. -/
def State.liveB (s : State) (r : Role) (b o v : Nat) : Nat :=
  let sel := s.selOf b r
  if 33 ≤ b ∧ b ≤ 36 ∧ o = 0x18 then s.lxStatusWord (b - 33)
  else if b = 37 ∧ o = 0x4 then s.sxStatusWord
  else if b = 37 ∧ o = 0x10 then s.sx.tallyBurnt
  else if b = 37 ∧ o = 0x18 then s.sxKeysWord
  else if b = 38 ∧ o = 0 then v + ((s.image.map Image.frame).getD 0) % 4 * 2 ^ 16
  else if b = 38 ∧ o = 0x10 then s.frameqWord
  else if b = 38 ∧ o = 0x18 then sel
  else if b = 38 ∧ o = 0x20 then (s.kv sel).word
  else if b = 38 ∧ 0x40 ≤ o ∧ o < 0x80 then s.kmFieldWord ((o - 0x40) / 8)
  else if b = 39 ∧ o = 0x10 then s.roundWord
  else if b = 39 ∧ o = 0x18 then s.enginesWord
  else if b = 39 ∧ o = 0x1C then sel
  else if b = 39 ∧ o = 0x20 then s.ctxRecord sel
  else if b = 39 ∧ o = 0x28 then s.ctxJobs sel
  else if b = 40 ∧ o = 0x4 then s.hpStatusWord
  else if b = 41 ∧ o = 0x4 then s.pwStatusWord
  else if b = 42 ∧ o = 0x10 then s.ckRunWord
  else if b = 43 ∧ o = 0x8 then bits v 30 0 + s.getF Reg.wpCtl 31 31 * 2 ^ 31
  else if b = 44 ∧ o = 0x14 then s.sdStatusWord
  else if b = 44 ∧ o = 0x18 then s.sdLoadedWord
  else if b = 63 ∧ o = 0xC then b2n s.resetBusy * 2 ^ 31
  else v

/-- The value of the register at canonical address `c`, reached through the window of block `b`, as `r`'s SEL copies make
it; a block in reset shows zero (R614). -/
def State.live (s : State) (r : Role) (b c : Nat) : Nat :=
  let o := c % 0x10000
  let v := s.reg c
  if s.inReset b then 0
  else if b ≤ 10 ∧ o = 4 then s.engStatusWord b v
  else if b ≤ 31 then s.liveA r b o v
  else s.liveB r b o v

/-! ### What each role sees (R578 and the chapters' grants) -/

/-- What a session of field `f` sees of an engine's register (R100, R204, R206, R236, R312, R339). -/
def State.fieldEngine (s : State) (f b o v : Nat) : Nat :=
  if b = 7 ∧ o = 0x24 then v
  else if b = 7 ∧ o = 0x28 then if s.ctxField (s.selOf 7 (.field (Fin.ofNat 8 f))) = some f then v else 0
  else if b = 7 ∧ 0x40 ≤ o ∧ o < 0x80 then if o = 0x40 + 8 * f then v else 0
  else if b ≠ 7 ∧ o = 4 then if s.ctxField (bits v 15 0) = some f then v else setBits v 15 0 0xFFFF
  else if b ≤ 4 ∧ 0x100 ≤ o ∧ o < 0x1C0 then if s.getF (Reg.meDgrp (o % 0x40 / 8)) 50 48 = f then v else 0
  else if 0x900 ≤ o ∧ o < 0xD00 then if s.getF (Reg.quWatch b ((o - 0x900) % 0x200 / 8)) 50 48 = f then v else 0
  else 0

/-- The channels of DM that belong to field `f` (R395). -/
def State.fieldChannel (s : State) (f n : Nat) : Bool :=
  let v := s.reg (Reg.dmChCFG n)
  !bit v 62 && bits v 61 59 == f

/-- The ENGINES set of field `f`. -/
def State.fieldEngines (s : State) (f : Nat) : Nat := ((s.fieldRec f).map FieldRec.engines).getD 0

/-- What a session of field `f` sees of the register at offset `o` of block `b`, whose value is `v`. -/
def State.fieldView (s : State) (f b o v : Nat) : Nat :=
  let own (base : Nat) : Bool := o == base + 8 * f
  if b ≤ 10 then s.fieldEngine f b o v
  else if b = 31 then
    if o = 0x20 then v
    else if o = 0x28 ∨ o = 0x30 then if bits (s.selOf 31 (.field (Fin.ofNat 8 f))) 42 40 = f then v else 0
    else if own 0x80 || own 0xC0 then v else 0
  else if b = 32 then
    if o = 0xC then ((List.range 32).map (fun n => if bit v n && s.fieldChannel f n then 2 ^ n else 0)).sum
    else if 0x100 ≤ o ∧ o < 0x900 ∧ s.fieldChannel f ((o - 0x100) / 64) then v else 0
  else if b = 37 then if o = 0x4 ∨ o = 0x10 ∨ o = 0x40 + 4 * f then v else 0
  else if b = 38 then
    if o = 0x18 then v
    else if o = 0x20 then if s.ctxField (s.selOf 38 (.field (Fin.ofNat 8 f))) = some f then v else 0
    else if own 0x40 || own 0x80 then v else 0
  else if b = 39 then
    if o = 0x1C then v
    else if o = 0x20 ∨ o = 0x28 then if s.ctxField (s.selOf 39 (.field (Fin.ofNat 8 f))) = some f then v else 0
    else if o = 0x18 then
      engMask (fun e => bit v (16 + e) && bit (s.fieldEngines f) e) * 2 ^ 16 +
        engMask (fun e => bit v e && bit (s.fieldEngines f) e)
    else if own 0x40 || own 0x80 || own 0xC0 || own 0x100 then v else 0
  else 0

/-- What a role sees of the register at offset `o` of block `b`, whose value is `v` (R578). -/
def State.view (s : State) (r : Role) (b o v : Nat) : Nat :=
  match r with
  | .owner => v
  | .field f => s.fieldView f.val b o v
  | .anon => if b = 37 ∧ (o = 0x4 ∨ o = 0x10) then v else 0

/-- The whole register that a role reads at canonical address `c` through block `b`. -/
def State.shown (s : State) (r : Role) (b c : Nat) : Nat :=
  s.view r b (c % 0x10000) (s.live r b c)

/-! ### Snapshots (R628, R629) -/

/-- SNAP.A and SNAP.B of an engine: the command that runs, its step number, and ERR. -/
def State.snapEngine (s : State) (e : Nat) : Nat × Nat :=
  let err := s.reg (Reg.engErr e)
  match s.runningStep e, (s.engine e).strand with
  | some (c, step), some (_, sid) =>
    let at_ : Nat × Nat := match (s.engine e).running with
      | some r => (r.tape, r.word)
      | none => match s.strandAt c sid with
        | some (_, _, t) => (t.tape, t.pc)
        | none => (0, 0)
    (c * 2 ^ 48 + at_.1 * 2 ^ 32 + at_.2 % 2 ^ 16 * 2 ^ 16, step.toNat * 2 ^ 32 + err)
  | _, _ => (0xFFFF * 2 ^ 48, err)

/-- The registers that a block's snapshot latches: offsets of A and of B. -/
def snapOffsets (b : Nat) : Nat × Nat :=
  if b = 12 then (0x14, 0xC)
  else if b = 13 then (0x4, 0x8)
  else if b = 14 then (0x8, 0x0)
  else if b = 15 then (0x4, 0x8)
  else if b = 31 then (0x14, 0x8)
  else if b = 32 then (0xC, 0x4)
  else if 33 ≤ b ∧ b ≤ 36 then (0x18, 0x8)
  else if b = 38 then (0x10, 0x8)
  else if b = 39 then (0x18, 0x8)
  else if b = 42 then (0x10, 0x8)
  else if b = 43 then (0x8, 0xC)
  else if b = 44 then (0x14, 0xC)
  else if b = 63 then (0x10, 0x28)
  else (0x4, 0x8)

/-- SNAP.A and SNAP.B of a block (R629, R666, R688). -/
def State.snapOf (s : State) (b : Nat) : Nat × Nat :=
  if b ≤ 10 then s.snapEngine b
  else if b = 11 then
    (((List.range 4).map (fun p => b2n (s.camera p).running * 2 ^ (2 * p) + b2n (s.camera p).frame.isSome * 2 ^ (2 * p + 1))).sum,
      s.reg Reg.ipErr)
  else (s.live .owner b (regAddr b (snapOffsets b).1), s.live .owner b (regAddr b (snapOffsets b).2))

/-- Block `b` latches its snapshot, unless its clock stands still when the trigger reaches it: then its VALID stays clear
and its bit is set in WP.MISSING. -/
def State.snap (s : State) (b : Nat) : State :=
  if s.latches b && !s.inReset b then
    let v := s.snapOf b
    let hdr := (Map.get s.hp.evSerial b 0).toNat * 2 ^ 32 + 2 ^ 31 + s.reg Reg.wpTrig % 2 ^ 16
    ((s.setReg (Reg.snapHdr b) hdr).setReg (Reg.snapA b) v.1).setReg (Reg.snapB b) v.2
  else (s.setF (Reg.snapHdr b) 31 31 0).setF Reg.wpMissing b b 1

/-- WAYPOINT (R628): the device has latched; BUSY clears, and FC posts the trigger serial, the cause and WP.MISSING. -/
def execWaypoint (s : State) : Host.Outcome State Fault Refusal :=
  if s.coreUp && s.getF Reg.wpStatus 30 30 == 1 then
    let s := snapBlocks.foldl State.snap (s.setReg Reg.wpMissing 0)
    .next ((s.setF Reg.wpStatus 30 30 0).postOwner Code.waypoint 63
      (natLE 4 (s.reg Reg.wpTrig) ++ natLE 1 (s.getF Reg.wpStatus 6 0) ++ natLE 8 (s.reg Reg.wpMissing)))
  else .next s

end Sys2Proof.Machine
end

