-- ==== Sys2Proof/Machine/Registers.lean ====
section
/-!
DEFINITION. Register accesses of the host (R13 to R19, R578, R647): the device information area, reads with their capture,
and writes with what each register does.
-/
namespace Sys2Proof.Machine

/-! ### The device information area (R663) -/

/-- Fitted GDDR6 in MiB; zero before MEM_READY. -/
def State.fittedMib (s : State) : Nat :=
  let t := s.reg Reg.mcTstat
  if bits t 31 16 ≠ 0 ∨ (bits t 47 32 ≠ 0 ∧ s.mcStage.isNone) then s.dramBytes / 0x100000 else 0

/-- The flags word at offset 0x000C. -/
def State.infoFlags (s : State) : Nat :=
  b2n s.image.isSome + 2 * b2n s.load.isSome + 4 * b2n s.safe + 8 * s.getF Reg.fcSafe 30 30 + 16 * b2n (!s.sx.owners.isEmpty)

/-- The bytes of the area that R663 names, from offset 0. -/
def State.infoArea (s : State) : List Byte :=
  natLE 4 0x4580 ++ natLE 4 0x10 ++ natLE 4 1 ++ natLE 4 s.infoFlags ++ serial ++
    (List.range 60).map Config.pubkeyByte ++ natLE 4 0 ++ (s.ownerDigest.getD (List.replicate 32 0)) ++
    ((s.image.map Image.measurement).getD (List.replicate 32 0)) ++
    natLE 8 ((s.image.map Image.version).getD 0) ++ natLE 8 ((s.image.map Image.imageId).getD 0) ++
    natLE 4 s.sx.tallyBurnt ++ natLE 4 s.devId ++ natLE 4 s.fittedMib

/-! ### Reads (R15, R16, R647) -/

/-- REG_READ and REG_WRITE reach this address (R647). -/
def controlAddr (a : Nat) : Bool := decide (a < 0x10000) || (decide (0x01000000 ≤ a) && decide (a < 0x01400000))

/-- One word read by a role: a read of the low word of a 64-bit register captures the high word, and one of the high word
that the capture names ends it (R16). A word that no register holds, or an address that is no multiple of 4, reads zero. -/
def State.readWord (s : State) (r : Role) (a : Nat) : State × W32 :=
  if a % 4 ≠ 0 then (s, 0)
  else if a < 0x10000 then (s, BitVec.ofNat 32 (fld s.infoArea a 4))
  else match regAt a with
    | none => (s, 0)
    | some (d, c, b, hi) =>
      let v := s.shown r b c
      let low := BitVec.ofNat 32 v
      let high := BitVec.ofNat 32 (v / 2 ^ 32)
      if d.width ≠ 64 then (if c = Reg.dxRound then { s with free := s.free + 1 } else s, low)
      else if hi then
        match Map.find s.cap r.code with
        | none => (s, high)
        | some (x, w) => if x = c then ({ s with cap := Map.del s.cap r.code }, w) else (s, high)
      else ({ s with cap := Map.put s.cap r.code (c, high) }, low)

/-- `n` words read in address order. -/
def State.readWords (s : State) (r : Role) (a : Nat) : Nat → State × List Byte
  | 0 => (s, [])
  | n + 1 =>
    let p := s.readWord r a
    let q := p.1.readWords r (a + 4) n
    (q.1, natLE 4 p.2.toNat ++ q.2)

/-! ### Writes: what a register does -/

/-- A write with no effect beyond R19, where the register has a bit to write. -/
def State.plainWrite (s : State) (d : RegDesc) (c : Nat) (hi : Bool) (v : W32) : State :=
  if d.rw = 0 ∧ d.w1c = 0 then s else s.setReg c (mergeWord d (s.reg c) hi v)

/-- A write to a word of QU.CLEAR (R106): each watch named clears and is re-armed. -/
def State.clearWatches (s : State) (e : Nat) (hi : Bool) (v : W32) : State :=
  (List.range 32).foldl (fun s i =>
    let n := if hi then 32 + i else i
    if bit v.toNat i then
      let s := (s.setReg (Reg.quSatcnt e n) 0).setF (Reg.quDrift e) n n 0
      s.updEngine e (fun g => { g with prescale := Map.del g.prescale n, drifted := g.drifted.filter (fun k => k != n) })
    else s) s

/-- A write to QU.WATCHn, or to QU.CTL with n = 64 (R99): while a command runs, or waits inside itself, it waits for the
boundary. -/
def State.watchWrite (s : State) (e n : Nat) (hi : Bool) (v : W32) : State :=
  if (s.engine e).running.isSome || (s.engWaits e).any Wait.inner then s.updEngine e (fun g => { g with heldWatch := g.heldWatch ++ [(n, hi, v)] })
  else s.writeWatch e n hi v

/-- A write to a digest group's register (R200): while a DIGEST of the group waits, it waits too. -/
def State.dgrpWrite (s : State) (n : Nat) (peer hi : Bool) (v : W32) : State :=
  if (Map.find s.dig.waiting n).isSome then { s with dig := { s.dig with held := s.dig.held ++ [(n, peer, hi, v)] } }
  else s.writeDgrp n peer hi v

/-- A write to MC.TRAIN (R661): PWRUP, and RETRAIN runs stages 2 to 6, or to 7 where stage 7 is still to come. With no
GDDR6 powered there is no start-up. -/
def State.trainWrite (s : State) (d : RegDesc) (v : W32) : State :=
  let s := s.plainWrite d Reg.mcTrain false v
  if bit v.toNat 31 && s.pw.dramEn then s.startUp 2 (s.mcStage.any Prod.snd) else s

/-- A write to FC.CLEAR: bit 63 clears only at cold boot. -/
def State.clearSources (s : State) (hi : Bool) (v : W32) : State :=
  let m : Nat := if hi then v.toNat % 2 ^ 31 * 2 ^ 32 else v.toNat
  (s.setReg Reg.fcStatus ((BitVec.ofNat 64 (s.reg Reg.fcStatus)) &&& ~~~(BitVec.ofNat 64 m)).toNat).fcUpdate

/-- A write to FC.FORCE: a pulse of each source named, naming no step; bits 45 to 62 are no source. -/
def State.forceSources (s : State) (hi : Bool) (v : W32) : State :=
  (List.range 32).foldl (fun s i =>
    let b := if hi then 32 + i else i
    if bit v.toNat i && (decide (b ≤ 44) || b == 63) then s.pulse b none else s) s

/-- A write to WP.CTL (R627): ARM clears VALID in every snapshot, and then FIRE fires. -/
def State.wpWrite (s : State) (d : RegDesc) (v : W32) : State :=
  let s := s.plainWrite d Reg.wpCtl false v
  let s := if bit v.toNat 31 then s.clearSnaps else s
  if bit v.toNat 30 then s.fireWaypoint 64 else s

/-- A write to PW.INJECT: each armed check of R535 fakes its detection at once. -/
def State.pwInject (s : State) (d : RegDesc) (v : W32) : State :=
  (List.range 5).foldl (fun s k => s.check Reg.pwInject Reg.pwErr k 41 none) (s.plainWrite d Reg.pwInject false v)

/-- A write to CK.INJECT: each armed detector of R680 whose clock is meant to run, and is there, fakes its loss at once. -/
def State.ckInject (s : State) (d : RegDesc) (v : W32) : State :=
  (List.range 4).foldl (fun s k =>
    if s.armed Reg.ckInject k && s.clockWatched k && s.getF Reg.ckStatus (31 - k) (31 - k) == 1 then
      (s.setF Reg.ckInject k k 0).loseClock k
    else s) (s.plainWrite d Reg.ckInject false v)

/-- The owner's write to a word of an engine window (R99, R106, R200). -/
def State.writeEngineReg (s : State) (d : RegDesc) (c b o : Nat) (hi : Bool) (v : W32) : State :=
  if b ≤ 4 ∧ 0x100 ≤ o ∧ o < 0x180 then s.dgrpWrite (o % 0x40 / 8) (decide (0x140 ≤ o)) hi v
  else if o = 0x818 then s.clearWatches b hi v
  else if o = 0x800 then s.watchWrite b 64 hi v
  else if 0x900 ≤ o ∧ o < 0xB00 then s.watchWrite b ((o - 0x900) / 8) hi v
  else s.plainWrite d c hi v

/-- The owner's write to a word of a DM channel's registers (R395, R397, R415). -/
def State.writeDmReg (s : State) (d : RegDesc) (c o : Nat) (hi : Bool) (v : W32) : State :=
  let ch := (o - 0x100) / 64
  let k := (o - 0x100) % 64
  if k < 0x20 then s.dmRegWrite ch (k / 8) hi v
  else if k = 0x30 then s.dmCtlWrite ch v
  else s.plainWrite d c hi v

/-- The owner's write to a word of IP's window (R504, R508). -/
def State.writeIpReg (s : State) (d : RegDesc) (c o : Nat) (hi : Bool) (v : W32) : State :=
  if 0x10 ≤ o ∧ o < 0x20 then s.writeIpGate c hi v
  else if 0x100 ≤ o ∧ o % 64 = 0 then (s.plainWrite d c hi v).settleCameras
  else s.plainWrite d c hi v

/-- The owner's write to a word of FC's window (R607, R613, R614, R617). -/
def State.writeFcReg (s : State) (d : RegDesc) (c o : Nat) (hi : Bool) (v : W32) : State :=
  if o = 0x4 then if bit v.toNat 31 then s.fcUpdate.enterSafe 64 else s
  else if o = 0xC then s.fcUpdate.writeFcReset v.toNat
  else if o = 0x18 then s.clearSources hi v
  else if o = 0x20 then s.forceSources hi v
  else if o = 0x28 then s.fcUpdate.writeFcFence v.toNat
  else s.plainWrite d c hi v

/-- A write to one word of a SEL copy. -/
def State.writeSel (s : State) (r : Role) (d : RegDesc) (b : Nat) (hi : Bool) (v : W32) : State :=
  { s with sel := Map.put s.sel (16 * b + r.code) (BitVec.ofNat 64 (mergeWord d (s.selOf b r) hi v)) }

/-- The SEL registers, held once per role. -/
def isSel (b o : Nat) : Bool := (b == 7 && o == 0x24) || (b == 31 && o == 0x20) || (b == 38 && o == 0x18) || (b == 39 && o == 0x1C)

/-- The owner's write to a word of the register at canonical address `c`, reached through block `b` at offset `o`. -/
def State.ownerWrite (s : State) (d : RegDesc) (c b o : Nat) (hi : Bool) (v : W32) : State :=
  if isSel b o then s.writeSel .owner d b hi v
  else if b ≤ 10 then s.writeEngineReg d c b o hi v
  else if b = 11 then s.writeIpReg d c o hi v
  else if b = 12 ∧ o = 0x20 then if bit v.toNat 0 then s.commitBeam else s
  else if b = 15 ∧ o = 0x10 then s.trainWrite d v
  else if b = 31 ∧ o = 0x10 then s.writeLend v
  else if b = 31 ∧ 0x40 ≤ o ∧ o < 0x80 then s.writeNbr ((o - 0x40) / 8) hi v
  else if b = 32 ∧ 0x100 ≤ o then s.writeDmReg d c o hi v
  else if 33 ≤ b ∧ b ≤ 36 ∧ o = 0x4 then s.writeLxCtl (b - 33) v
  else if 33 ≤ b ∧ b ≤ 36 ∧ o = 0x10 then s.writeLxId hi v
  else if b = 38 ∧ o = 0x4 then s.writeKmCtl v
  else if b = 41 ∧ o = 0xC then s.pwInject d v
  else if b = 42 ∧ o = 0xC then s.ckInject d v
  else if b = 43 ∧ o = 0x4 then s.wpWrite d v
  else if b = 63 then s.writeFcReg d c o hi v
  else s.plainWrite d c hi v

/-- A field session's write (R578): its own SEL copies, and SRC, DST and CTL of its field's channels (R395); any other is
discarded. -/
def State.fieldWrite (s : State) (f : Fin 8) (d : RegDesc) (c b o : Nat) (hi : Bool) (v : W32) : State :=
  if isSel b o then s.writeSel (.field f) d b hi v
  else if b = 32 ∧ 0x100 ≤ o ∧ s.fieldChannel f.val ((o - 0x100) / 64) ∧ ((o - 0x100) % 64 = 0x8 ∨ (o - 0x100) % 64 = 0x10 ∨
      (o - 0x100) % 64 = 0x30) then s.writeDmReg d c o hi v
  else s

/-- One word written by a role (R15, R16, R19): the information area and an address that no register holds discard it, and
so does a block in reset (R614). -/
def State.writeWord (s : State) (r : Role) (a : Nat) (v : W32) : State :=
  if a % 4 ≠ 0 ∨ a < 0x10000 then s
  else match regAt a with
    | none => s
    | some (d, c, b, hi) =>
      if s.inReset b then s
      else
        let o := a % 0x10000 - (if hi then 4 else 0)
        match r with
        | .owner => s.ownerWrite d c b o hi v
        | .field f => s.fieldWrite f d c b o hi v
        | .anon => s

/-- Words written in address order. -/
def State.writeWords (s : State) (r : Role) (a : Nat) : List W32 → State
  | [] => s
  | v :: vs => (s.writeWord r a v).writeWords r (a + 4) vs

/-! ### REG_READ and REG_WRITE (R645, R647) -/

/-- Every word of an access of `n` words lies in the control space. -/
def controlSpan (a n : Nat) : Bool := (List.range n).all (fun i => controlAddr (a + 4 * i))

/-- REG_READ's effect. -/
def State.regReadOp (s : State) (r : Role) (a n : Nat) : State × Nat × List Byte :=
  if n = 0 ∨ 256 < n ∨ 2 ^ 32 ≤ a then (s, Code.badType, [])
  else if !controlSpan a n then (s, Code.badAddress, [])
  else ((s.readWords r a n).1, Code.ok, (s.readWords r a n).2)

/-- REG_WRITE's effect. -/
def State.regWriteOp (s : State) (r : Role) (a : Nat) (ws : List W32) : State × Nat × List Byte :=
  if ws.length = 0 ∨ 256 < ws.length ∨ 2 ^ 32 ≤ a then (s, Code.badType, [])
  else if !controlSpan a ws.length then (s, Code.badAddress, [])
  else (s.writeWords r a ws, Code.ok, [])

/-- A REG_WRITE message of the words `ws` from `a`. -/
def State.regWriteMsg (s : State) (r : Role) (rid a : Nat) (ws : List W32) : Host.Outcome State Fault Refusal :=
  .next (s.message r rid Msg.regWrite 0 (fun s => s.regWriteOp r a ws))

/-- REG_READ (R16, R578, R647). -/
def execRegRead (r : Role) (rid addr words : Nat) (s : State) : Host.Outcome State Fault Refusal :=
  .next (s.message r rid Msg.regRead (4 * words) (fun s => s.regReadOp r addr words))

/-- LOW_WORD_READ (R16): one word, whose high word the source captures. -/
def execLowWordRead (r : Role) (rid addr : Nat) (s : State) : Host.Outcome State Fault Refusal :=
  .next (s.message r rid Msg.regRead 4 (fun s => s.regReadOp r addr 1))

/-- HIGH_WORD_READ (R16): one word, from the source's capture where that names the register. -/
def execHighWordRead (r : Role) (rid addr : Nat) (s : State) : Host.Outcome State Fault Refusal :=
  .next (s.message r rid Msg.regRead 4 (fun s => s.regReadOp r addr 1))

/-- REG_WRITE (R16, R578, R647). -/
def execRegWrite (r : Role) (rid addr : Nat) (ws : List W32) (s : State) : Host.Outcome State Fault Refusal :=
  s.regWriteMsg r rid addr ws

/-! ### Writes of one register -/

/-- The address of a word of a 64-bit register. -/
def wordAddr (a : Nat) (hi : Bool) : Nat := if hi then a + 4 else a

/-- QU_CLEAR (R106). -/
def execQuClear (r : Role) (rid eng : Nat) (hi : Bool) (v : W32) (s : State) : Host.Outcome State Fault Refusal :=
  s.regWriteMsg r rid (wordAddr (Reg.quClear eng) hi) [v]

/-- QU_WATCH_WRITE (R99); it names QU.CTL with n = 64, and no register above that. -/
def execQuWatchWrite (r : Role) (rid eng n : Nat) (hi : Bool) (v : W32) (s : State) : Host.Outcome State Fault Refusal :=
  if 64 < n then .next s
  else s.regWriteMsg r rid (if n = 64 then Reg.quCtl eng else wordAddr (Reg.quWatch eng n) hi) [v]

/-- ME_DGRP_WRITE (R200), through the window of engine `eng`. -/
def execMeDgrpWrite (r : Role) (rid eng n : Nat) (peer hi : Bool) (v : W32) (s : State) : Host.Outcome State Fault Refusal :=
  if 7 < n then .next s
  else s.regWriteMsg r rid (wordAddr (regAddr eng ((if peer then 0x140 else 0x100) + 8 * n)) hi) [v]

/-- KM_MODE_WRITE (R270). -/
def execKmModeWrite (r : Role) (rid : Nat) (v : W32) (s : State) : Host.Outcome State Fault Refusal :=
  s.regWriteMsg r rid Reg.kmCtl [v]

/-- AF_BEAM_COMMIT (R457). -/
def execAfBeamCommit (r : Role) (rid : Nat) (v : W32) (s : State) : Host.Outcome State Fault Refusal :=
  s.regWriteMsg r rid Reg.afBeamctl [v]

/-- AF_CFG_WRITE (R478). -/
def execAfCfgWrite (r : Role) (rid : Nat) (v : W32) (s : State) : Host.Outcome State Fault Refusal :=
  s.regWriteMsg r rid Reg.afCfg [v]

/-- MC_RETRAIN (R661). -/
def execMcRetrain (r : Role) (rid : Nat) (v : W32) (s : State) : Host.Outcome State Fault Refusal :=
  s.regWriteMsg r rid Reg.mcTrain [v]

/-- TU_NBR_WRITE (R357). -/
def execTuNbrWrite (r : Role) (rid n : Nat) (hi : Bool) (v : W32) (s : State) : Host.Outcome State Fault Refusal :=
  if 7 < n then .next s else s.regWriteMsg r rid (wordAddr (Reg.tuNbr n) hi) [v]

/-- TU_LEND_WRITE (R355). -/
def execTuLendWrite (r : Role) (rid : Nat) (v : W32) (s : State) : Host.Outcome State Fault Refusal :=
  s.regWriteMsg r rid Reg.tuLend [v]

/-- LX_EN_WRITE (R570). -/
def execLxEnWrite (r : Role) (rid port : Nat) (v : W32) (s : State) : Host.Outcome State Fault Refusal :=
  if 3 < port then .next s else s.regWriteMsg r rid (Reg.lxCtl port) [v]

/-- LX_ID_WRITE (R569, R570). -/
def execLxIdWrite (r : Role) (rid : Nat) (hi : Bool) (v : W32) (s : State) : Host.Outcome State Fault Refusal :=
  s.regWriteMsg r rid (wordAddr (Reg.lxId 0) hi) [v]

/-- DM_CFG_WRITE (R395, R415): CFG (0), SRC (1) or DST (2). -/
def execDmCfgWrite (r : Role) (rid ch which : Nat) (hi : Bool) (v : W32) (s : State) : Host.Outcome State Fault Refusal :=
  if 31 < ch ∨ 2 < which then .next s else s.regWriteMsg r rid (wordAddr (Reg.dmChCFG ch + 8 * which) hi) [v]

/-- DM_TIMER_WRITE (R398). -/
def execDmTimerWrite (r : Role) (rid ch : Nat) (hi : Bool) (v : W32) (s : State) : Host.Outcome State Fault Refusal :=
  if 31 < ch then .next s else s.regWriteMsg r rid (wordAddr (Reg.dmChTIMER ch) hi) [v]

/-- IP_GATE_WRITE (R504): a word of IP.GATE, or IP.GATEENTRY. -/
def execIpGateWrite (r : Role) (rid : Nat) (entry hi : Bool) (v : W32) (s : State) : Host.Outcome State Fault Refusal :=
  s.regWriteMsg r rid (if entry then Reg.ipGateentry else wordAddr Reg.ipGate hi) [v]

/-- IP_PORT_CTL_WRITE (R482, R508). -/
def execIpPortCtlWrite (r : Role) (rid port : Nat) (v : W32) (s : State) : Host.Outcome State Fault Refusal :=
  if 3 < port then .next s else s.regWriteMsg r rid (Reg.ipPortCTL port) [v]

/-- FC_CLEAR (R631). -/
def execFcClear (r : Role) (rid : Nat) (hi : Bool) (v : W32) (s : State) : Host.Outcome State Fault Refusal :=
  s.regWriteMsg r rid (wordAddr Reg.fcClear hi) [v]

/-- FC_FORCE (R607). -/
def execFcForce (r : Role) (rid : Nat) (hi : Bool) (v : W32) (s : State) : Host.Outcome State Fault Refusal :=
  s.regWriteMsg r rid (wordAddr Reg.fcForce hi) [v]

/-- FC_FENCE_SET (R613). -/
def execFcFenceSet (r : Role) (rid : Nat) (v : W32) (s : State) : Host.Outcome State Fault Refusal :=
  s.regWriteMsg r rid Reg.fcFence [v]

/-- FC_FENCE_RETURN (R613). -/
def execFcFenceReturn (r : Role) (rid : Nat) (v : W32) (s : State) : Host.Outcome State Fault Refusal :=
  s.regWriteMsg r rid Reg.fcFence [v]

/-- FC_BLOCK_RESET (R614). -/
def execFcBlockReset (r : Role) (rid target : Nat) (s : State) : Host.Outcome State Fault Refusal :=
  s.regWriteMsg r rid Reg.fcReset [BitVec.ofNat 32 (target % 64)]

/-- FC_FIELD_RESET (R616). -/
def execFcFieldReset (r : Role) (rid field : Nat) (s : State) : Host.Outcome State Fault Refusal :=
  s.regWriteMsg r rid Reg.fcReset [BitVec.ofNat 32 (2 ^ 30 + field % 64)]

/-- FC_SAFE (R617). -/
def execFcSafe (r : Role) (rid : Nat) (s : State) : Host.Outcome State Fault Refusal :=
  s.regWriteMsg r rid Reg.fcCtl [0x80000000]

/-- WP_FIRE (R627): FIRE, with ARM and SDTRIG written as they stand. -/
def execWpFire (r : Role) (rid : Nat) (s : State) : Host.Outcome State Fault Refusal :=
  s.regWriteMsg r rid Reg.wpCtl [BitVec.ofNat 32 (s.reg Reg.wpCtl) ||| 0x40000000]

/-- WP_ARM (R627). -/
def execWpArm (r : Role) (rid : Nat) (sdtrig : Bool) (s : State) : Host.Outcome State Fault Refusal :=
  s.regWriteMsg r rid Reg.wpCtl [if sdtrig then 0xA0000000 else 0x80000000]

/-- The offset of a block's INJECT register (R607). -/
def injectOff (b : Nat) : Nat :=
  if b = 11 ∨ b = 15 ∨ b = 32 then 0x8
  else if b = 12 ∨ b = 44 then 0x10
  else if b = 14 then 0x4
  else if b = 43 then 0x14
  else if b = 63 then 0x2C
  else 0xC

/-- INJECT_ARM (R607). -/
def execInjectArm (r : Role) (rid block : Nat) (v : W32) (s : State) : Host.Outcome State Fault Refusal :=
  if 63 < block then .next s else s.regWriteMsg r rid (regAddr block (injectOff block)) [v]

end Sys2Proof.Machine
end

