-- ==== Sys2Proof/Machine/HostPort.lean ====
section
/-!
DEFINITION. The host port (chapter 20): its four commands, frames, ECHO, the memory aperture, and EVENTS_LOST.
-/
namespace Sys2Proof.Machine

/-! ### Frames (R579, R640 to R643) -/

/-- The header of a frame (R640). -/
def frameHeader (role typ len rid ctr : Nat) : List Byte :=
  [0x5A, 0xA5, 0x01, BitVec.ofNat 8 role] ++ natLE 2 typ ++ [0, 0] ++ natLE 4 len ++ natLE 4 rid ++ natLE 8 ctr ++ natLE 8 0

/-- The nonce of R579; `dir` is 0 for host to device. -/
def frameNonce (role dir ctr : Nat) : List Byte := [BitVec.ofNat 8 role, BitVec.ofNat 8 dir, 0, 0] ++ natLE 8 ctr

/-- The bytes of an outbound frame. -/
def OutFrame.bytes (f : OutFrame) : List Byte :=
  let h := frameHeader f.role.code f.typ f.payload.length f.rid f.ctr
  let body := match f.key with
    | none => h ++ f.payload
    | some k => let p := gcmSeal k (frameNonce f.role.code 1 f.ctr) h f.payload; h ++ p.1 ++ p.2
  body ++ natLE 4 (crc32 body).toNat

/-- HP drives the port: it runs, and is not in reset (R639). -/
def State.hpUp (s : State) : Bool := s.coreUp && !s.inReset 40

/-- An 8D command's second byte is the inverse of the first (R635). -/
def State.inverseOk (s : State) (code inv : Byte) : Bool := !s.hp.dtr || inv == ~~~code

/-- HP drives nothing. -/
def State.driveNone (s : State) : State := { s with hp := { s.hp with dq := [] } }

/-- A command or frame is discarded (R635, R637, R641, R664). -/
def State.badFrame (s : State) : State := s.bump Reg.hpCnt0 15 0 48 1 none

/-- An ignored command (R635). -/
def State.ignore (s : State) : State := s.driveNone.badFrame

/-- The open-role answer to a frame that was not taken (R637): its status, and bytes 0 to 15 of the header as received. It
finds no room only in a full queue. -/
def State.answerOpen (s : State) (status : Nat) (data : List Byte) : State :=
  let hdr := (List.range 16).map (fun i => bAt data i)
  if s.outUsed + replySize .anon 16 ≤ 262144 then
    s.queueFrame .anon ((fld hdr 4 2 + 0x8000) % 65536) (fld hdr 12 4) ([BitVec.ofNat 8 status, 0, 0, 0] ++ hdr)
  else s

/-- A frame discarded with BAD_FRAME. -/
def State.refuseFrame (s : State) (data : List Byte) : State := s.badFrame.answerOpen Code.badFrame data

/-- R641: SYNC, VER, the reserved bytes, ROLE, LEN and the CRC of a frame are right. -/
def frameOk (d : List Byte) : Bool :=
  let n := fld d 8 4
  let tag := if fld d 3 1 = 0x0F then 0 else 16
  slice d 0 3 == [0x5A, 0xA5, 0x01] && zeroAt d 6 2 && zeroAt d 24 8 && (Role.ofCode (fld d 3 1)).isSome &&
    decide (n ≤ 131072) && d.length == 36 + n + tag && crc32 (d.take (32 + n + tag)) == BitVec.ofNat 32 (fld d (32 + n + tag) 4)

/-- R645: requests whose payload fits no message are answered BAD_TYPE, while the outbound queue has room. -/
def State.refuseBad (s : State) : State :=
  s.hp.requests.foldl (fun s q =>
    if (messageOf q.role q.typ q.rid q.payload).isNone && s.canTake q.role 0 then
      (s.takeRequest q.role q.rid q.typ).reply q.role q.typ q.rid Code.badType []
    else s) s

/-- A frame accepted (R642, R644): the request waits in the inbound buffer. -/
def State.acceptFrame (s : State) (r : Role) (d payload : List Byte) : State :=
  let q : Request := ⟨r, fld d 4 2, fld d 12 4, payload, d.length⟩
  (({ s with hp := { s.hp with requests := s.hp.requests ++ [q] } }).bump32 Reg.hpCnt1 1 none).refuseBad

/-- A session's frame (R580, R642): the tag verifies and the counter exceeds the last accepted one; any other is discarded
without an answer. A session whose outbound counter is spent answers once with SESSION_SPENT. -/
def State.sessionFrame (s : State) (r : Role) (d : List Byte) : State :=
  let n := fld d 8 4
  let ctr := fld d 16 8
  let fresh := match Map.find s.sx.inCtr r.code with
    | none => true
    | some c => decide (c < ctr)
  match s.sessionKey r with
  | none => s.authFail
  | some k =>
    match gcmOpen k (frameNonce r.code 0 ctr) (d.take 32) (slice d 32 n) (slice d (32 + n) 16) with
    | none => s.authFail
    | some p =>
      if !fresh then s.authFail
      else
        let out := Map.get s.sx.outCtr r.code 0
        if 2 ^ 64 ≤ out then s
        else
          let s := { s with sx := { s.sx with inCtr := Map.put s.sx.inCtr r.code ctr } }
          if out = 2 ^ 64 - 1 then s.reply r (fld d 4 2) (fld d 12 4) Code.sessionSpent []
          else s.acceptFrame r d p

/-- What HP does with a frame when CS_N rises (R637, R641, R642, R664). -/
def State.takeFrameIn (s : State) (len : Nat) (d : List Byte) : State :=
  if d.length ≠ len then s.refuseFrame d
  else if s.inFree < len then (s.bump Reg.hpCnt0 31 16 49 1 none).answerOpen Code.hpBusy d
  else if s.armed Reg.hpInject 0 then (s.check Reg.hpInject Reg.hpErr 0 40 none).refuseFrame d
  else if !frameOk d then s.refuseFrame d
  else match Role.ofCode (fld d 3 1) with
    | none => s
    | some .anon => s.acceptFrame .anon d (slice d 32 (fld d 8 4))
    | some r => s.keyCheck.sessionFrame r d

/-! ### The commands of R635 -/

/-- STATUS's 16 bytes (R636). -/
def State.statusBytes (s : State) : List Byte :=
  natLE 4 s.inFree ++ natLE 4 ((s.hp.outq.head?.map OutFrame.size).getD 0) ++
    natLE 1 (b2n s.hp.dtr + 2 * b2n s.image.isSome + 4 * b2n s.safe) ++ natLE 1 s.pw.rung.code ++ natLE 6 0

/-- STATUS (R635, R636). -/
def execStatus (inv : Byte) (s : State) : Host.Outcome State Fault Refusal :=
  if !s.hpUp then .next s
  else if !s.inverseOk 0x05 inv then .next s.ignore
  else .next { s with hp := { s.hp with dq := s.statusBytes } }

/-- FRAME_WRITE (R637, R641, R642): the address says `len`, and the host drives `data`. -/
def execFrameWrite (inv : Byte) (len : Nat) (data : List Byte) (s : State) : Host.Outcome State Fault Refusal :=
  if !s.hpUp then .next s
  else if !s.inverseOk 0x12 inv then .next s.ignore
  else .next (s.driveNone.takeFrameIn len data)

/-- The head frame leaves the queue; a request that waited for room to be answered BAD_TYPE may be now. -/
def State.popFrame (s : State) : State := ({ s with hp := { s.hp with outq := s.hp.outq.tail } }).refuseBad

/-- FRAME_READ (R638, R664): the head frame, then zero bytes; it leaves the queue when it was returned whole. A frame that
holds a failing word is discarded and counts in EVLOST, and what was driven of it is not stated. -/
def execFrameRead (inv : Byte) (most : Nat) (s : State) : Host.Outcome State Fault Refusal :=
  if !s.hpUp then .next s
  else if !s.inverseOk 0x13 inv then .next s.ignore
  else match s.hp.outq with
    | [] => .next { s with hp := { s.hp with dq := List.replicate most 0 } }
    | f :: _ =>
      if s.armed Reg.hpInject 1 then
        let s := (s.check Reg.hpInject Reg.hpErr 1 40 none).popFrame.evLost
        .next { s with hp := { s.hp with dq := (List.range most).map (Config.freeByte s.free) }, free := s.free + 1 }
      else
        let b := f.bytes
        let s := { s with hp := { s.hp with dq := b.take most ++ List.replicate (most - b.length) 0 } }
        .next (if b.length ≤ most then s.popFrame else s)

/-- MODE (R635): 8S with 0x00, 8D with 0x01, any other byte 0 changes nothing. -/
def execMode (inv b0 : Byte) (s : State) : Host.Outcome State Fault Refusal :=
  if !s.hpUp then .next s
  else if !s.inverseOk 0x71 inv then .next s.ignore
  else if b0 = 0 ∨ b0 = 1 then .next { s with hp := { s.hp with dtr := b0 == 1, dq := [] } }
  else .next s.driveNone

/-- ECHO (R644). -/
def execEcho (r : Role) (rid : Nat) (data : List Byte) (s : State) : Host.Outcome State Fault Refusal :=
  .next (s.message r rid Msg.echo data.length (fun s => (s, Code.ok, data)))

/-- EVENTS_LOST (R652): once room has returned, HP posts to each destination the count it has lost. -/
def execEventsLost (s : State) : Host.Outcome State Fault Refusal :=
  if !s.hpUp then .next s
  else .next (s.hp.lost.foldl (fun s p =>
    if s.outUsed + 64 ≤ 262144 - 73728 then
      ({ s with hp := { s.hp with lost := Map.del s.hp.lost p.1 } }).post Code.eventsLost 40 p.1 (natLE 4 p.2)
    else s) s)

/-! ### The aperture (R578, R647) -/

/-- The aperture base of a role (R667). -/
def State.aperture (s : State) (r : Role) : Nat := s.reg (Reg.hpAper r.code)

/-- APERTURE (R647): the base is a multiple of 2 GiB in the 48-bit space of R20. -/
def execAperture (r : Role) (rid base : Nat) (s : State) : Host.Outcome State Fault Refusal :=
  .next (s.message r rid Msg.aperture 0 (fun s =>
    if base % 2 ^ 31 ≠ 0 then (s, Code.badType, [])
    else if 2 ^ 48 ≤ base then (s, Code.badAddress, [])
    else (s.setReg (Reg.hpAper r.code) base, Code.ok, [])))

/-- What a role reaches through the aperture (R578). -/
def State.actorOf (s : State) (r : Role) : Actor :=
  match r with
  | .owner => .owner
  | .field f => .windows (s.fieldWindows f.val)
  | .anon => .windows []

/-- The requests of a neighbour access: MRD, or MWR with its bytes, of at most 512 bytes each, for the pieces of an access
of `len` bytes at offset `off` of device `d`'s window (R556, R562). -/
def State.sendPieces (s : State) (d off len g : Nat) (read : Bool) (bs : List Byte) : State :=
  (List.range (ceilDiv len 512)).foldl (fun s i =>
    let n := min 512 (len - 512 * i)
    let m := if read then s.newMsg 0x01 0 true d n (off + 512 * i) []
      else s.newMsg 0x02 0 true d n (off + 512 * i) (slice bs (512 * i) n)
    (s.request m (.host g i)).getD s) s

/-- A host access through a neighbour window starts; it is answered when its last piece is. -/
def State.gatherStart (s : State) (r : Role) (rid d off len : Nat) (read : Bool) (bs : List Byte) : State :=
  let g := s.lx.nextGather
  let s := { s with lx := { s.lx with
    gathers := Map.put s.lx.gathers g ⟨r, rid, read, ceilDiv len 512, [], 0⟩, nextGather := g + 1 } }
  s.sendPieces d off len g read bs

/-- The address of an access at an aperture offset, and where it leads. -/
def State.aperReach (s : State) (r : Role) (write : Bool) (off len : Nat) : Reach :=
  if 2 ^ 31 < off + len then .bad else s.reach (s.actorOf r) write (s.aperture r + off) len

/-- An aperture access waits: for its memory's clocks or start-up (R660), or for the tags of its pieces (R562). -/
def State.aperWaits (s : State) (r : Role) (write : Bool) (off len : Nat) : Bool :=
  match s.aperReach r write off len with
  | .here _ => s.dramBusy (s.aperture r + off)
  | .there _ _ => decide (4096 < s.lx.tags.length + ceilDiv len 512)
  | .bad => false

/-- MEM_READ (R345, R578, R647, R692). -/
def execMemRead (r : Role) (rid off len : Nat) (s : State) : Host.Outcome State Fault Refusal :=
  if (s.msgGate r Msg.memRead).isNone && s.aperWaits r false off len then .next s
  else .next (s.messageLater r rid Msg.memRead len (fun s =>
    if len = 0 ∨ 65536 < len ∨ 2 ^ 32 ≤ off then s.reply r Msg.memRead rid Code.badType []
    else match s.aperReach r false off len with
      | .bad => s.reply r Msg.memRead rid Code.badAddress []
      | .there d o => s.gatherStart r rid d o len true []
      | .here a =>
        match s.readHere a len with
        | (s, none) => s.reply r Msg.memRead rid Code.memPoison []
        | (s, some bs) => s.reply r Msg.memRead rid Code.ok bs))

/-- MEM_WRITE (R578, R647, R692): answered once its bytes are complete. -/
def execMemWrite (r : Role) (rid off len : Nat) (data : List Byte) (s : State) : Host.Outcome State Fault Refusal :=
  if (s.msgGate r Msg.memWrite).isNone && s.aperWaits r true off len then .next s
  else .next (s.messageLater r rid Msg.memWrite 0 (fun s =>
    if len = 0 ∨ 65536 < len ∨ data.length ≠ len ∨ 2 ^ 32 ≤ off then s.reply r Msg.memWrite rid Code.badType []
    else match s.aperReach r true off len with
      | .bad => s.reply r Msg.memWrite rid Code.badAddress []
      | .there d o => s.gatherStart r rid d o len false data
      | .here a => (s.write a data).reply r Msg.memWrite rid Code.ok []))

end Sys2Proof.Machine
end

