-- ==== Sys2Proof/Machine/Dispatch.lean ====
section
/-! DEFINITION. One arm per command: the meaning that runs. -/
namespace Sys2Proof.Machine

def exec (i : Instr) (s : State) : Host.Outcome State Fault Refusal :=
  match i with
  | .status inv => Sys2Proof.Machine.execStatus inv s
  | .frameWrite inv len data => Sys2Proof.Machine.execFrameWrite inv len data s
  | .frameRead inv most => Sys2Proof.Machine.execFrameRead inv most s
  | .mode inv b0 => Sys2Proof.Machine.execMode inv b0 s
  | .echo r rid data => Sys2Proof.Machine.execEcho r rid data s
  | .regRead r rid addr words => Sys2Proof.Machine.execRegRead r rid addr words s
  | .lowWordRead r rid addr => Sys2Proof.Machine.execLowWordRead r rid addr s
  | .highWordRead r rid addr => Sys2Proof.Machine.execHighWordRead r rid addr s
  | .regWrite r rid addr ws => Sys2Proof.Machine.execRegWrite r rid addr ws s
  | .memRead r rid off len => Sys2Proof.Machine.execMemRead r rid off len s
  | .memWrite r rid off len data => Sys2Proof.Machine.execMemWrite r rid off len data s
  | .aperture r rid base => Sys2Proof.Machine.execAperture r rid base s
  | .hostClaim r rid rung => Sys2Proof.Machine.execHostClaim r rid rung s
  | .hail r rid => Sys2Proof.Machine.execHail r rid s
  | .release r rid x2 => Sys2Proof.Machine.execRelease r rid x2 s
  | .imgBegin r rid len => Sys2Proof.Machine.execImgBegin r rid len s
  | .commonsZeroed => Sys2Proof.Machine.execCommonsZeroed s
  | .imgData r rid off data => Sys2Proof.Machine.execImgData r rid off data s
  | .imgTimeout => Sys2Proof.Machine.execImgTimeout s
  | .quote r rid nonce => Sys2Proof.Machine.execQuote r rid nonce s
  | .quoteDone => Sys2Proof.Machine.execQuoteDone s
  | .keyRelease r rid data => Sys2Proof.Machine.execKeyRelease r rid data s
  | .keyDrop r rid field id => Sys2Proof.Machine.execKeyDrop r rid field id s
  | .weightLoad r rid data => Sys2Proof.Machine.execWeightLoad r rid data s
  | .ownerSet r rid slot x3 rest => Sys2Proof.Machine.execOwnerSet r rid slot x3 rest s
  | .ownerBurnDone => Sys2Proof.Machine.execOwnerBurnDone s
  | .sdLoad r rid slot off => Sys2Proof.Machine.execSdLoad r rid slot off s
  | .ctxOpen r rid ctx list entries prime => Sys2Proof.Machine.execCtxOpen r rid ctx list entries prime s
  | .ctxClose r rid ctx => Sys2Proof.Machine.execCtxClose r rid ctx s
  | .closeComplete ctx => Sys2Proof.Machine.execCloseComplete ctx s
  | .jobSubmit r rid ctx entry => Sys2Proof.Machine.execJobSubmit r rid ctx entry s
  | .jobAbort r rid ctx serial => Sys2Proof.Machine.execJobAbort r rid ctx serial s
  | .ctxResume r rid ctx drain => Sys2Proof.Machine.execCtxResume r rid ctx drain s
  | .counterRead r rid scope id index => Sys2Proof.Machine.execCounterRead r rid scope id index s
  | .counterAdd r rid scope id index value => Sys2Proof.Machine.execCounterAdd r rid scope id index value s
  | .counterRaise r rid scope id index value => Sys2Proof.Machine.execCounterRaise r rid scope id index value s
  | .kvInit r rid ctx stage => Sys2Proof.Machine.execKvInit r rid ctx stage s
  | .kvAdopt r rid ctx tokaddr ntok tag => Sys2Proof.Machine.execKvAdopt r rid ctx tokaddr ntok tag s
  | .kvPublish r rid ctx tokaddr nblocks tag => Sys2Proof.Machine.execKvPublish r rid ctx tokaddr nblocks tag s
  | .kvTruncate r rid ctx t => Sys2Proof.Machine.execKvTruncate r rid ctx t s
  | .kvFree r rid ctx => Sys2Proof.Machine.execKvFree r rid ctx s
  | .kvPrune r rid field => Sys2Proof.Machine.execKvPrune r rid field s
  | .kvFork r rid src dst t => Sys2Proof.Machine.execKvFork r rid src dst t s
  | .kvLoad r rid ctx k addr => Sys2Proof.Machine.execKvLoad r rid ctx k addr s
  | .stInit r rid ctx nslot swap => Sys2Proof.Machine.execStInit r rid ctx nslot swap s
  | .stReset r rid ctx => Sys2Proof.Machine.execStReset r rid ctx s
  | .stEvict r rid ctx => Sys2Proof.Machine.execStEvict r rid ctx s
  | .stFree r rid ctx => Sys2Proof.Machine.execStFree r rid ctx s
  | .tuMap r rid field obj ua pages hint flags back backdev => Sys2Proof.Machine.execTuMap r rid field obj ua pages hint flags back backdev s
  | .tuUnmap r rid field obj => Sys2Proof.Machine.execTuUnmap r rid field obj s
  | .tuHint r rid field obj hint => Sys2Proof.Machine.execTuHint r rid field obj hint s
  | .tuPlace r rid field ua pages home => Sys2Proof.Machine.execTuPlace r rid field ua pages home s
  | .tuPin r rid field ua pages => Sys2Proof.Machine.execTuPin r rid field ua pages s
  | .tuUnpin r rid field ua pages => Sys2Proof.Machine.execTuUnpin r rid field ua pages s
  | .tuEvacuate r rid n => Sys2Proof.Machine.execTuEvacuate r rid n s
  | .tuSow r rid ctx list entries => Sys2Proof.Machine.execTuSow r rid ctx list entries s
  | .dmStart r rid ch => Sys2Proof.Machine.execDmStart r rid ch s
  | .dmAbort r rid ch => Sys2Proof.Machine.execDmAbort r rid ch s
  | .eventsLost => Sys2Proof.Machine.execEventsLost s
  | .quClear r rid eng hi v => Sys2Proof.Machine.execQuClear r rid eng hi v s
  | .quWatchWrite r rid eng n hi v => Sys2Proof.Machine.execQuWatchWrite r rid eng n hi v s
  | .meDgrpWrite r rid eng n peer hi v => Sys2Proof.Machine.execMeDgrpWrite r rid eng n peer hi v s
  | .kmModeWrite r rid v => Sys2Proof.Machine.execKmModeWrite r rid v s
  | .afBeamCommit r rid v => Sys2Proof.Machine.execAfBeamCommit r rid v s
  | .afCfgWrite r rid v => Sys2Proof.Machine.execAfCfgWrite r rid v s
  | .mcRetrain r rid v => Sys2Proof.Machine.execMcRetrain r rid v s
  | .tuNbrWrite r rid n hi v => Sys2Proof.Machine.execTuNbrWrite r rid n hi v s
  | .tuLendWrite r rid v => Sys2Proof.Machine.execTuLendWrite r rid v s
  | .lxEnWrite r rid port v => Sys2Proof.Machine.execLxEnWrite r rid port v s
  | .lxIdWrite r rid hi v => Sys2Proof.Machine.execLxIdWrite r rid hi v s
  | .dmCfgWrite r rid ch which hi v => Sys2Proof.Machine.execDmCfgWrite r rid ch which hi v s
  | .dmTimerWrite r rid ch hi v => Sys2Proof.Machine.execDmTimerWrite r rid ch hi v s
  | .ipGateWrite r rid entry hi v => Sys2Proof.Machine.execIpGateWrite r rid entry hi v s
  | .ipPortCtlWrite r rid port v => Sys2Proof.Machine.execIpPortCtlWrite r rid port v s
  | .fcClear r rid hi v => Sys2Proof.Machine.execFcClear r rid hi v s
  | .fcForce r rid hi v => Sys2Proof.Machine.execFcForce r rid hi v s
  | .fcFenceSet r rid v => Sys2Proof.Machine.execFcFenceSet r rid v s
  | .fcFenceReturn r rid v => Sys2Proof.Machine.execFcFenceReturn r rid v s
  | .fcBlockReset r rid target => Sys2Proof.Machine.execFcBlockReset r rid target s
  | .fcFieldReset r rid field => Sys2Proof.Machine.execFcFieldReset r rid field s
  | .fcSafe r rid => Sys2Proof.Machine.execFcSafe r rid s
  | .wpFire r rid => Sys2Proof.Machine.execWpFire r rid s
  | .wpArm r rid sdtrig => Sys2Proof.Machine.execWpArm r rid sdtrig s
  | .injectArm r rid block v => Sys2Proof.Machine.execInjectArm r rid block v s
  | .nop eng => Sys2Proof.Machine.execNop eng s
  | .step eng => Sys2Proof.Machine.execStep eng s
  | .commit eng => Sys2Proof.Machine.execCommit eng s
  | .endd eng => Sys2Proof.Machine.execEndd eng s
  | .next eng => Sys2Proof.Machine.execNext eng s
  | .spawn eng => Sys2Proof.Machine.execSpawn eng s
  | .jump eng => Sys2Proof.Machine.execJump eng s
  | .wait eng => Sys2Proof.Machine.execWait eng s
  | .waitSatisfied ctx sid => Sys2Proof.Machine.execWaitSatisfied ctx sid s
  | .signalAdd eng => Sys2Proof.Machine.execSignalAdd eng s
  | .signalRaise eng => Sys2Proof.Machine.execSignalRaise eng s
  | .fence eng => Sys2Proof.Machine.execFence eng s
  | .fenceComplete ctx sid => Sys2Proof.Machine.execFenceComplete ctx sid s
  | .tapeHail eng => Sys2Proof.Machine.execTapeHail eng s
  | .tapeRelease eng => Sys2Proof.Machine.execTapeRelease eng s
  | .event eng => Sys2Proof.Machine.execEvent eng s
  | .trigger eng => Sys2Proof.Machine.execTrigger eng s
  | .gate eng => Sys2Proof.Machine.execGate eng s
  | .add eng => Sys2Proof.Machine.execAdd eng s
  | .proj eng => Sys2Proof.Machine.execProj eng s
  | .sumq eng => Sys2Proof.Machine.execSumq eng s
  | .rmsnorm eng => Sys2Proof.Machine.execRmsnorm eng s
  | .outer eng => Sys2Proof.Machine.execOuter eng s
  | .update eng => Sys2Proof.Machine.execUpdate eng s
  | .digest eng => Sys2Proof.Machine.execDigest eng s
  | .digestVerdict group => Sys2Proof.Machine.execDigestVerdict group s
  | .attend eng => Sys2Proof.Machine.execAttend eng s
  | .append eng => Sys2Proof.Machine.execAppend eng s
  | .scan eng => Sys2Proof.Machine.execScan eng s
  | .hold eng => Sys2Proof.Machine.execHold eng s
  | .conv eng => Sys2Proof.Machine.execConv eng s
  | .pool eng => Sys2Proof.Machine.execPool eng s
  | .econv eng => Sys2Proof.Machine.execEconv eng s
  | .commandEnd eng waited => Sys2Proof.Machine.execCommandEnd eng waited s
  | .strandSuspend eng => Sys2Proof.Machine.execStrandSuspend eng s
  | .placeStrand => Sys2Proof.Machine.execPlaceStrand s
  | .commitTaken => Sys2Proof.Machine.execCommitTaken s
  | .completionTaken => Sys2Proof.Machine.execCompletionTaken s
  | .abortTaken => Sys2Proof.Machine.execAbortTaken s
  | .jobReport ctx => Sys2Proof.Machine.execJobReport ctx s
  | .jobStart ctx => Sys2Proof.Machine.execJobStart ctx s
  | .stepReplay ctx => Sys2Proof.Machine.execStepReplay ctx s
  | .quantumExpiry eng => Sys2Proof.Machine.execQuantumExpiry eng s
  | .boundOverrun eng => Sys2Proof.Machine.execBoundOverrun eng s
  | .slotStart => Sys2Proof.Machine.execSlotStart s
  | .guardOpen => Sys2Proof.Machine.execGuardOpen s
  | .watchdog => Sys2Proof.Machine.execWatchdog s
  | .switchBind => Sys2Proof.Machine.execSwitchBind s
  | .switchHoldExpiry => Sys2Proof.Machine.execSwitchHoldExpiry s
  | .derate level => Sys2Proof.Machine.execDerate level s
  | .haloRowRaise eng row => Sys2Proof.Machine.execHaloRowRaise eng row s
  | .haloPush eng high row => Sys2Proof.Machine.execHaloPush eng high row s
  | .pushAcked eng high row => Sys2Proof.Machine.execPushAcked eng high row s
  | .segmentFilled seg => Sys2Proof.Machine.execSegmentFilled seg s
  | .furrowFillStart => Sys2Proof.Machine.execFurrowFillStart s
  | .walkerBlock eng block => Sys2Proof.Machine.execWalkerBlock eng block s
  | .flushCopyDone ctx => Sys2Proof.Machine.execFlushCopyDone ctx s
  | .heldEditApply ctx => Sys2Proof.Machine.execHeldEditApply ctx s
  | .swapOut => Sys2Proof.Machine.execSwapOut s
  | .swapIn lost => Sys2Proof.Machine.execSwapIn lost s
  | .migrationStart field page => Sys2Proof.Machine.execMigrationStart field page s
  | .migrationSwitch field page => Sys2Proof.Machine.execMigrationSwitch field page s
  | .leaseReturn index => Sys2Proof.Machine.execLeaseReturn index s
  | .poisonBlock field ua => Sys2Proof.Machine.execPoisonBlock field ua s
  | .refetchDone field ua clean => Sys2Proof.Machine.execRefetchDone field ua clean s
  | .dmListCheck ch => Sys2Proof.Machine.execDmListCheck ch s
  | .dmAccessError ch code done => Sys2Proof.Machine.execDmAccessError ch code done s
  | .dmRunComplete ch => Sys2Proof.Machine.execDmRunComplete ch s
  | .dmTimerExpiry ch => Sys2Proof.Machine.execDmTimerExpiry ch s
  | .dramStartupStage fail usec => Sys2Proof.Machine.execDramStartupStage fail usec s
  | .linkFrame port decoded corrected hdr crc body => Sys2Proof.Machine.execLinkFrame port decoded corrected hdr crc body s
  | .hello port system devid pport rev pm1 qm1 => Sys2Proof.Machine.execHello port system devid pport rev pm1 qm1 s
  | .lack port count => Sys2Proof.Machine.execLack port count s
  | .lnak port num => Sys2Proof.Machine.execLnak port num s
  | .cred port returns => Sys2Proof.Machine.execCred port returns s
  | .bye port => Sys2Proof.Machine.execBye port s
  | .mrd port m => Sys2Proof.Machine.execMrd port m s
  | .mwr port m => Sys2Proof.Machine.execMwr port m s
  | .urd port m => Sys2Proof.Machine.execUrd port m s
  | .evt port m => Sys2Proof.Machine.execEvt port m s
  | .dig port m => Sys2Proof.Machine.execDig port m s
  | .wake port m => Sys2Proof.Machine.execWake port m s
  | .rdata port m => Sys2Proof.Machine.execRdata port m s
  | .wack port m => Sys2Proof.Machine.execWack port m s
  | .portDown port => Sys2Proof.Machine.execPortDown port s
  | .prbsDetect port => Sys2Proof.Machine.execPrbsDetect port s
  | .trainingDone port ok => Sys2Proof.Machine.execTrainingDone port ok s
  | .linkWaking port => Sys2Proof.Machine.execLinkWaking port s
  | .wakeLimitExpiry port => Sys2Proof.Machine.execWakeLimitExpiry port s
  | .linkTimeout tag => Sys2Proof.Machine.execLinkTimeout tag s
  | .wakePattern port => Sys2Proof.Machine.execWakePattern port s
  | .afSample pins => Sys2Proof.Machine.execAfSample pins s
  | .loFrame => Sys2Proof.Machine.execLoFrame s
  | .loSessionFrame => Sys2Proof.Machine.execLoSessionFrame s
  | .serveHail => Sys2Proof.Machine.execServeHail s
  | .holdExpiry x0 => Sys2Proof.Machine.execHoldExpiry x0 s
  | .wakeTimer => Sys2Proof.Machine.execWakeTimer s
  | .wakeNLow => Sys2Proof.Machine.execWakeNLow s
  | .wakeNEdge => Sys2Proof.Machine.execWakeNEdge s
  | .idleTimerExpiry => Sys2Proof.Machine.execIdleTimerExpiry s
  | .entryWindow => Sys2Proof.Machine.execEntryWindow s
  | .entryAbandon => Sys2Proof.Machine.execEntryAbandon s
  | .climbStep => Sys2Proof.Machine.execClimbStep s
  | .bankZeroed bank => Sys2Proof.Machine.execBankZeroed bank s
  | .powerSample milliwatts tj => Sys2Proof.Machine.execPowerSample milliwatts tj s
  | .telemUpdate milliwatts tj => Sys2Proof.Machine.execTelemUpdate milliwatts tj s
  | .coldBoot fallow => Sys2Proof.Machine.execColdBoot fallow s
  | .railDroop check => Sys2Proof.Machine.execRailDroop check s
  | .clockLoss check => Sys2Proof.Machine.execClockLoss check s
  | .relockAttempt ok long => Sys2Proof.Machine.execRelockAttempt ok long s
  | .relockGiveUp => Sys2Proof.Machine.execRelockGiveUp s
  | .faultPulse => Sys2Proof.Machine.execFaultPulse s
  | .blockResetDone block => Sys2Proof.Machine.execBlockResetDone block s
  | .fieldResetDone => Sys2Proof.Machine.execFieldResetDone s
  | .waypoint => Sys2Proof.Machine.execWaypoint s
  | .soundingStart idle recent => Sys2Proof.Machine.execSoundingStart idle recent s
  | .soundingVerdict => Sys2Proof.Machine.execSoundingVerdict s
  | .csiFrameStart port num elapsed => Sys2Proof.Machine.execCsiFrameStart port num elapsed s
  | .csiLine port vc dtype full good pixels => Sys2Proof.Machine.execCsiLine port vc dtype full good pixels s
  | .frameComplete port linep => Sys2Proof.Machine.execFrameComplete port linep s
  | .resetNLow => Sys2Proof.Machine.execResetNLow s
  | .frameSend port => Sys2Proof.Machine.execFrameSend port s
  | .copyComplete => Sys2Proof.Machine.execCopyComplete s
  | .clockPresent check => Sys2Proof.Machine.execClockPresent check s

end Sys2Proof.Machine
end

