-- ==== Sys2Proof/Safety.lean ====
section
/-!
DEFINITION. The terms that claims use: when a request is performed, and what counts as a safe state.
-/
namespace Sys2Proof

/-- Commands that store to no byte of memory: the host port's transfers, messages about registers, hails, keys, contexts,
jobs and counters, the control commands of a tape, and the dispatcher's own moves of jobs. -/
def Instr.storesNothing : Instr → Bool
  | .status _ | .frameWrite _ _ _ | .frameRead _ _ | .mode _ _ | .echo _ _ _ => true
  | .regRead _ _ _ _ | .lowWordRead _ _ _ | .highWordRead _ _ _ | .hail _ _ | .keyDrop _ _ _ _ => true
  | .ctxOpen _ _ _ _ _ _ | .ctxResume _ _ _ _ | .jobSubmit _ _ _ _ | .jobAbort _ _ _ _ => true
  | .counterRead _ _ _ _ _ | .counterAdd _ _ _ _ _ _ | .counterRaise _ _ _ _ _ _ => true
  | .nop _ | .step _ | .commit _ | .endd _ | .next _ | .spawn _ | .jump _ | .wait _ | .waitSatisfied _ _ => true
  | .signalAdd _ | .signalRaise _ | .fence _ | .fenceComplete _ _ | .tapeHail _ | .tapeRelease _ | .event _ => true
  | .jobStart _ | .switchBind | .switchHoldExpiry | .stepReplay _ | .completionTaken | .quantumExpiry _ => true
  | _ => false

end Sys2Proof

namespace Sys2Proof.Machine

/-- A request of the type from the role is performed: HP can hand it over (R639, R652), and none of R645's answers turns it
away. `n` is the most result bytes. -/
structure State.Performs (s : State) (r : Role) (typ n : Nat) : Prop where
  take : s.canTake r n = true
  gate : s.msgGate r typ = none

/-- A KV operation on context `c` of field `f` is performed (R267, R268): the request is performed, no host operation waits
for the copier, the field's slot is open to its own session's operations (R435), GDDR6 has started up (R660), the role may act
on the field, the context is idle with no flush in its way (`publish` runs on a busy context too; `free` admits FLUSH 2), and KM.CTL.MODE is the one the operation needs. -/
structure State.KvPerforms (s : State) (r : Role) (c f : Nat) (free publish : Bool) (mode : Option Bool) : Prop where
  performs : s.Performs r Msg.kv 4
  copier : s.hostWaits = false
  slot : s.hostSlot r f = true
  started : s.mcStage = none
  field : s.ctxField c = some f
  may : Role.mayField r f = true
  idle : publish = true ∨ s.kvBusy c free = false
  mode : mode = none ∨ mode = some s.kmService

/-- A safe state: memory is in its canonical form. The model has no fault and no stop, so nothing else can be unsafe in it. -/
def State.Safe (s : State) : Prop := Memory.wf s.mem = true

end Sys2Proof.Machine
end

