-- ==== Sys2Proof/Certificates/Slice0/Obligations.lean ====
section
/-!
DEFINITION. The statements for the provers, each a Prop over the model; OBLIGATIONS.json lists them.
-/
open Sys2Proof Sys2Proof.Machine

/-- For every state, command and rest of the queue, a step of the state with that command at the front of its queue
answers exactly what exec answers for the command on the same state with the rest as its queue. With no command
waiting a step answers the same state: that is the model's own convention (log 1), since the block of the model
changes by commands alone. (R5) -/
def Obligations.StepRunsFrontCommand : Prop :=
  (∀ (s : State) (c : Instr) (cs : List Instr),
    step { s with pending := c :: cs } = exec c { s with pending := cs }) ∧
  (∀ s : State, s.pending = [] → step s = .next s)

/-- At reset the device stands on Doze with no image, no claim, no context, no session key, an empty outbound queue,
every byte of memory reading zero and canonical, the safe state not entered, and no command waiting. Rung Doze and
the blank fuses are the model's reading of the manual (log 5, log 6). (R25, R655, R656) -/
def Obligations.ResetIsTheMachineAtPowerOn : Prop :=
  State.reset.pw.rung = .doze ∧ State.reset.image = none ∧ State.reset.pw.claims = [] ∧ State.reset.dx.ctxs = [] ∧
  State.reset.sx.sessionKeys = [] ∧ State.reset.hp.outq = [] ∧ State.reset.pending = [] ∧ State.reset.safe = false ∧
  State.reset.Safe ∧ ∀ a, State.reset.byte a = 0

/-- No command of the block faults or is refused, whatever the state: every error the manual names is a code or an
event, so every step goes on. (R12, R644) -/
def Obligations.NoCommandStops : Prop :=
  ∀ (c : Instr) (s : State), ∃ t, exec c s = .next t

/-- Whatever the state, if a step answers a next state then the commands waiting in it are those that waited behind
the front one, in the same order: no meaning drops, adds or reorders a waiting command. (R644) -/
def Obligations.StepTakesExactlyTheFront : Prop :=
  ∀ s t : State, step s = .next t → t.pending = s.pending.tail

/-- For every state whose memory is canonical (addresses strictly rising, no listed byte 0x00), if a step answers a
next state then that state's memory is canonical. (R20, R662) -/
def Obligations.StepKeepsMemoryCanonical : Prop :=
  ∀ s t : State, s.Safe → step s = .next t → t.Safe

/-- For every state and every command, the OWNER slots programmed before are the first of those programmed after,
unchanged and in order, and neither the count of Tally bits tried nor the count burnt falls. (R573, R577, R583) -/
def Obligations.FusesNeverUnblow : Prop :=
  ∀ (c : Instr) (s t : State), exec c s = .next t → Memory.wf s.mem = true →
    s.sx.owners <+: t.sx.owners ∧ s.sx.tallyUsed ≤ t.sx.tallyUsed ∧ s.sx.tallyBurnt ≤ t.sx.tallyBurnt

/-- When HP runs and the command's second byte is right for the transfer mode, STATUS drives sixteen bytes: IN_FREE
little-endian, the length of the head outbound frame or 0 when the queue is empty, a byte with bit 0 set in 8D, bit 1
with an image in force and bit 2 in the safe state, the rung code, and six zero bytes; nothing else changes. (R636) -/
def Obligations.StatusDrivesSixteenBytes : Prop :=
  ∀ (s : State) (inv : Byte), s.coreUp = true → s.inReset 40 = false → (s.hp.dtr = false ∨ inv = ~~~(0x05 : Byte)) →
    let bytes := natLE 4 s.inFree ++ natLE 4 (match s.hp.outq with | [] => 0 | f :: _ => f.size) ++
      natLE 1 ((if s.hp.dtr then 1 else 0) + (if s.image.isSome then 2 else 0) + (if s.safe then 4 else 0)) ++
      natLE 1 s.pw.rung.code ++ [0, 0, 0, 0, 0, 0]
    exec (.status inv) s = .next { s with hp := { s.hp with dq := bytes } }

/-- When HP runs and the command's second byte is right for the transfer mode: of an empty queue the host reads
`most` bytes of 0x00 and nothing changes. With frames waiting and no outbound parity injection armed it reads the
first `most` bytes of the head frame, padded with 0x00; a read that ends sooner changes nothing else, so the next one
returns the frame again from its first byte, and one that reaches the frame's end takes it off the queue, after which
the requests of no message that waited for room are answered BAD_TYPE; where each waiting request spells a message,
nothing more changes. With the injection armed, the check is made, the frame leaves the queue and counts in EVLOST,
and the bytes driven are free values. In 8D a wrong second byte drives nothing and counts in BADFRAMES. (R635, R638, R645, R664) -/
def Obligations.FrameReadTakesTheHeadFrame : Prop :=
  (∀ (s : State) (inv : Byte) (most : Nat), s.coreUp = true → s.inReset 40 = false →
    (s.hp.dtr = false ∨ inv = ~~~(0x13 : Byte)) →
    (s.hp.outq = [] → exec (.frameRead inv most) s = .next { s with hp := { s.hp with dq := List.replicate most 0 } }) ∧
    (∀ f fs, s.hp.outq = f :: fs → s.armed Reg.hpInject 1 = false →
      let dq := f.bytes.take most ++ List.replicate (most - f.bytes.length) 0
      (most < f.bytes.length → exec (.frameRead inv most) s = .next { s with hp := { s.hp with dq := dq } }) ∧
      (f.bytes.length ≤ most →
        exec (.frameRead inv most) s = .next ({ s with hp := { s.hp with dq := dq, outq := fs } } : State).refuseBad)) ∧
    (s.hp.outq ≠ [] → s.armed Reg.hpInject 1 = true →
      let u := (s.check Reg.hpInject Reg.hpErr 1 40 none).popFrame.evLost
      exec (.frameRead inv most) s = .next { u with
        hp := { u.hp with dq := (List.range most).map (Config.freeByte u.free) }, free := u.free + 1 })) ∧
  (∀ (s : State) (inv : Byte) (most : Nat), s.coreUp = true → s.inReset 40 = false → s.hp.dtr = true → inv ≠ ~~~(0x13 : Byte) →
    exec (.frameRead inv most) s = .next ({ s with hp := { s.hp with dq := [] } } : State).badFrame) ∧
  (∀ u : State, (∀ q ∈ u.hp.requests, (messageOf q.role q.typ q.rid q.payload).isSome = true) → u.refuseBad = u)

/-- When HP runs and the command's second byte is right: a frame whose driven bytes differ in number from the address
adds 1 to BADFRAMES; one of that length that does not fit adds 1 to OVERRUNS; one that fits and meets the armed
inbound injection has the check made and adds 1 to BADFRAMES; and one that fits, meets none and is malformed adds 1
to BADFRAMES. Each is answered in the open role, BAD_FRAME or for the second HP_BUSY, with bytes 0 to 15 of the
header as received; the answer is queued where the outbound queue has room for it. Neither the count nor the answer
accepts a request or stores a byte. (R635, R637, R641, R664) -/
def Obligations.FrameWriteDiscardsBadFrames : Prop :=
  (∀ (s : State) (inv : Byte) (len : Nat) (d : List Byte), s.coreUp = true → s.inReset 40 = false →
    (s.hp.dtr = false ∨ inv = ~~~(0x12 : Byte)) →
    let u : State := { s with hp := { s.hp with dq := [] } }
    (d.length ≠ len → exec (.frameWrite inv len d) s = .next (u.badFrame.answerOpen Code.badFrame d)) ∧
    (d.length = len → s.inFree < len →
      exec (.frameWrite inv len d) s = .next ((u.bump Reg.hpCnt0 31 16 49 1 none).answerOpen Code.hpBusy d)) ∧
    (d.length = len → len ≤ s.inFree → s.armed Reg.hpInject 0 = true → exec (.frameWrite inv len d) s =
      .next ((u.check Reg.hpInject Reg.hpErr 0 40 none).badFrame.answerOpen Code.badFrame d)) ∧
    (d.length = len → len ≤ s.inFree → s.armed Reg.hpInject 0 = false → frameOk d = false →
      exec (.frameWrite inv len d) s = .next (u.badFrame.answerOpen Code.badFrame d))) ∧
  (∀ (s : State) (code : Nat) (d : List Byte),
    (s.outUsed + 56 ≤ 262144 → (s.answerOpen code d).hp.outq = s.hp.outq ++ [⟨.anon,
      (fld ((List.range 16).map (bAt d)) 4 2 + 0x8000) % 65536, fld ((List.range 16).map (bAt d)) 12 4, 0, none,
      [BitVec.ofNat 8 code, 0, 0, 0] ++ (List.range 16).map (bAt d)⟩]) ∧
    (s.answerOpen code d).hp.requests = s.hp.requests ∧ (s.answerOpen code d).mem = s.mem ∧
    (s.answerOpen code d).regs = s.regs) ∧
  (∀ s : State, s.badFrame.getF Reg.hpCnt0 15 0 = min 65535 (s.getF Reg.hpCnt0 15 0 + 1) ∧
    s.badFrame.hp.requests = s.hp.requests ∧ s.badFrame.mem = s.mem)

/-- When HP runs, the command's second byte is right, and the frame is well formed, as long as its address says, fits
and meets no armed injection: an open-role frame is accepted with its payload as it stands. A session frame, after
the key store's check, is accepted with its opened payload when its role holds a key, its tag verifies, its counter
exceeds the last accepted one and the session's outbound counter is not spent; its counter becomes the last accepted
one. A session frame of a role without a key, or whose tag fails, or whose counter is not fresh, is discarded without
an answer and counts in AUTHFAIL. Acceptance adds the request behind those that wait, counts it in FRAMES, and
answers BAD_TYPE to the requests of no message; where each request spells a message, it changes nothing else. (R580, R635, R637, R641, R642, R644) -/
def Obligations.FrameWriteAcceptsRequests : Prop :=
  (∀ (s : State) (inv : Byte) (d : List Byte), s.coreUp = true → s.inReset 40 = false →
    (s.hp.dtr = false ∨ inv = ~~~(0x12 : Byte)) → d.length ≤ s.inFree → s.armed Reg.hpInject 0 = false → frameOk d = true →
    let u : State := { s with hp := { s.hp with dq := [] } }
    (Role.ofCode (fld d 3 1) = some .anon →
      exec (.frameWrite inv d.length d) s = .next (u.acceptFrame .anon d (slice d 32 (fld d 8 4)))) ∧
    (∀ r : Role, r ≠ .anon → Role.ofCode (fld d 3 1) = some r →
      let v := u.keyCheck
      (∀ k p : List Byte, v.sessionKey r = some k →
        gcmOpen k (frameNonce r.code 0 (fld d 16 8)) (d.take 32) (slice d 32 (fld d 8 4)) (slice d (32 + fld d 8 4) 16) = some p →
        ((∀ c, Map.find v.sx.inCtr r.code = some c → c < fld d 16 8) → Map.get v.sx.outCtr r.code 0 < 2 ^ 64 - 1 →
          exec (.frameWrite inv d.length d) s = .next (({ v with sx := { v.sx with
            inCtr := Map.put v.sx.inCtr r.code (fld d 16 8) } } : State).acceptFrame r d p)) ∧
        (∀ c, Map.find v.sx.inCtr r.code = some c → fld d 16 8 ≤ c →
          exec (.frameWrite inv d.length d) s = .next v.authFail)) ∧
      (∀ k : List Byte, v.sessionKey r = some k →
        gcmOpen k (frameNonce r.code 0 (fld d 16 8)) (d.take 32) (slice d 32 (fld d 8 4)) (slice d (32 + fld d 8 4) 16) = none →
        exec (.frameWrite inv d.length d) s = .next v.authFail) ∧
      (v.sessionKey r = none → exec (.frameWrite inv d.length d) s = .next v.authFail))) ∧
  (∀ (s : State) (r : Role) (d p : List Byte), (messageOf r (fld d 4 2) (fld d 12 4) p).isSome = true →
    (∀ q ∈ s.hp.requests, (messageOf q.role q.typ q.rid q.payload).isSome = true) →
    s.acceptFrame r d p = ({ s with hp := { s.hp with
      requests := s.hp.requests ++ [⟨r, fld d 4 2, fld d 12 4, p, d.length⟩] } } : State).bump32 Reg.hpCnt1 1 none)

/-- When HP runs and the command's second byte is right, MODE with byte 0x00 sets 8S and with 0x01 sets 8D, driving
nothing and changing nothing else; any other byte 0 leaves the mode as it was. A command with a wrong second byte in
8D leaves the mode too and counts in BADFRAMES, which saturates. When HP can hand the request over and no earlier
reset of HP discards its reply, ECHO takes the request and queues exactly one frame behind the others: for the open
role with counter 0 and no key, for a session holding a key with that session's outbound counter, which rises by one;
the payload is OK, three zero bytes and the data. Memory and registers stand. (R635, R644) -/
def Obligations.ModeIsSetAndEchoReturnsItsData : Prop :=
  (∀ (s : State) (inv b : Byte), s.coreUp = true → s.inReset 40 = false → (s.hp.dtr = false ∨ inv = ~~~(0x71 : Byte)) →
    (b = 0 → exec (.mode inv b) s = .next { s with hp := { s.hp with dtr := false, dq := [] } }) ∧
    (b = 1 → exec (.mode inv b) s = .next { s with hp := { s.hp with dtr := true, dq := [] } }) ∧
    (b ≠ 0 → b ≠ 1 → exec (.mode inv b) s = .next { s with hp := { s.hp with dq := [] } })) ∧
  (∀ (s : State) (inv b : Byte), s.coreUp = true → s.inReset 40 = false → s.hp.dtr = true → inv ≠ ~~~(0x71 : Byte) →
    ∃ t, exec (.mode inv b) s = .next t ∧ t.hp.dtr = true ∧ t.hp.dq = [] ∧ t.mem = s.mem ∧
      t.getF Reg.hpCnt0 15 0 = min 65535 (s.getF Reg.hpCnt0 15 0 + 1)) ∧
  (∀ (s : State) (r : Role) (rid : Nat) (data : List Byte), s.Performs r Msg.echo data.length →
      s.hp.discard = [] →
      ∃ t, exec (.echo r rid data) s = .next t ∧ t.mem = s.mem ∧ t.regs = s.regs ∧
        t.hp.requests = (s.takeRequest r rid Msg.echo).hp.requests ∧
        (r = .anon → t.hp.outq = s.hp.outq ++ [⟨.anon, 0x8001, rid, 0, none, [0, 0, 0, 0] ++ data⟩] ∧ t.sx = s.sx) ∧
        (∀ k, r ≠ .anon → s.sessionKey r = some k →
          t.hp.outq = s.hp.outq ++ [⟨r, 0x8001, rid, Map.get s.sx.outCtr r.code 0, some k, [0, 0, 0, 0] ++ data⟩] ∧
          Map.get t.sx.outCtr r.code 0 = Map.get s.sx.outCtr r.code 0 + 1))

/-- A performed REG_READ of 1 to 256 words in the control space answers OK with the words read in address order.
LOW_WORD_READ of a 64-bit register answers its low word and makes the high word the source's capture. HIGH_WORD_READ
answers the captured word and ends the capture where the capture names the register, and the live high word
otherwise. No other source's capture changes. (R16, R647) -/
def Obligations.RegisterReadsCaptureTheHighWord : Prop :=
  (∀ (s : State) (r : Role) (rid a n : Nat), s.Performs r Msg.regRead (4 * n) → 1 ≤ n → n ≤ 256 → a < 2 ^ 32 →
    controlSpan a n = true →
    let u := s.takeRequest r rid Msg.regRead
    exec (.regRead r rid a n) s = .next ((u.readWords r a n).1.reply r Msg.regRead rid Code.ok (u.readWords r a n).2)) ∧
  (∀ (s : State) (r : Role) (rid a : Nat) (d : RegDesc) (c b : Nat), s.Performs r Msg.regRead 4 → a % 4 = 0 →
    regAt a = some (d, c, b, false) → d.width = 64 →
    let u := s.takeRequest r rid Msg.regRead
    exec (.lowWordRead r rid a) s = .next (({ u with cap := Map.put u.cap r.code (c, BitVec.ofNat 32 (u.shown r b c / 2 ^ 32)) } :
      State).reply r Msg.regRead rid Code.ok (natLE 4 (BitVec.ofNat 32 (u.shown r b c)).toNat))) ∧
  (∀ (s : State) (r : Role) (rid a : Nat) (d : RegDesc) (c b : Nat), s.Performs r Msg.regRead 4 → a % 4 = 0 →
    regAt a = some (d, c, b, true) → d.width = 64 →
    let u := s.takeRequest r rid Msg.regRead
    (∀ w, Map.find s.cap r.code = some (c, w) →
      exec (.highWordRead r rid a) s =
        .next (({ u with cap := Map.del u.cap r.code } : State).reply r Msg.regRead rid Code.ok (natLE 4 w.toNat))) ∧
    ((∀ w, Map.find s.cap r.code ≠ some (c, w)) →
      exec (.highWordRead r rid a) s =
        .next (u.reply r Msg.regRead rid Code.ok (natLE 4 (BitVec.ofNat 32 (u.shown r b c / 2 ^ 32)).toNat))))

/-- A performed REG_WRITE of 1 to 256 words in the control space writes them in address order and answers OK. An
owner's word to HP.INJECT, a register with no effect beyond R19, sets its rw bits [1:0] and changes no other register
and no byte of memory. A word to the read-only HP.INFO changes nothing, and neither does one to a misaligned address,
to the information area, or to an address that no register holds, from any role. (R15, R16, R19, R647) -/
def Obligations.RegisterWritesActWordByWord : Prop :=
  (∀ (s : State) (r : Role) (rid a : Nat) (ws : List W32), s.Performs r Msg.regWrite 0 → 1 ≤ ws.length → ws.length ≤ 256 →
    a < 2 ^ 32 → controlSpan a ws.length = true →
    exec (.regWrite r rid a ws) s =
      .next (((s.takeRequest r rid Msg.regWrite).writeWords r a ws).reply r Msg.regWrite rid Code.ok [])) ∧
  (∀ (s : State) (r : Role) (a : Nat) (v : W32), a % 4 ≠ 0 ∨ a < 0x10000 ∨ regAt a = none → s.writeWord r a v = s) ∧
  (∀ (s : State) (v : W32), s.inReset 40 = false →
    (s.writeWord .owner Reg.hpInject v).getF Reg.hpInject 1 0 = v.toNat % 4 ∧
    (∀ a, a ≠ Reg.hpInject → (s.writeWord .owner Reg.hpInject v).reg a = s.reg a) ∧
    (∀ a, (s.writeWord .owner Reg.hpInject v).byte a = s.byte a)) ∧
  (∀ (s : State) (v : W32), s.writeWord .owner Reg.hpInfo v = s)

/-- For each of QU_CLEAR, QU_WATCH_WRITE, ME_DGRP_WRITE, KM_MODE_WRITE, AF_BEAM_COMMIT, MC_RETRAIN, TU_NBR_WRITE and
TU_LEND_WRITE by the owner, performed while the register's block is not in reset: the step that the register's rule
gives is performed on the state with the request taken, and one OK reply follows. QU_CLEAR clears the count and DRIFT
bit of every watch its word names. A watch write waits behind those held before it while the engine's command runs or
waits inside itself, and so does a digest group's while a DIGEST of the group waits; neither then changes a register. (R99, R106, R200, R270, R457, R661, R355, R357) -/
def Obligations.OwnerWritesWithAStepOfTheirOwn : Prop :=
  (∀ (s : State) (rid : Nat) (v : W32), s.Performs .owner Msg.regWrite 0 →
    let u := s.takeRequest .owner rid Msg.regWrite
    let ok (t : State) : Host.Outcome State Fault Refusal := .next (t.reply .owner Msg.regWrite rid Code.ok [])
    (∀ (e : Nat) (hi : Bool), e ≤ 10 → s.inReset e = false → exec (.quClear .owner rid e hi v) s = ok (u.clearWatches e hi v)) ∧
    (∀ (e n : Nat) (hi : Bool), e ≤ 10 → n < 64 → s.inReset e = false →
      exec (.quWatchWrite .owner rid e n hi v) s = ok (u.watchWrite e n hi v)) ∧
    (∀ (e : Nat) (hi : Bool), e ≤ 10 → s.inReset e = false →
      exec (.quWatchWrite .owner rid e 64 hi v) s = ok (u.watchWrite e 64 false v)) ∧
    (∀ (e n : Nat) (peer hi : Bool), e ≤ 4 → n < 8 → s.inReset e = false →
      exec (.meDgrpWrite .owner rid e n peer hi v) s = ok (u.dgrpWrite n peer hi v)) ∧
    (s.inReset 38 = false → exec (.kmModeWrite .owner rid v) s = ok (u.writeKmCtl v)) ∧
    (s.inReset 12 = false → exec (.afBeamCommit .owner rid v) s = ok (if v.getLsbD 0 then u.commitBeam else u)) ∧
    (∀ (d : RegDesc) (c b : Nat), regAt Reg.mcTrain = some (d, c, b, false) → s.inReset b = false →
      exec (.mcRetrain .owner rid v) s = ok (u.trainWrite d v)) ∧
    (∀ (n : Nat) (hi : Bool), n < 8 → s.inReset 31 = false → exec (.tuNbrWrite .owner rid n hi v) s = ok (u.writeNbr n hi v)) ∧
    (s.inReset 31 = false → exec (.tuLendWrite .owner rid v) s = ok (u.writeLend v))) ∧
  (∀ (s : State) (e i : Nat) (hi : Bool) (v : W32), e ≤ 10 → i < 32 → v.getLsbD i = true →
    let n := if hi then 32 + i else i
    (s.clearWatches e hi v).reg (Reg.quSatcnt e n) = 0 ∧ (s.clearWatches e hi v).getF (Reg.quDrift e) n n = 0) ∧
  (∀ (s : State) (e n : Nat) (hi : Bool) (v : W32), (s.engine e).running.isSome = true ∨ (s.engWaits e).any Wait.inner = true →
    e < s.engines.length → (s.watchWrite e n hi v).regs = s.regs ∧
      ((s.watchWrite e n hi v).engine e).heldWatch = (s.engine e).heldWatch ++ [(n, hi, v)]) ∧
  (∀ (s : State) (n : Nat) (peer hi : Bool) (v : W32), Map.find s.dig.waiting n ≠ none →
    s.dgrpWrite n peer hi v = { s with dig := { s.dig with held := s.dig.held ++ [(n, peer, hi, v)] } })

/-- LX_EN_WRITE, LX_ID_WRITE, DM_CFG_WRITE, DM_TIMER_WRITE, IP_GATE_WRITE, IP_PORT_CTL_WRITE and AF_CFG_WRITE by the
owner, performed while the register's block is not in reset, perform their register's step on the state with the
request taken and answer OK; IP.PORT.CTL and AF.CFG take their writable bits, and the cameras then follow their
enables. A field session's write of SRC or DST of a channel of its own does the same, and one of CFG or TIMER is
discarded. A write to CFG, SRC, DST or TIMER of a DM channel that is BUSY is held behind those held before and
changes no register. (R569, R570, R395, R398, R415, R504, R508, R478) -/
def Obligations.OwnerWritesToLinksChannelsAndCameras : Prop :=
  (∀ (s : State) (rid : Nat) (v : W32), s.Performs .owner Msg.regWrite 0 →
    let u := s.takeRequest .owner rid Msg.regWrite
    let ok (t : State) : Host.Outcome State Fault Refusal := .next (t.reply .owner Msg.regWrite rid Code.ok [])
    (∀ p, p < 4 → s.inReset (33 + p) = false → exec (.lxEnWrite .owner rid p v) s = ok (u.writeLxCtl p v)) ∧
    (∀ hi, s.inReset 33 = false → exec (.lxIdWrite .owner rid hi v) s = ok (u.writeLxId hi v)) ∧
    (∀ ch k hi, ch < 32 → k < 3 → s.inReset 32 = false →
      exec (.dmCfgWrite .owner rid ch k hi v) s = ok (u.dmRegWrite ch k hi v)) ∧
    (∀ ch hi, ch < 32 → s.inReset 32 = false → exec (.dmTimerWrite .owner rid ch hi v) s = ok (u.dmRegWrite ch 3 hi v)) ∧
    (∀ hi, s.inReset 11 = false → exec (.ipGateWrite .owner rid false hi v) s = ok (u.writeIpGate Reg.ipGate hi v)) ∧
    (∀ hi, s.inReset 11 = false → exec (.ipGateWrite .owner rid true hi v) s = ok (u.writeIpGate Reg.ipGateentry false v)) ∧
    (∀ (p : Nat) (d : RegDesc) (c b : Nat), p < 4 → regAt (Reg.ipPortCTL p) = some (d, c, b, false) → s.inReset b = false →
      exec (.ipPortCtlWrite .owner rid p v) s = ok (u.plainWrite d c false v).settleCameras) ∧
    (∀ (d : RegDesc) (c b : Nat), regAt Reg.afCfg = some (d, c, b, false) → s.inReset b = false →
      exec (.afCfgWrite .owner rid v) s = ok (u.plainWrite d c false v))) ∧
  (∀ (s : State) (f : Fin 8) (rid ch : Nat) (hi : Bool) (v : W32), s.Performs (.field f) Msg.regWrite 0 → ch < 32 →
    s.inReset 32 = false →
    let u := s.takeRequest (.field f) rid Msg.regWrite
    let ok (t : State) : Host.Outcome State Fault Refusal := .next (t.reply (.field f) Msg.regWrite rid Code.ok [])
    (∀ k, k = 1 ∨ k = 2 → s.fieldChannel f.val ch = true → exec (.dmCfgWrite (.field f) rid ch k hi v) s = ok (u.dmRegWrite ch k hi v)) ∧
    exec (.dmCfgWrite (.field f) rid ch 0 hi v) s = ok u ∧ exec (.dmTimerWrite (.field f) rid ch hi v) s = ok u) ∧
  (∀ (s : State) (ch k : Nat) (hi : Bool) (v : W32), (s.dmChan ch).run ≠ none →
    (s.dmRegWrite ch k hi v).regs = s.regs ∧ ((s.dmRegWrite ch k hi v).dmChan ch).held = (s.dmChan ch).held ++ [(k, hi, v)])

/-- FC_CLEAR, FC_FORCE, FC_FENCE_SET, FC_FENCE_RETURN, FC_BLOCK_RESET, FC_FIELD_RESET, FC_SAFE, WP_FIRE, WP_ARM and
INJECT_ARM by the owner, performed while the block of the register is not in reset, perform that register's step on
the state with the request taken and answer OK. INJECT_ARM arms the bits of the register that its block's window
holds; PW and CK fake their armed detections at once. FORCE sends one pulse, which names no step, for each source its
word names among bits 0 to 44 and 63. (R605, R607, R613, R614, R616, R617, R627, R631) -/
def Obligations.FaultCollectorWrites : Prop :=
  (∀ (s : State) (rid : Nat) (v : W32), s.Performs .owner Msg.regWrite 0 →
    let u := s.takeRequest .owner rid Msg.regWrite
    let ok (t : State) : Host.Outcome State Fault Refusal := .next (t.reply .owner Msg.regWrite rid Code.ok [])
    (s.inReset 63 = false →
      (∀ hi, exec (.fcClear .owner rid hi v) s = ok (u.clearSources hi v)) ∧
      (∀ hi, exec (.fcForce .owner rid hi v) s = ok (u.forceSources hi v)) ∧
      exec (.fcFenceSet .owner rid v) s = ok (u.fcUpdate.writeFcFence v.toNat) ∧
      exec (.fcFenceReturn .owner rid v) s = ok (u.fcUpdate.writeFcFence v.toNat) ∧
      (∀ b, b < 64 → exec (.fcBlockReset .owner rid b) s = ok (u.fcUpdate.writeFcReset b)) ∧
      (∀ f, f < 8 → exec (.fcFieldReset .owner rid f) s = ok (u.fcUpdate.writeFcReset (2 ^ 30 + f))) ∧
      exec (.fcSafe .owner rid) s = ok (u.fcUpdate.enterSafe 64)) ∧
    (∀ (d : RegDesc) (c b : Nat), regAt Reg.wpCtl = some (d, c, b, false) → s.inReset b = false →
      exec (.wpFire .owner rid) s = ok (u.wpWrite d (BitVec.ofNat 32 (s.reg Reg.wpCtl) ||| 0x40000000)) ∧
      (∀ sd : Bool, exec (.wpArm .owner rid sd) s = ok (u.wpWrite d (if sd then 0xA0000000 else 0x80000000)))) ∧
    (∀ (k : Nat) (d : RegDesc) (c b : Nat), k < 64 → regAt (regAddr k (injectOff k)) = some (d, c, b, false) → s.inReset b = false →
      exec (.injectArm .owner rid k v) s = ok (if k = 41 then u.pwInject d v else if k = 42 then u.ckInject d v
        else u.plainWrite d c false v))) ∧
  (∀ (s : State) (hi : Bool) (v : W32), ∃ l : List Nat,
    (s.forceSources hi v).fc.pulses = s.fc.pulses ++ l.map (fun b => ⟨b, none⟩) ∧
    ∀ b, b ∈ l ↔ ((if hi then 32 ≤ b else b < 32) ∧ b < 64 ∧ v.getLsbD (b % 32) = true ∧ (b ≤ 44 ∨ b = 63)))

/-- Performed, APERTURE with a base that is a multiple of 2 GiB below 2^48 sets the role's base and answers OK.
MEM_READ of 1 to 65,536 bytes that lead to local memory a, with no wait and no poison, answers OK with the bytes at
a; in GDDR6 nothing else changes. MEM_WRITE of 1 to 65,536 bytes that lead to local memory a, with no wait, stores
the data from a on, changes no byte outside and no register, and answers OK. Either waits while its GDDR6 channel
starts up or too few tags are free, answers BAD_ADDRESS where it reaches nothing, and sends its pieces where it
reaches a neighbour; a read that meets an uncorrectable word answers MEM_POISON. (R578, R647, R692) -/
def Obligations.ApertureReadsAndWritesMemory : Prop :=
  (∀ (s : State) (r : Role) (rid base : Nat), s.Performs r Msg.aperture 0 → base % 2 ^ 31 = 0 → base < 2 ^ 48 →
    exec (.aperture r rid base) s =
      .next (((s.takeRequest r rid Msg.aperture).setReg (Reg.hpAper r.code) base).reply r Msg.aperture rid Code.ok [])) ∧
  (∀ (s w : State) (r : Role) (rid off len a : Nat) (bs : List Byte), s.Performs r Msg.memRead len → 1 ≤ len → len ≤ 65536 →
    off < 2 ^ 32 → s.aperWaits r false off len = false → s.aperReach r false off len = .here a →
    (s.takeRequest r rid Msg.memRead).readHere a len = (w, some bs) →
    exec (.memRead r rid off len) s = .next (w.reply r Msg.memRead rid Code.ok bs) ∧ bs = s.read a len ∧
    (0x10000000 ≤ a → w = s.takeRequest r rid Msg.memRead)) ∧
  (∀ (s : State) (r : Role) (rid off a : Nat) (data : List Byte), s.Performs r Msg.memWrite 0 → 1 ≤ data.length →
    data.length ≤ 65536 → off < 2 ^ 32 → s.aperWaits r true off data.length = false →
    s.aperReach r true off data.length = .here a →
    ∃ t, exec (.memWrite r rid off data.length data) s = .next t ∧ (∀ i (h : i < data.length), t.byte (a + i) = data[i]) ∧
      (∀ x, x < a ∨ a + data.length ≤ x → t.byte x = s.byte x) ∧ t.regs = s.regs ∧
      t = ((s.takeRequest r rid Msg.memWrite).write a data).reply r Msg.memWrite rid Code.ok []) ∧
  (∀ (s : State) (r : Role) (rid off len : Nat), s.Performs r Msg.memRead len → 1 ≤ len → len ≤ 65536 → off < 2 ^ 32 →
    let u := s.takeRequest r rid Msg.memRead
    (s.aperWaits r false off len = true → exec (.memRead r rid off len) s = .next s) ∧
    (s.aperWaits r false off len = false →
      (s.aperReach r false off len = .bad →
        exec (.memRead r rid off len) s = .next (u.reply r Msg.memRead rid Code.badAddress [])) ∧
      (∀ d o, s.aperReach r false off len = .there d o →
        exec (.memRead r rid off len) s = .next (u.gatherStart r rid d o len true [])) ∧
      (∀ a w, s.aperReach r false off len = .here a → u.readHere a len = (w, none) →
        exec (.memRead r rid off len) s = .next (w.reply r Msg.memRead rid Code.memPoison [])))) ∧
  (∀ (s : State) (r : Role) (rid off : Nat) (data : List Byte), s.Performs r Msg.memWrite 0 → 1 ≤ data.length →
    data.length ≤ 65536 → off < 2 ^ 32 →
    let u := s.takeRequest r rid Msg.memWrite
    (s.aperWaits r true off data.length = true → exec (.memWrite r rid off data.length data) s = .next s) ∧
    (s.aperWaits r true off data.length = false →
      (s.aperReach r true off data.length = .bad →
        exec (.memWrite r rid off data.length data) s = .next (u.reply r Msg.memWrite rid Code.badAddress [])) ∧
      (∀ d o, s.aperReach r true off data.length = .there d o →
        exec (.memWrite r rid off data.length data) s = .next (u.gatherStart r rid d o data.length false data))))

/-- Without an image, and with memory that waits for nothing, the owner's aperture read of any bytes that lie in the
commons leads to them; a field session reaches bytes of the commons only where every bank they touch lies in a window
of one of its field's enabled DM field channels; the open role reaches none. (R20, R578, R343) -/
def Obligations.OwnerReachesAllOfLocalMemory : Prop :=
  (∀ (s : State) (off n : Nat), s.image = none → off < 2 ^ 31 → s.aperture .owner + off + n ≤ 0x10000000 → 0 < n →
    s.aperReach .owner false off n = .here (s.aperture .owner + off)) ∧
  (∀ (s : State) (f : Fin 8) (w : Bool) (off n a : Nat), s.aperReach (.field f) w off n = .here a → 0 < n →
    a + n ≤ 0x10000000 ∧ inWindows (s.fieldWindows f.val) a n = true) ∧
  (∀ (s : State) (w : Bool) (off n : Nat), 0 < n → s.aperReach .anon w off n = .bad)

/-- Performed, HOST_CLAIM with a rung code 0 to 5 makes that rung the host's own claim and with 0xFF clears it; HAIL
raises HOST while no claim of HOST stands and answers OK; RELEASE of hail 0 to 13 releases its claim and answers OK.
SERVE_HAIL, with PW running, no window open, the edge latch clear and the safe state not entered, takes the raised
hail with the lowest number off the raised ones and serves its enabled entry. HOLD_EXPIRY, with ICLK present, of a
standing claim with a hold time posts HAIL_TIMEOUT with the hail and releases the claim. (R30, R36, R38, R519, R529, R649, R682) -/
def Obligations.HostClaimsAndHailsAreServed : Prop :=
  (∀ (s : State) (rid k : Nat) (g : Rung), s.Performs .owner Msg.hostClaim 0 → k ≤ 5 → Rung.ofCode k = some g →
    let u := s.takeRequest .owner rid Msg.hostClaim
    exec (.hostClaim .owner rid k) s = .next (({ u with pw := { u.pw with hostClaim := some g } } : State).settle.reply
      .owner Msg.hostClaim rid Code.ok [])) ∧
  (∀ (s : State) (rid : Nat), s.Performs .owner Msg.hostClaim 0 →
    let u := s.takeRequest .owner rid Msg.hostClaim
    exec (.hostClaim .owner rid 0xFF) s = .next (({ u with pw := { u.pw with hostClaim := none } } : State).settle.reply
      .owner Msg.hostClaim rid Code.ok [])) ∧
  (∀ (s : State) (r : Role) (rid : Nat) (e : HailEntry), s.Performs r Msg.hail 0 →
    s.pw.claims.any (fun c => c.hail == 11) = false → s.pw.raised.any (fun q => q.hail == 11) = false →
    s.hailEntry 11 = some e → e.enable = true → s.safe = false →
    let u := s.takeRequest r rid Msg.hail
    exec (.hail r rid) s = .next (({ u with pw := { u.pw with raised := u.pw.raised ++ [⟨11, none⟩] } } : State).reply
      r Msg.hail rid Code.ok [])) ∧
  (∀ (s : State) (r : Role) (rid : Nat), s.Performs r Msg.hail 0 → s.pw.claims.any (fun c => c.hail == 11) = true →
    exec (.hail r rid) s = .next ((s.takeRequest r rid Msg.hail).reply r Msg.hail rid Code.ok [])) ∧
  (∀ (s : State) (rid h : Nat), s.Performs .owner Msg.release 0 → h ≤ 13 →
    exec (.release .owner rid h) s =
      .next (((s.takeRequest .owner rid Msg.release).releaseHail h).reply .owner Msg.release rid Code.ok [])) ∧
  (∀ (s : State) (q : Raised) (e : HailEntry), s.resetLow = false → s.inReset 41 = false → s.pw.window = false →
    s.pw.latch = false → s.safe = false → s.firstRaised = some q → s.hailEntry q.hail = some e → e.enable = true →
    exec .serveHail s = .next (({ s with pw := { s.pw with
      raised := s.pw.raised.filter (fun p => p.hail != q.hail) } } : State).serve q e)) ∧
  (∀ (s : State) (h : Nat), s.resetLow = false → s.inReset 41 = false → s.getF Reg.ckStatus 29 29 = 1 →
    s.pw.claims.any (fun c => c.hail == h && c.hold != 0) = true →
    exec (.holdExpiry h) s = .next ((s.postPw Code.hailTimeout h (natLE 1 h)).releaseHail h))

/-- If the raised hail that PW serves next is q, then q is raised and no raised hail of the table (0 to 13) has a
lower number. (R35) -/
def Obligations.FirstRaisedHailHasTheLowestNumber : Prop :=
  ∀ (s : State) (q : Raised), s.firstRaised = some q → q ∈ s.pw.raised ∧ ∀ p ∈ s.pw.raised, p.hail < 14 → q.hail ≤ p.hail

/-- Performed with SX free, no load in progress, the device not locked safe and no job queued or running, IMG_BEGIN
of 128 to 67,108,864 bytes drops the image in force, leaves every byte of the commons zero and makes a load that has
seen no byte and is zeroing. COMMONS_ZEROED ends that and answers IMG_BEGIN with OK. IMG_DATA of the next bytes,
short of the end, writes them at their offset, adds them to those seen and answers OK with 0xFFFFFFFF twice; IMG_DATA
that completes a load whose bytes fail a check answers with that check's code and indices, and one whose bytes pass
every check applies the image and answers OK; either ends the load. IMG_DATA at another offset, or past the length,
answers IMG_FORMAT and ends the load, one of another role answers IMG_BUSY, one without a load IMG_FORMAT, and one
waits while its load is zeroing. IMG_TIMEOUT ends a load that is not zeroing: no load, no session key. (R118, R119, R121, R122, R123, R657, R658) -/
def Obligations.ImageLoadRunsItsStages : Prop :=
  (∀ (s : State) (r : Role) (rid len : Nat), s.Performs r Msg.imgBegin 0 → s.sxBusy = false → 128 ≤ len → len ≤ 0x4000000 →
    s.getF Reg.fcSafe 30 30 = 0 → s.load = none → s.dispatcherIdle = true →
    ∃ t, exec (.imgBegin r rid len) s = .next t ∧ t.load = some ⟨r, rid, len, [], true⟩ ∧ t.image = none ∧
      ∀ a, a < 0x10000000 → t.byte a = 0) ∧
  (∀ (s : State) (l : Load), s.coreUp = true → s.load = some l → l.zeroing = true →
    exec .commonsZeroed s = .next (({ s with load := some { l with zeroing := false } } : State).reply l.role Msg.imgBegin
      l.rid Code.ok [])) ∧
  (∀ (s : State) (rid : Nat) (data : List Byte) (l : Load), s.Performs l.role Msg.imgData 8 → s.load = some l →
    l.zeroing = false →
    let n := l.seen.length
    let u := (s.takeRequest l.role rid Msg.imgData).write n data
    (n + data.length < l.len → exec (.imgData l.role rid n data) s = .next (({ u with
      load := some { l with seen := l.seen ++ data } } : State).reply l.role Msg.imgData rid Code.ok (natLE 4 noRec ++ natLE 4 noRec))) ∧
    (n + data.length = l.len → exec (.imgData l.role rid n data) s =
      .next (match imageReject s.sx.owners.getLast? (l.seen ++ data) (u.read 0 l.len) with
        | some (c, x, y) => (u.reply l.role Msg.imgData rid c (natLE 4 x ++ natLE 4 y)).endLoad
        | none => ((u.applyImage (l.seen ++ data) (u.read 0 l.len)).reply l.role Msg.imgData rid Code.ok
            (natLE 4 noRec ++ natLE 4 noRec)).endLoad))) ∧
  (∀ (s : State) (r : Role) (rid off : Nat) (data : List Byte), s.Performs r Msg.imgData 8 →
    let u := s.takeRequest r rid Msg.imgData
    let bad := u.reply r Msg.imgData rid Code.imgFormat (natLE 4 noRec ++ natLE 4 noRec)
    (s.load = none → exec (.imgData r rid off data) s = .next bad) ∧
    (∀ l, s.load = some l → l.role ≠ r →
      exec (.imgData r rid off data) s = .next (u.reply r Msg.imgData rid Code.imgBusy [])) ∧
    (∀ l, s.load = some l → l.role = r → l.zeroing = true → exec (.imgData r rid off data) s = .next s) ∧
    (∀ l, s.load = some l → l.role = r → l.zeroing = false → off ≠ l.seen.length ∨ l.len < l.seen.length + data.length →
      exec (.imgData r rid off data) s = .next bad.endLoad)) ∧
  (∀ (s : State) (l : Load), s.coreUp = true → s.load = some l → l.zeroing = false →
    ∃ t, exec .imgTimeout s = .next t ∧ t.load = none ∧ t.sx.sessionKeys = [] ∧ t.mem = s.mem ∧ t.image = s.image)

/-- Performed with a 32-byte nonce while SX is free, no load is in progress, an image is in force and the Tally is
not spent: QUOTE leaves the quote of the epoch's bit and leaf being signed for its role and RID under a new KEM pair,
or is answered TALLY_SPENT where no epoch can be opened. OWNER_SET, while SX is free and no image is in force, of the
next free slot up to 3, with a 32-byte digest and above slot 0 a signature that verifies against the owner key,
begins that burn; of any other slot it is answered OWNER_REFUSED. Either waits behind the requests before it while SX
is busy. QUOTE_DONE ends the quote, leaves its KEM key the last of at most four, uses the leaf and replies OK with
the body and the signature; OWNER_BURN_DONE programs the digest as the next slot and replies OK; each then serves the
requests that waited, none where none did. (R577, R583, R584, R585, R586, R587, R588, R589) -/
def Obligations.QuotesAndOwnersAreServed : Prop :=
  (∀ (s : State) (r : Role) (rid : Nat) (nonce : List Byte), s.Performs r Msg.quote 6580 → nonce.length = 32 →
    let u := s.takeRequest r rid Msg.quote
    (s.sxBusy = true →
      exec (.quote r rid nonce) s = .next { u with sx := { u.sx with queue := u.sx.queue ++ [.quote r rid nonce] } }) ∧
    (∀ im : Image, s.sxBusy = false → s.load = none → s.image = some im → s.tallySpent = false →
      let v := u.sxChecks.openEpoch
      (∀ e l : Nat, v.sx.epoch = some (e, l) → exec (.quote r rid nonce) s = .next { v with sx := { v.sx with
        quote := some ⟨r, rid, v.quoteBody im nonce e l, v.sx.kemMade, e, l⟩, kemMade := v.sx.kemMade + 1 } }) ∧
      (v.sx.epoch = none → exec (.quote r rid nonce) s = .next (v.reply r Msg.quote rid Code.tallySpent [])))) ∧
  (∀ (s : State) (j : QuoteJob), s.coreUp = true → s.sx.quote = some j →
    exec .quoteDone s = .next ((s.quoteSigned j).sxDrain (s.sx.queue.length + 1)) ∧
    ∃ w : State, s.quoteSigned j = w.reply j.role Msg.quote j.rid Code.ok
        (j.body ++ (List.range 5172).map (fun i => Config.hssSign j.bit j.leaf i j.body)) ∧ w.sx.quote = none ∧
      w.sx.kems.length ≤ 4 ∧ w.sx.kems.getLast? = some ⟨j.pair, sha256 j.body⟩ ∧ w.mem = s.mem ∧
      ∀ b l : Nat, s.sx.epoch = some (b, l) → w.sx.epoch = some (b, l + 1)) ∧
  (∀ (s : State) (r : Role) (rid slot : Nat) (digest rest : List Byte), s.Performs r Msg.ownerSet 0 →
    let u := s.takeRequest r rid Msg.ownerSet
    let signed := s.ownerDigest = some (sha256 (slice rest 0 60)) ∧ fld rest 60 4 + 64 = rest.length ∧
      hssVerify (slice rest 0 60) (rest.drop 64)
        (ascii [0x53, 0x58, 0x4F, 0x57, 0x4E, 0x45, 0x52, 0x31] ++ serial ++ natLE 1 slot ++ digest) = true
    (s.sxBusy = true → exec (.ownerSet r rid slot digest rest) s =
      .next { u with sx := { u.sx with queue := u.sx.queue ++ [.ownerSet r rid slot digest rest] } }) ∧
    (s.sxBusy = false → s.image = none → slot = s.sx.owners.length → slot ≤ 3 → digest.length = 32 → (slot = 0 ∨ signed) →
      exec (.ownerSet r rid slot digest rest) s = .next { u.sxChecks with sx := { u.sxChecks.sx with
        burn := some ⟨r, rid, slot, digest⟩ } }) ∧
    (s.sxBusy = false → (s.image ≠ none ∨ slot ≠ s.sx.owners.length ∨ 3 < slot ∨ digest.length ≠ 32 ∨ (slot ≠ 0 ∧ ¬ signed)) →
      exec (.ownerSet r rid slot digest rest) s = .next (u.reply r Msg.ownerSet rid Code.ownerRefused []))) ∧
  (∀ (s : State) (b : OwnerBurn), s.coreUp = true → s.sx.burn = some b →
    exec .ownerBurnDone s = .next ((({ s with sx := { s.sx with owners := s.sx.owners ++ [b.digest], burn := none } } :
      State).reply b.role Msg.ownerSet b.rid Code.ok []).sxDrain (s.sx.queue.length + 1))) ∧
  (∀ (s : State) (n : Nat), s.sx.queue = [] → s.sxDrain n = s)

/-- Performed for a role that may name the field, SX's own checks made: KEY_DROP of a model key that is held leaves
every other model key and erases it, and answers OK; of one that is not held it changes nothing and answers KEY_ARG.
Where no check of SX is armed the checks change nothing. (R596) -/
def Obligations.KeyDropErasesOneModelKey : Prop :=
  (∀ (s : State) (r : Role) (rid f id : Nat), s.Performs r Msg.keyDrop 0 → Role.mayField r f = true →
    let u := (s.takeRequest r rid Msg.keyDrop).sxChecks
    (u.sx.modelKeys.any (fun k => k.field == f && k.id == id) = true →
      exec (.keyDrop r rid f id) s = .next (({ u with sx := { u.sx with
        modelKeys := u.sx.modelKeys.filter (fun k => !(k.field == f && k.id == id)) } } : State).reply r Msg.keyDrop rid
          Code.ok [])) ∧
    (u.sx.modelKeys.any (fun k => k.field == f && k.id == id) = false →
      exec (.keyDrop r rid f id) s = .next (u.reply r Msg.keyDrop rid Code.keyArg []))) ∧
  (∀ s : State, s.armed Reg.sxInject 1 = false → s.armed Reg.sxInject 2 = false → s.sxChecks = s)

/-- Performed while SX is free, SX's own checks made: KEY_RELEASE that is malformed answers KEY_ARG; well formed, but
with an owner key or a signature that fails, it counts AUTHFAIL and answers KEY_AUTH; well formed, signed by the
owner, with a pending KEM key, and opened under its wrapping key to entries that pass checks 5 to 7, it erases that
KEM key, applies the entries in order, counts and answers OK. WEIGHT_LOAD of a well-formed payload under a held model
key for a read-only object of its field, with its slot open, that opens and whose write TU completes, leaves what
TU's weight write leaves and answers OK. (R594, R595, R597, R598) -/
def Obligations.KeysAreReleasedAndWeightsLoaded : Prop :=
  (∀ (s : State) (r : Role) (rid : Nat) (p : List Byte), s.Performs r Msg.keyRelease 0 → s.sxBusy = false →
    let end_ := 1136 + 96 * fld p 40 2 + 16
    let u := (s.takeRequest r rid Msg.keyRelease).sxChecks
    let signed := s.ownerDigest = some (sha256 (slice p end_ 60)) ∧
      hssVerify (slice p end_ 60) (p.drop (end_ + 64)) (p.take end_) = true
    (releaseOk p = false → exec (.keyRelease r rid p) s = .next (u.reply r Msg.keyRelease rid Code.keyArg [])) ∧
    (releaseOk p = true → ¬ signed →
      exec (.keyRelease r rid p) s = .next (u.authFail.reply r Msg.keyRelease rid Code.keyAuth [])) ∧
    (∀ (k : KemKey) (pt : List Byte), releaseOk p = true → signed → u.sx.kems.find? (fun j => j.qd == slice p 8 32) = some k →
      gcmOpen (sha256 (ascii [0x53, 0x58, 0x57, 0x52, 0x41, 0x50, 0x30, 0x31] ++
        (List.range 32).map (Config.kemShared k.pair (slice p 48 1088)) ++ k.qd)) (List.replicate 12 0) (slice p 0 48)
        (slice p 1136 (96 * fld p 40 2)) (slice p (end_ - 16) 16) = some pt →
      firstBad s.entryOkSx (records pt 0 96 (fld p 40 2)) = none →
      ((records pt 0 96 (fld p 40 2)).map KeyEntry.of).any (fun e => e.kind == 2 && s.keyInUse e.field) = false →
      (((records pt 0 96 (fld p 40 2)).map KeyEntry.of).foldl putModelKey u.sx.modelKeys).length ≤ 64 →
      exec (.keyRelease r rid p) s = .next (((((records pt 0 96 (fld p 40 2)).map KeyEntry.of).foldl State.applyKey
        { u with sx := { u.sx with kems := u.sx.kems.filter (fun j => j.pair != k.pair) } }).bump Reg.sxCnt 31 16 49 1
          none).reply r Msg.keyRelease rid Code.ok []))) ∧
  (∀ (s : State) (r : Role) (rid i : Nat) (p pt : List Byte) (k : ModelKey) (o : Obj), s.Performs r Msg.weightLoad 0 →
    weightOk p = true → Role.mayField r (fld p 4 1) = true → (r = .owner ∨ s.slotWait (fld p 4 1) = false) → s.mcStage = none →
    let u := (s.takeRequest r rid Msg.weightLoad).sxChecks
    u.sx.modelKeys.find? (fun k => k.field == fld p 4 1 && k.id == fld p 0 4) = some k →
    s.objAt (fld p 4 1) (fld p 8 8) = some (i, o) → o.ro = true →
    gcmOpen k.key (List.replicate 4 0 ++ natLE 8 ((fld p 8 8 - o.ua) / 64))
      (slice p 0 4 ++ natLE 8 (fld p 8 8 - o.ua) ++ natLE 4 (fld p 16 4)) (slice p 32 (fld p 16 4))
      (p.drop (32 + fld p 16 4)) = some pt →
    ∀ w : State, u.tuWrite (fld p 4 1) (fld p 8 8) pt .weights = (w, .done ()) →
      exec (.weightLoad r rid p) s = .next (w.reply r Msg.weightLoad rid Code.ok []))

/-- Performed where no refusal of R420 holds: CTX_OPEN of a context of the role's field leaves it open with step 0,
eight zero counters, no job and its sowing list. CTX_CLOSE of an open idle context with no flush or swap in progress
closes it at once and answers OK; with one, it stands closing for that request and is answered by CLOSE_COMPLETE when
the flush or swap has ended. CTX_RESUME without drain clears HALTED and answers OK. A role that may not act on the
context's field is answered DX_ROLE and changes nothing else. (R417, R419, R420, R430) -/
def Obligations.ContextsOpenAndClose : Prop :=
  (∀ (s : State) (r : Role) (rid c list n prime f : Nat), s.Performs r Msg.ctxOpen 0 → s.openRefusal r c list n = none →
    s.ctxField c = some f →
    ∃ t, exec (.ctxOpen r rid c list n prime) s = .next t ∧
      t.ctx c = some (Ctx.opened f (if n = 0 then none else some (list, n, prime))) ∧ t.mem = s.mem ∧
      ∀ d, d ≠ c → t.ctx d = s.ctx d) ∧
  (∀ (s : State) (r : Role) (rid c : Nat) (x : Ctx), s.Performs r Msg.ctxClose 0 → s.outsideField r c = false →
    s.ctx c = some x → x.isClosing = false → x.busy = false →
    let u := (s.takeRequest r rid Msg.ctxClose).dxCheck 0
    (s.closeWaits c = false → exec (.ctxClose r rid c) s = .next ((u.closeCtx c).reply r Msg.ctxClose rid Code.ok [])) ∧
    (s.closeWaits c = true → exec (.ctxClose r rid c) s = .next (u.setCtx c { x with closing := some (some (r, rid)) }))) ∧
  (∀ (s : State) (c : Nat) (x : Ctx) (r : Role) (rid : Nat), s.ctx c = some x → x.closing = some (some (r, rid)) → s.dxUp = true →
    s.closeWaits c = false → x.busy = false →
    exec (.closeComplete c) s = .next ((s.closeCtx c).reply r Msg.ctxClose rid Code.ok [])) ∧
  (∀ (s : State) (r : Role) (rid c : Nat) (x : Ctx), s.Performs r Msg.ctxResume 0 → s.outsideField r c = false →
    s.ctx c = some x → x.isClosing = false →
    exec (.ctxResume r rid c false) s = .next ((((((s.takeRequest r rid Msg.ctxResume).dxCheck 0).dxCheck 1).setCtx c
      { x with halted := false }).observe c).settleEngines.reply r Msg.ctxResume rid Code.ok [])) ∧
  (∀ (s : State) (r : Role) (rid c : Nat) (b : Bool), s.Performs r Msg.ctxResume 0 → s.outsideField r c = true →
    exec (.ctxResume r rid c b) s = .next ((s.takeRequest r rid Msg.ctxResume).reply r Msg.ctxResume rid Code.dxRole []))

/-- Performed without a refusal, JOB_SUBMIT queues the job for the context and answers OK with the number of jobs the
context had accepted as its serial. JOB_ABORT on an open context of the role adds one abort request of that serial,
for the role and RID, at the end of the commit point's queue, and leaves memory, registers, contexts and the outbound
queue as they were. Performed without a refusal: COUNTER op 0 answers the counter's value and changes no counter; op
1 sets the shared counter to its value plus the operand modulo 2^32 and op 2 raises it; each answers the value after
it. A raise takes the operand exactly when it lies 1 to 2^31 - 1 ahead. (R166, R172, R419, R420, R421, R648) -/
def Obligations.JobsAndCountersServeTheHost : Prop :=
  (∀ (s : State) (r : Role) (rid c entry : Nat) (x : Ctx), s.Performs r Msg.jobSubmit 4 → s.outsideField r c = false →
    s.submitRefusal c entry = none → s.ctx c = some x →
    exec (.jobSubmit r rid c entry) s = .next (((s.takeRequest r rid Msg.jobSubmit).queueJob c entry none none).settleEngines.reply
      r Msg.jobSubmit rid Code.ok (natLE 4 x.accepted))) ∧
  (∀ (s : State) (r : Role) (rid c n : Nat) (x : Ctx), s.Performs r Msg.jobAbort 0 → s.outsideField r c = false →
    s.ctx c = some x → x.isClosing = false →
    ∃ t, exec (.jobAbort r rid c n) s = .next t ∧ t.dx.commitQ = s.dx.commitQ ++ [.abort c (BitVec.ofNat 32 n) r rid] ∧
      t.dx.ctxs = s.dx.ctxs ∧ t.mem = s.mem ∧ t.regs = s.regs ∧ t.hp.outq = s.hp.outq) ∧
  (∀ (s : State) (r : Role) (rid c i : Nat) (x : Ctx), s.Performs r Msg.counter 4 →
    s.counterRefusal r false 0 c i = none → s.ctx c = some x →
    exec (.counterRead r rid 0 c i) s = .next ((s.takeRequest r rid Msg.counter).reply r Msg.counter rid Code.ok
      (natLE 4 (x.counter i).toNat))) ∧
  (∀ (s : State) (r : Role) (rid f i v : Nat), s.Performs r Msg.counter 4 →
    let u := s.takeRequest r rid Msg.counter
    (s.counterRefusal r false 1 f i = none →
      exec (.counterRead r rid 1 f i) s = .next (u.reply r Msg.counter rid Code.ok (natLE 4 (s.shared f i).toNat))) ∧
    (s.counterRefusal r true 1 f i = none →
      exec (.counterAdd r rid 1 f i v) s = .next ((u.setShared f i (s.shared f i + BitVec.ofNat 32 v)).wake.reply r
        Msg.counter rid Code.ok (natLE 4 (s.shared f i + BitVec.ofNat 32 v).toNat)) ∧
      exec (.counterRaise r rid 1 f i v) s = .next ((u.setShared f i (raiseTo (s.shared f i) (BitVec.ofNat 32 v))).wake.reply
        r Msg.counter rid Code.ok (natLE 4 (raiseTo (s.shared f i) (BitVec.ofNat 32 v)).toNat)))) ∧
  (∀ c v : W32, raiseTo c v = if 1 ≤ (v - c).toNat ∧ (v - c).toNat ≤ 2 ^ 31 - 1 then v else c)

/-- Performed on an idle context with the arguments R268 asks for: KV_INIT sets STAGE and clears TC and HALF.
KV_TRUNCATE to t, where no tail of a linked block needs copying, clears the entries from block floor(t/64), lowers
their frames' REFS and sets TC to t; where one does, the copy is made and the answer waits for the copier. KV_FREE
clears the whole cache; the context's TC and FLUSH are 0 when its entries are given up. (R267, R268) -/
def Obligations.KvCachesAreStartedCutAndFreed : Prop :=
  (∀ (s : State) (r : Role) (rid c f stage : Nat), s.KvPerforms r c f false false none → s.stageOk stage = true → (s.kv c).tc = 0 →
    exec (.kvInit r rid c stage) s = .next ((((s.takeRequest r rid Msg.kv).kmCheck 2).updKv c
      (fun k => { k with stage := stage, tc := 0, half := 0 })).reply r Msg.kv rid Code.ok [])) ∧
  (∀ (s : State) (r : Role) (rid c f t : Nat), s.KvPerforms r c f false false none → t ≤ (s.kv c).tc →
    let u := (s.takeRequest r rid Msg.kv).kmCheck 2
    let cut := fun (v : State) => (v.clearFrom c (t / 64)).updKv c (fun k => { k with tc := t })
    ((s.kv c).linked ≤ t / 64 ∨ t % 64 = 0 → exec (.kvTruncate r rid c t) s = .next ((cut u).reply r Msg.kv rid Code.ok [])) ∧
    (∀ v : State, t / 64 < (s.kv c).linked → t % 64 ≠ 0 → s.stageOk (s.kv c).stage = true →
      u.copyTokens c (t % 64) (u.blockSource c f (t / 64)) = (v, .done ()) →
      exec (.kvTruncate r rid c t) s = .next { cut v with km := { (cut v).km with
        copier := (cut v).km.copier ++ [.host r rid f []] } })) ∧
  (∀ (s : State) (r : Role) (rid c f : Nat), s.KvPerforms r c f true false none →
    exec (.kvFree r rid c) s = .next ((((s.takeRequest r rid Msg.kv).kmCheck 2).freeKv c).reply r Msg.kv rid Code.ok [])) ∧
  (∀ (s : State) (c : Nat), ∃ u : State, s.freeKv c = (u.clearFrom c 0).observe c ∧ (u.kv c).tc = 0 ∧ (u.kv c).flush = 0 ∧
    u.mem = s.mem ∧ u.regs = s.regs ∧ u.km.table = s.km.table ∧ ∀ d, d ≠ c → u.kv d = s.kv d)

/-- Performed in SERVICE mode with the arguments R268 asks for, and with the token ids read: KV_ADOPT walks the tree
from block 0 to the first miss, sets TC to 64 times the blocks matched and answers their number, through the copier
where a frame was copied. KV_PUBLISH answers the blocks published, through the copier where a frame was copied,
NODES_FULL with the blocks so far where no node can be made, and PAGE_STARVED with nothing changed where a copy finds
no frame. Either waits, with what it has asked TU for, while a copy must wait. KV_PRUNE of an enabled field removes
its reclaimable nodes until none remains and answers their number. (R261, R266, R267, R268, R272) -/
def Obligations.ThePrefixTreeIsUsed : Prop :=
  (∀ (s v : State) (r : Role) (rid c f tok n tag : Nat), s.KvPerforms r c f false false (some true) → (s.kv c).tc = 0 →
    inCommons tok (4 * n) = true →
    ((s.takeRequest r rid Msg.kv).kmCheck 2).tokensRead tok (256 * min 1024 (n / 64)) = (v, none) →
    let a := (v.useKm f).adoptBlocks c f tok tag 0xFFFF 0 0 false (min 1024 (n / 64))
    (∀ (w : State) (m : Nat) (copied : Bool), a = .ok (w, m, copied) →
      let x := w.updKv c (fun k => { k with tc := 64 * m })
      exec (.kvAdopt r rid c tok n tag) s = .next (if copied then
        { x with km := { x.km with copier := x.km.copier ++ [.host r rid f (natLE 4 m)] } }
        else x.reply r Msg.kv rid Code.ok (natLE 4 m))) ∧
    (∀ l, a = .error l → exec (.kvAdopt r rid c tok n tag) s = .next (s.tryPlaces l))) ∧
  (∀ (s v : State) (r : Role) (rid c f tok n tag : Nat), s.KvPerforms r c f false true (some true) → n ≤ (s.kv c).linked →
    inCommons tok (256 * n) = true →
    ((s.takeRequest r rid Msg.kv).kmCheck 2).tokensRead tok (256 * n) = (v, none) →
    let a := (v.useKm f).publishBlocks c f tok tag 0xFFFF 0 0 false n
    (∀ (w : State) (m : Nat) (copied : Bool), a = .ok (w, m, Code.ok, copied) →
      exec (.kvPublish r rid c tok n tag) s = .next (if copied then
        { w with km := { w.km with copier := w.km.copier ++ [.host r rid f (natLE 4 m)] } }
        else w.reply r Msg.kv rid Code.ok (natLE 4 m))) ∧
    (∀ (w : State) (m : Nat) (copied : Bool), a = .ok (w, m, Code.nodesFull, copied) →
      exec (.kvPublish r rid c tok n tag) s = .next (w.reply r Msg.kv rid Code.nodesFull (natLE 4 m))) ∧
    (∀ (w : State) (m : Nat) (copied : Bool), a = .ok (w, m, Code.pageStarved, copied) →
      exec (.kvPublish r rid c tok n tag) s = .next (v.reply r Msg.kv rid Code.pageStarved [])) ∧
    (∀ l, a = .error l → exec (.kvPublish r rid c tok n tag) s = .next (s.tryPlaces l))) ∧
  (∀ (s : State) (r : Role) (rid f : Nat), s.Performs r Msg.kv 4 → Role.mayField r f = true → s.kmService = true →
    (s.fieldRec f).isSome = true → s.hostSlot r f = true → s.hostWaits = false →
    let a := ((s.takeRequest r rid Msg.kv).kmCheck 1).pruneNodes f 0 32769
    exec (.kvPrune r rid f) s = .next (a.1.reply r Msg.kv rid Code.ok (natLE 4 a.2)))

/-- Performed in MAINT mode with the arguments R268 asks for: KV_FORK copies a tail of t mod 64 tokens into the
destination's active half, names the source's frames in the destination and sets its TC to t; the answer waits for
the copier where anything was copied, and is PAGE_STARVED where a frame to copy into is not to be had. KV_LOAD writes
S bytes into the block's frame where its REFS is 1, else into another frame linked in its place, marks it LOADED and
not LOST, and answers its number through the copier; with no frame to be had it answers PAGE_STARVED. (R267, R268, R271, R272) -/
def Obligations.CachesAreForkedAndLoaded : Prop :=
  (∀ (s : State) (r : Role) (rid a b f t : Nat), s.KvPerforms r a f false false (some false) →
    s.kvBusy b false = false → s.ctxField b = some f → t ≤ (s.kv a).tc → (s.kv b).tc = 0 →
    let u := (s.takeRequest r rid Msg.kv).kmCheck 2
    let fin := fun (v : State) (copied : Bool) => let w := v.updKv b (fun k => { k with tc := t })
      if copied then { w with km := { w.km with copier := w.km.copier ++ [.host r rid f []] } } else w.reply r Msg.kv rid Code.ok []
    (t % 64 = 0 →
      (∀ (v : State) (copied : Bool), u.forkBlocks a b f 0 false (t / 64) = .done v copied →
        exec (.kvFork r rid a b t) s = .next (fin v copied)) ∧
      (u.forkBlocks a b f 0 false (t / 64) = .fail Code.pageStarved →
        exec (.kvFork r rid a b t) s = .next (u.reply r Msg.kv rid Code.pageStarved []))) ∧
    (∀ w : State, t % 64 ≠ 0 → s.stageOk (s.kv b).stage = true →
      u.copyTokens b (t % 64) (u.blockSource a f (t / 64)) = (w, .done ()) →
      (∀ (v : State) (copied : Bool), w.forkBlocks a b f 0 true (t / 64) = .done v copied →
        exec (.kvFork r rid a b t) s = .next (fin v copied)) ∧
      (w.forkBlocks a b f 0 true (t / 64) = .fail Code.pageStarved →
        exec (.kvFork r rid a b t) s = .next (u.reply r Msg.kv rid Code.pageStarved [])))) ∧
  (∀ (s : State) (r : Role) (rid c f k addr fr : Nat), s.KvPerforms r c f false false (some false) →
    s.entry c k = some fr → k < (s.kv c).linked → addr % 64 = 0 → inCommons addr s.frameBytes = true →
    let u := ((s.takeRequest r rid Msg.kv).kmCheck 2).kmCheck 0
    let loaded := fun (w : State) (n : Nat) => (w.kmCheck 0).updDesc n (fun d => { d with loaded := true, lost := false })
    let later := fun (w : State) (n : Nat) => { w with km := { w.km with copier := w.km.copier ++ [.host r rid f (natLE 4 n)] } }
    (∀ v : State, (u.desc fr).refs = 1 → u.move ⟨.unified f (u.frameUa fr), .commons addr, u.frameBytes⟩ = (v, .done ()) →
      exec (.kvLoad r rid c k addr) s = .next (later (loaded v fr) fr)) ∧
    (∀ (u2 v w : State) (n : Nat), (u.desc fr).refs ≠ 1 → (u.takeFrame f <|> u.reclaimFrame f) = some (n, u2) →
      u2.move ⟨.unified f (u2.frameUa n), .commons addr, u2.frameBytes⟩ = (v, .done ()) →
      (loaded v n).putEntry c k (some n) = (w, .done ()) →
      exec (.kvLoad r rid c k addr) s = .next (later (w.unref fr) n)) ∧
    ((u.desc fr).refs ≠ 1 → u.takeFrame f = none → u.reclaimFrame f = none →
      exec (.kvLoad r rid c k addr) s = .next (u.reply r Msg.kv rid Code.pageStarved [])))

/-- With KM running and the field's slot open: the flush at the copier's head, its copy made and every neighbour's
answer here, leaves the copier and its edit applies at once where no walk of the context is open; else the edit joins
the held edits and HELD is set. A copy made with an answer still owed is noted as written; one that the tiers have no
room for is refused its frame. When no walk of a context with HELD is open and GDDR6 has started up, its held edits
apply in arrival order and HELD clears. The host operation at the head, its copies answered, is answered OK with its
results, and a KM.CTL.MODE write held for it takes effect. (R254, R259, R269, R270, R366) -/
def Obligations.TheCopierFinishesItsWork : Prop :=
  (∀ (s v : State) (c fr : Nat) (written : Bool) (rest : List CopyJob), s.km.copier = .flush c fr written :: rest → s.kmUp = true →
    s.blockSlot (s.desc fr).field = true →
    (if written then (s, .done ()) else s.flushCopy c (s.desc fr).field fr) = (v, (.done () : Tried Unit)) →
    let u := { v with km := { v.km with copier := rest } }
    (v.writesDone (s.desc fr).field (v.frameUa fr) v.frameBytes = true →
      (v.km.walks.any (fun w => w.1 == c) = false → exec (.flushCopyDone c) s = .next (u.applyEdit c fr).wake) ∧
      (v.km.walks.any (fun w => w.1 == c) = true →
        let w := u.updKv c (fun k => { k with held := true })
        exec (.flushCopyDone c) s = .next { w with km := { w.km with edits := w.km.edits ++ [(c, fr)] } })) ∧
    (v.writesDone (s.desc fr).field (v.frameUa fr) v.frameBytes = false → exec (.flushCopyDone c) s =
      .next { v with km := { v.km with copier := .flush c fr true :: rest } })) ∧
  (∀ (s v : State) (c fr : Nat) (rest : List CopyJob), s.km.copier = .flush c fr false :: rest → s.kmUp = true →
    s.blockSlot (s.desc fr).field = true → s.flushCopy c (s.desc fr).field fr = (v, .code Code.tierFull) →
    exec (.flushCopyDone c) s = .next (({ v with km := { v.km with copier := rest } }).refuseFlush c (s.desc fr).field fr)) ∧
  (∀ (s : State) (c : Nat), s.kmUp = true → (s.kv c).held = true → s.km.walks.any (fun w => w.1 == c) = false →
    (∀ f, s.ctxField c = some f → s.blockSlot f = true) → s.mcStage = none →
    let u := { s with km := { s.km with edits := s.km.edits.filter (fun e => e.1 != c) } }
    exec (.heldEditApply c) s = .next (((s.km.edits.filter (fun e => e.1 == c)).foldl (fun v e => v.applyEdit c e.2)
      (u.updKv c (fun k => { k with held := false }))).wake)) ∧
  (∀ (s : State) (r : Role) (rid f : Nat) (ans : List Byte) (rest : List CopyJob), s.km.copier = .host r rid f ans :: rest →
    s.kmUp = true → s.hostSlot r f = true → s.writesDone f 0xEF00000000 (2 ^ 40 - 0xEF00000000) = true →
    s.canTake r ans.length = true →
    let u := ({ s with km := { s.km with copier := rest } }).reply r Msg.kv rid Code.ok ans
    (s.km.heldMode = none → exec .copyComplete s = .next u) ∧
    (∀ m, s.km.heldMode = some m → exec .copyComplete s =
      .next (({ u with km := { u.km with heldMode := none } }).setF Reg.kmCtl 0 0 m)))

/-- On an idle context whose stream is in no transfer: ST_INIT makes a record of STATE 2 with ZERO, the slot count
and the swap area. ST_RESET sets ZERO and clears LOST, and makes a resident stream's slots blank in both banks;
ST_EVICT of a resident stream asks for its swap-out; ST_FREE frees its slots and its record. SWAP_OUT writes the
committed bytes of the stream's slots to its swap area, frees the slots and leaves STATE 2; an uncorrectable bank
loses the state. SWAP_IN fills bank 0 of the slots, with blank blocks where ZERO is set and with the saved bytes
otherwise, and a step open when the stream was displaced restarts; a swap area without a clean copy loses the state. (R284, R306, R307, R308, R309, R437) -/
def Obligations.StateStreamsAreServed : Prop :=
  (∀ (s : State) (r : Role) (rid c f n swap : Nat), s.Performs r Msg.st 0 → s.ctxField c = some f → Role.mayField r f = true →
    s.idleCtx c = true → s.stream c = none → s.slotTotal ≠ 0 → 1 ≤ n → n ≤ 8 → swap % 4096 = 0 → swap + n * 6144 ≤ 2 ^ 40 →
    let u := (s.takeRequest r rid Msg.st).slotCheck none
    let q : StreamRec := ⟨2, true, false, n, 0, swap⟩
    exec (.stInit r rid c n swap) s =
      .next (({ u with se := { u.se with streams := Map.put u.se.streams c q } }).reply r Msg.st rid Code.ok [])) ∧
  (∀ (s : State) (r : Role) (rid c f : Nat) (q : StreamRec), s.Performs r Msg.st 0 → s.ctxField c = some f → Role.mayField r f = true →
    s.idleCtx c = true → s.stream c = some q → q.state ≠ 3 → q.state ≠ 4 →
    let u := (s.takeRequest r rid Msg.st).slotCheck none
    let v := u.updStream c (fun p => { p with zero := true, lost := false })
    let w := (v.streamSlots q).foldl (fun s k => (s.write (s.slotBank k 0) blankBank).write (s.slotBank k 1) blankBank) v
    exec (.stReset r rid c) s = .next ((if q.state ≠ 1 then v else { w with se := { w.se with slots := w.se.slots.map (fun p =>
      if p.2.owner = c then (p.1, { p.2 with cur := 0, wr := 0 }) else p) } }).reply r Msg.st rid Code.ok []) ∧
    exec (.stEvict r rid c) s = .next ((if q.state = 1 then u.requestOut c else u).reply r Msg.st rid Code.ok []) ∧
    exec (.stFree r rid c) s = .next (((u.freeStream c).retryStreams).reply r Msg.st rid Code.ok [])) ∧
  (∀ (s : State) (c f : Nat) (q : StreamRec) (rest : List SwapReq), s.se.swapQ = .out c :: rest → s.stream c = some q →
    s.ctxField c = some f → s.seUp = true → s.blockSlot f = true →
    let a := (s.streamSlots q).foldl (fun (a : State × Bool) k =>
      ((a.1.cmRead (a.1.slotBank k 0) 12288).1, a.2 || (a.1.cmRead (a.1.slotBank k 0) 12288).2)) (s, false)
    (a.2 = true → exec .swapOut s = .next (({ a.1 with se := { a.1.se with swapQ := rest } }).loseStream c)) ∧
    (∀ v : State, a.2 = false → a.1.tuWrite f q.swap ((s.streamSlots q).flatMap s.savedSlot) .swap = (v, .done ()) →
      let u := ({ v with se := { v.se with swapQ := rest } }).freeSlots c
      exec .swapOut s = .next (((u.updStream c (fun p => { p with state := 2, first := 0 })).bump (Reg.seField f) 31 16 33 1
        (some f)).retryStreams))) ∧
  (∀ (s : State) (c f : Nat) (q : StreamRec) (rest : List SwapReq), s.se.swapQ = .into c :: rest → s.stream c = some q →
    s.ctxField c = some f → s.seUp = true → s.blockSlot f = true →
    let pop := fun (v : State) => ({ v with se := { v.se with swapQ := rest } } : State)
    let fill := fun (v : State) (bs : List Byte) =>
      let w := (((pop v).fillSlots bs q.zero (v.streamSlots q)).updStream c (fun p => { p with state := 1, zero := false })).bump
        (Reg.seField f) 15 0 32 1 (some f)
      let x : State := { w with se := { w.se with displaced := w.se.displaced.filter (fun d => d != c) } }
      (if w.se.displaced.contains c then x.replayStep c else x).wake
    (q.zero = true → ∀ lost, exec (.swapIn lost) s = .next (fill s [])) ∧
    (∀ (v : State) (bs : List Byte), q.zero = false → s.tuRead f q.swap (6144 * q.nslot) false = (v, .done bs) →
      exec (.swapIn false) s = .next (fill v bs)) ∧
    (∀ (v : State) (k : Nat), q.zero = false → s.tuRead f q.swap (6144 * q.nslot) false = (v, .code k) →
      exec (.swapIn false) s = .next (((pop v).loseStream c).wake)) ∧
    (q.zero = false → exec (.swapIn true) s = .next (((pop s).loseStream c).wake)))

/-- Performed with no TU operation waiting, by a role that may act on the field and, where it is the field's session,
with its slot open; TU's own checks made; and where no refusal of R388 holds: TU_MAP allocates the object's leaves
and records it, or is refused TIER_FULL; TU_UNMAP gives up every home of an object without pinned pages, or waits
while a page is BUSY, dropping the pages' pending requests; TU_HINT sets the hint of the object and of its pages;
TU_PLACE requests a migration of each backed page that lies elsewhere or is BUSY; TU_PIN raises PINS of each page by
one, or waits while one is BUSY, and TU_UNPIN lowers it by one, 0 staying 0 by the model's choice (log 40);
TU_EVACUATE by the owner gives up the shadows in the entry and answers at once where no page lies there, else
requests local homes and waits; TU_SOW of a list that can be read binds it, filling begins at entry 0. Each that does
not wait answers OK. (R345, R357, R359, R362, R366, R373, R380, R385, R387, R388) -/
def Obligations.TierOperationsAreServed : Prop :=
  ∀ (s : State) (r : Role) (rid f : Nat), s.Performs r Msg.tu 0 → s.tu.op = none →
    let t := s.takeRequest r rid Msg.tu
    let u := t.check Reg.tuInject Reg.tuErr 0 31 none
    let done (v : State) : Host.Outcome State Fault Refusal := .next (v.reply r Msg.tu rid Code.ok [])
    (r = .owner ∨ s.slotWait f = false → Role.mayField r f = true →
      (∀ obj ua pages hint flags back dev : Nat, u.mapBad f obj ua pages hint flags back dev = false →
        (∀ v : State, u.needLeaves f ua pages = some v →
          let o : Obj := ⟨f, ua, pages, hint, bit flags 0, bit flags 1, back, dev, false⟩
          exec (.tuMap r rid f obj ua pages hint flags back dev) s =
            done { v with tu := { v.tu with objs := Map.put v.tu.objs obj o } }) ∧
        (u.needLeaves f ua pages = none → exec (.tuMap r rid f obj ua pages hint flags back dev) s =
          .next (u.reply r Msg.tu rid Code.tierFull []))) ∧
      (∀ (obj : Nat) (o : Obj), s.objOf f obj = some o → (o.shared = false ∨ r = .owner) →
        (∀ p ∈ s.objPages f o, p.2.pins = 0) →
        ((∀ p ∈ s.objPages f o, p.2.busy = false) → exec (.tuUnmap r rid f obj) s = done (u.unmap f obj o)) ∧
        ((s.objPages f o).any (fun p => p.2.busy) = true → exec (.tuUnmap r rid f obj) s = .next { u with tu := { u.tu with
          op := some (r, rid, .unmap f obj)
          pending := u.tu.pending.filter (fun p => !((s.objPages f o).any (fun q => q.1 == p.1))) } })) ∧
      (∀ (obj hint : Nat) (o : Obj), hint ≤ 4 → s.objOf f obj = some o → exec (.tuHint r rid f obj hint) s = done { u with
        tu := { u.tu with
          objs := Map.put u.tu.objs obj { o with hint := hint }
          pages := u.tu.pages.map (fun p => if ((s.objPages f o).map Prod.fst).contains p.1 then (p.1, { p.2 with hint := hint })
            else p) } }) ∧
      (∀ ua pages home : Nat, (home = 1 ∨ r = .owner ∨
          ∀ q ∈ pagesOf ua pages, ∀ i o, s.objAt f (q * 65536) = some (i, o) → o.shared = false) → 1 ≤ home → home ≤ 3 →
        (s.runObj f ua pages).isSome = true →
        (home = 1 ∨ ∀ q ∈ s.runPages f ua pages, q.2.home = 1 → q.2.pins = 0) → u.homesFor f home (s.runPages f ua pages) = true →
        exec (.tuPlace r rid f ua pages home) s = done ((s.runPages f ua pages).foldl (fun v q =>
          if q.2.home = 0 ∨ (q.2.home = home ∧ q.2.busy = false) then v else v.requestMove f q.1 home) u)) ∧
      (∀ ua pages : Nat, (s.runObj f ua pages).isSome = true →
        ((∀ q ∈ s.runPages f ua pages, q.2.pins < 255) →
          ((∀ q ∈ s.runPages f ua pages, q.2.busy = false) → exec (.tuPin r rid f ua pages) s =
            done ((s.runPages f ua pages).foldl (fun v q => v.setPage f q.1 { q.2 with pins := q.2.pins + 1 }) u)) ∧
          ((s.runPages f ua pages).any (fun q => q.2.busy) = true → exec (.tuPin r rid f ua pages) s =
            .next { u with tu := { u.tu with op := some (r, rid, .pin f ua pages) } })) ∧
        exec (.tuUnpin r rid f ua pages) s =
          done ((s.runPages f ua pages).foldl (fun v q => v.setPage f q.1 { q.2 with pins := q.2.pins - 1 }) u))) ∧
    (∀ n : Nat, r = .owner → n ≤ 7 →
      let w := t.dropShadows n
      let ps := w.tu.pages.filter (fun q => q.2.inEntry n)
      (ps = [] → exec (.tuEvacuate r rid n) s = done w) ∧
      (ps ≠ [] → (∀ q ∈ ps, q.2.pins = 0) →
        let v := ps.foldl (fun v q => v.requestMove (q.1 / 2 ^ 24) (q.1 % 2 ^ 24) 2) w
        exec (.tuEvacuate r rid n) s = .next { v with tu := { v.tu with op := some (r, rid, .evacuate n) } })) ∧
    (∀ (c g list entries : Nat) (v : State), s.ctxField c = some g → Role.mayField r g = true → (r = .owner ∨ s.slotWait g = false) →
      u.cmRead list (16 * entries) = (v, false) → v.sowOk list entries = true →
      (∀ w, v.tu.sow = some w → v.idleCtx w.ctx = true) →
      exec (.tuSow r rid c list entries) s = done (v.bindSow c list entries))

/-- With TU running and the field's slot open (R435), a page that is not BUSY, with a pending request and no unmap
waiting for its object: the request is cleared where the page is unbacked or already there; stays where the page is
pinned and the home is not the commons; else, with a target location, the page becomes BUSY with MIG and its target,
the request is cleared and the copy starts. A promotion that finds none asks for the eviction of a victim, or is
dropped where there is no victim; any other migration that finds none is dropped; one that was to empty an entry
under evacuation and does not start fails the evacuation. A BUSY page whose copy can complete switches: its
descriptor takes the new home, a promotion keeping the old one as shadow unless its entry is being evacuated; then
its held writes apply, and with none left BUSY and MIG clear; operations that waited may end. A BUSY page whose copy
had already switched, and that is not under refetch, applies its held writes. A lease in the list is returned, and a
discarded page that no lease holds any more is gone. (R357, R366, R368, R369, R370, R371, R372, R373) -/
def Obligations.MigrationsRunAndEnd : Prop :=
  (∀ (s : State) (f page home : Nat) (p : Page), Map.find s.tu.pending (pageKey f page) = some home → s.page f page = some p →
    s.tuUp = true → s.slotWait f = false → p.busy = false → s.unmapWaits f page = false →
    let run (t : State) : Prop := exec (.migrationStart f page) s = .next t
    (p.home = 0 ∨ p.home = home → run (s.clearRequest f page)) ∧
    (p.home ≠ 0 → p.home ≠ home →
      let empties := p.home = 3 ∧ home = 2 ∧ s.evacuating p.loc = true
      (home ≠ 1 → 0 < p.pins → (¬ empties → run s) ∧ (empties → run s.failEvacuation)) ∧
      (home = 1 ∨ p.pins = 0 →
        (∀ (mig h l : Nat) (v : State), s.moveTarget f p home = some (mig, h, l, v) →
          run (((v.setPage f page { p with busy := true, mig := mig, target := some (h, l) }).clearRequest f page).startCopy
            f page p h l)) ∧
        (s.moveTarget f p home = none →
          (home = 1 → (∀ k, s.victim f = some k → run (s.requestMove (k / 2 ^ 24) (k % 2 ^ 24) 2)) ∧
            (s.victim f = none → run (s.clearRequest f page))) ∧
          (home ≠ 1 → ¬ empties → run (s.clearRequest f page)) ∧
          (home ≠ 1 → empties → run (s.clearRequest f page).failEvacuation))))) ∧
  (∀ (s : State) (f page : Nat) (p : Page), s.page f page = some p → s.tuUp = true → s.slotWait f = false → p.busy = true →
    p.mig ≠ 4 →
    (∀ h l : Nat, p.target = some (h, l) → s.copyReady f page p = true →
      exec (.migrationSwitch f page) s = .next (s.switchMove f page p h l).settleTu ∧
      ((∀ w ∈ s.tu.heldWrites, ¬ (w.field = f ∧ w.ua / 65536 = page)) →
        let up := p.copying = 1 ∧ ¬ (p.home = 3 ∧ s.evacuating p.loc = true)
        ∃ q, (s.switchMove f page p h l).page f page = some q ∧ q.home = h ∧ q.loc = l ∧ q.target = none ∧ q.busy = false ∧
          q.mig = 0 ∧ (q.shadow = true ↔ up) ∧ (up → q.shome = p.home ∧ q.sloc = p.loc) ∧ (¬ up → q.shome = 0))) ∧
    (p.target = none → exec (.migrationSwitch f page) s =
      .next (s.applyHeld f page (s.tu.heldWrites.length + 1)).settleTu)) ∧
  (∀ (s : State) (i : Nat), s.tuUp = true → i < s.tu.leases.length →
    exec (.leaseReturn i) s = .next ({ s with tu := { s.tu with leases := s.tu.leases.eraseIdx i } } : State).settleDrops)

/-- With TU running: an uncorrectable block of a backed page that is not yet listed is counted by what delivered it
and listed with its refetch. A refetch of a block that is not lost, and of whose shadow no answer is outstanding,
ends: where the shadow of a commons page is at hand its bytes are written, otherwise the bytes brought by a replica
of the block's length, and the entries they complete are cleared; where neither is had the block is lost; TU
operations that waited may then end. With TU running and the bound context's slot open, the next entry starts where
fewer than two fills are in flight and its segment is FREE, filling continuing from entry 0 after the last; otherwise
nothing starts; a list that cannot be read ends the context's job with MEM_POISON and rewinds. The end of a fill in
flight writes the bytes read to its segment, marks it FILLED with the entry's READS and wakes the strands; where the
read must wait the fill stays in flight; one that ends with a code ends the bound context's job with it and rewinds
the list. (R345, R350, R374, R375, R376, R377, R378, R381, R384, R435) -/
def Obligations.PoisonedBlocksAndFurrowSegmentsAreFilled : Prop :=
  (∀ (s : State) (f ua : Nat) (p : Page), s.page f (ua / 65536) = some p → s.tuUp = true → p.home ≠ 0 → ua < 2 ^ 40 →
    s.poisonIn f (ua / 64 * 64) 1 = [] → exec (.poisonBlock f ua) s = .next ((s.blameBlock p).poisonBlk f ua)) ∧
  (∀ (s : State) (f ua : Nat) (b : PoisonBlk), s.poisonAt f ua = some b → s.tuUp = true → b.lost = false → s.shadowOut b = false →
    (∀ bs, s.ownCopy b = some bs → ∀ clean, exec (.refetchDone f ua clean) s = .next (s.cleanBytes f b.ua bs).settleTu) ∧
    (s.ownCopy b = none →
      (∀ bs : List Byte, s.replicaOf b = true → bs.length = b.len →
        exec (.refetchDone f ua (some bs)) s = .next (s.cleanBytes f b.ua bs).settleTu) ∧
      exec (.refetchDone f ua none) s = .next (s.blockLost b).settleTu)) ∧
  (∀ (s v : State) (w : Sowing) (bad : Bool), s.tu.sow = some w → s.tuUp = true →
    s.slotWait ((s.ctxField w.ctx).getD 8) = false → s.cmRead (w.list + 16 * w.next) 16 = (v, bad) →
    let seg := (s.sowEntry w.list w.next).2.2.1
    (bad = true → exec .furrowFillStart s = .next (v.endJob w.ctx Code.memPoison).rewind) ∧
    (bad = false → w.flight.length < 2 → w.isFree seg = true → exec .furrowFillStart s = .next { v with tu := { v.tu with
      sow := some { w with next := if w.next + 1 = w.entries then 0 else w.next + 1, flight := w.flight ++ [(w.next, seg)] } } }) ∧
    (bad = false → (2 ≤ w.flight.length ∨ w.isFree seg = false) → exec .furrowFillStart s = .next v)) ∧
  (∀ (s v : State) (w : Sowing) (seg e f : Nat) (r : Tried (List Byte)), s.tu.sow = some w →
    w.flight.find? (fun p => p.2 == seg) = some (e, seg) → s.ctxField w.ctx = some f → s.tuUp = true → s.slotWait f = false →
    let q := s.sowEntry w.list e
    s.tuRead f q.1 q.2.1 false = (v, r) →
    let run (t : State) : Prop := exec (.segmentFilled seg) s = .next t
    (∀ bs, r = .done bs →
      let u := v.write (v.segAddr seg) bs
      run ({ u with tu := { u.tu with sow := some { w with
        flight := w.flight.filter (fun p => p.2 != seg), filled := w.filled ++ [(seg, q.2.2.2.2, e)] } } } : State).wake) ∧
    (r = .wait → run v) ∧
    (∀ c, r = .code c → run (v.endJob w.ctx c).rewind))

/-- A start that CFG admits begins a run on an idle channel: SERIAL rises by one modulo 2^32, BUSY is set in STAT and
DM.BUSY, and CFG, SRC and DST are latched; on a busy channel it sets PENDING; one that CFG or the field check refuses
is counted in DM.DROPPED. DM_START performed for a role that may start the channel is such a start and answers OK;
for another role it answers SX_ROLE, for a channel past 31 BAD_TYPE. TRIGGER at its tape word is such a start, its
field check refusing owner channels and channels of another field, and the strand goes on; with DM in reset it only
goes on. The expiry of an enabled timer of a running DM is such a start. DM_ABORT performed for a role that may abort
joins the aborts of a run in progress, to be answered at its report; of a pending start it clears PENDING and answers
ABORTED; of an idle channel it answers ALREADY_DONE; it turns away the same roles and channels as DM_START. (R395, R396, R397, R398, R409, R410, R412) -/
def Obligations.ChannelsAreStartedAndAborted : Prop :=
  (∀ (s : State) (ch src : Nat), bit (s.reg (Reg.dmChCFG ch)) 63 = true → bit (s.reg (Reg.dmChCFG ch)) (44 + src) = true →
    ((s.dmChan ch).run = none → s.dmStart ch src true = s.beginRun ch) ∧
    ((s.dmChan ch).run ≠ none → s.dmStart ch src true = s.setF (Reg.dmChSTAT ch) 30 30 1)) ∧
  (∀ (s : State) (ch : Nat), ch < 32 →
    (s.beginRun ch).getF (Reg.dmChSTAT ch) 63 32 = (s.getF (Reg.dmChSTAT ch) 63 32 + 1) % 2 ^ 32 ∧
    (s.beginRun ch).getF (Reg.dmChSTAT ch) 31 31 = 1 ∧ (s.beginRun ch).getF Reg.dmBusy ch ch = 1 ∧
    (s.beginRun ch).mem = s.mem ∧ ∃ run, ((s.beginRun ch).dmChan ch).run = some run ∧ run.checked = false ∧
      run.cfg = BitVec.ofNat 64 (s.reg (Reg.dmChCFG ch)) ∧ run.src = BitVec.ofNat 64 (s.reg (Reg.dmChSRC ch)) ∧
      run.dst = BitVec.ofNat 64 (s.reg (Reg.dmChDST ch))) ∧
  (∀ (s : State) (ch src : Nat) (ok : Bool), ok = false ∨ bit (s.reg (Reg.dmChCFG ch)) 63 = false ∨
    bit (s.reg (Reg.dmChCFG ch)) (44 + src) = false → s.dmStart ch src ok = s.bump16 Reg.dmDropped 1 none) ∧
  (∀ (s : State) (r : Role) (rid ch : Nat), s.Performs r Msg.dmStart 0 →
    let t := s.takeRequest r rid Msg.dmStart
    exec (.dmStart r rid ch) s = .next (if 32 ≤ ch then t.reply r Msg.dmStart rid Code.badType []
      else if s.dmRole r ch = false then t.reply r Msg.dmStart rid Code.sxRole []
      else (t.dmStart ch 0 true).reply r Msg.dmStart rid Code.ok [])) ∧
  (∀ (s : State) (e c h : Nat) (x : Ctx) (j : JobRun) (t : Strand), s.meets e 0x0E = some (c, x, j, t, h) →
    let cfg := s.reg (Reg.dmChCFG (bits h 4 0))
    exec (.trigger e) s = .next (if s.inReset 32 = true then s.pass c t
      else (s.dmStart (bits h 4 0) 3 (!cfgOwner cfg && cfgField cfg == x.field)).pass c t)) ∧
  (∀ (s : State) (ch : Nat), ch < 32 → s.dmUp = true → bit (s.reg (Reg.dmChTIMER ch)) 63 = true →
    bits (s.reg (Reg.dmChTIMER ch)) 31 0 ≠ 0 → exec (.dmTimerExpiry ch) s = .next (s.dmStart ch 1 true)) ∧
  (∀ (s : State) (r : Role) (rid ch : Nat), s.Performs r Msg.dmAbort 0 →
    let u := s.takeRequest r rid Msg.dmAbort
    let a := u.dmChan ch
    exec (.dmAbort r rid ch) s = .next (if 32 ≤ ch then u.reply r Msg.dmAbort rid Code.badType []
      else if s.dmRole r ch = false then u.reply r Msg.dmAbort rid Code.sxRole []
      else match a.run with
        | some q => u.setDm ch { a with run := some { q with aborts := q.aborts ++ [some (r, rid)] } }
        | none => if s.getF (Reg.dmChSTAT ch) 30 30 = 1 then
            (u.setF (Reg.dmChSTAT ch) 30 30 0).reply r Msg.dmAbort rid Code.aborted []
          else u.reply r Msg.dmAbort rid Code.alreadyDone []))

/-- With DM running and the channel's slot open: the pre-pass of an unchecked run without code or abort latches the
lengths of its list entries where the lists pass and can be read, and records the code of the first check that fails
where they do not; an armed injection of the channel state makes that DM_FAULT. DM_RUN_COMPLETE of a run without
abort or code whose lists are checked makes the reads and writes the engines can make; a run that met a code then
reports it, one with everything written makes its read-back and reports OK, each only once nothing is out for it,
otherwise it stays in progress. A run with a code reports it once nothing is out. An aborted run with nothing out
leaves its destination bytes undefined, reports ABORTED and answers each abort of a role. DM_ACCESS_ERROR of a
checked run, where the engines' work stopped at the byte count named ends the run with the code named, leaves the
state of that work. (R345, R394, R401, R402, R403, R406, R408, R409, R411, R435) -/
def Obligations.RunsAreCheckedCopiedAndReported : Prop :=
  (∀ (s : State) (ch : Nat) (q : DmRun), (s.dmChan ch).run = some q → s.dmUp = true → s.dmWaits q = false → q.checked = false →
    q.code = none → q.aborts = [] →
    (s.armed Reg.dmInject 1 = true → exec (.dmListCheck ch) s =
      .next ((s.check Reg.dmInject Reg.dmErr 1 32 none).updDmRun ch (fun p => { p with code := some Code.dmFault }))) ∧
    (s.armed Reg.dmInject 1 = false → ∀ (v : State) (c : Option Nat), s.dmListRead ch q = (v, c) →
      exec (.dmListCheck ch) s = .next (v.updDmRun ch (fun p => if c.isSome then { p with code := c } else { p with
        checked := true, srcs := (v.dmEntries q.src).map (fun b => fld b 8 4), dsts := (v.dmEntries q.dst).map (fun b => fld b 8 4) })))) ∧
  (∀ (s : State) (ch : Nat) (q : DmRun), (s.dmChan ch).run = some q → s.dmUp = true → s.dmWaits q = false →
    (∀ c, q.aborts = [] → q.code = some c → exec (.dmRunComplete ch) s =
      .next (if s.dmOut ch q = true then s else (s.dmOverlap q).dmReport ch c q)) ∧
    (q.aborts = [] → q.code = none → q.checked = true →
      let v := s.dmWork ch (2 ^ 64) s.dmFuel
      ∀ p, (v.dmChan ch).run = some p →
      (∀ c, p.code = some c → exec (.dmRunComplete ch) s = .next (if v.dmOut ch p = true then v else (v.dmOverlap p).dmReport ch c p)) ∧
      (p.code = none → p.wrote < p.srcs.sum → exec (.dmRunComplete ch) s = .next v) ∧
      (p.code = none → p.srcs.sum ≤ p.wrote → ∀ (w : State) (r : DmEnd), v.dmBack ch p = (w, r) →
        exec (.dmRunComplete ch) s = .next (match r with
          | .wait => w
          | .code c => if (w.dmFail ch c).dmOut ch p = true then w.dmFail ch c else ((w.dmFail ch c).dmOverlap p).dmReport ch c p
          | .done => if w.dmOut ch p = true then w else (w.dmOverlap p).dmReport ch Code.ok p))) ∧
    (q.aborts ≠ [] → s.dmOut ch q = false → exec (.dmRunComplete ch) s = .next (q.aborts.foldl (fun v w => match w with
      | none => v
      | some (p, rid) => v.reply p Msg.dmAbort rid Code.aborted []) ((s.dmUndefine ch q).dmReport ch Code.aborted q)))) ∧
  (∀ (s : State) (ch code n : Nat) (q p : DmRun), (s.dmChan ch).run = some q → s.dmUp = true → s.dmRuns q = true →
    let t := s.dmWork ch n s.dmFuel
    (t.dmChan ch).run = some p → p.code = some code → p.wrote = n → exec (.dmAccessError ch code n) s = .next t)

/-- For a code other than OK and ABORTED, a channel below 32 with no PENDING start and no held register write: after
the report, STAT's CODE field holds the code's low eight bits, DONE is 1 and BUSY is 0, DM.BUSY's bit of the channel
is 0, the channel has no run, and memory, contexts, pages and the other channels' runs are as they were. (R407, R410) -/
def Obligations.AFailedRunsReportIsExact : Prop :=
  ∀ (s : State) (ch code : Nat) (q : DmRun), ch < 32 → code < 256 → code ≠ Code.ok → code ≠ Code.aborted →
    (s.dmChan ch).run = some q → (s.dmChan ch).held = [] → s.getF (Reg.dmChSTAT ch) 30 30 = 0 →
    let t := s.dmReport ch code q
    t.getF (Reg.dmChSTAT ch) 23 16 = code ∧ t.getF (Reg.dmChSTAT ch) 29 29 = 1 ∧ t.getF (Reg.dmChSTAT ch) 31 31 = 0 ∧
      t.getF Reg.dmBusy ch ch = 0 ∧ (t.dmChan ch).run = none ∧ t.mem = s.mem ∧ t.dx = s.dx ∧ t.tu = s.tu ∧
      ∀ d, d ≠ ch → t.dmChan d = s.dmChan d

/-- Performed outside a sounding of the slot, SD_LOAD answers PACK_REFUSED, posting the slot and the failing item and
keeping every pack, where loadPack finds one; else OK, with the slot's pack replaced and no other. SOUNDING_START,
with SD running and enabled on Run and no sounding in progress, takes the first engine that may be sounded of one of
its packs, which is not stated (log 8): where the pack's bytes have changed it drops the pack and posts PACK_REFUSED,
else its output region is zeroed and the engine, on SE with a free state slot, is held. SOUNDING_VERDICT with the
engine on and out of reset runs the pack's commands, returns the slot, and passes where the output region's digest is
the pack's, no injection of the comparison is armed, and no detector of the engine fired. A pass records its slot in
SD.LAST and counts in PASSES; a failure records, counts, sets MISMATCH with a pulse on 44, fences the engine, posts
SOUNDING_FAIL with engine and PACK_ID and fires the waypoint where SDTRIG is set; either ends the sounding. (R607, R613, R620, R621, R622, R623, R629, R631) -/
def Obligations.SoundingsRunAndAreJudged : Prop :=
  (∀ (s : State) (rid slot off : Nat), s.Performs .owner Msg.sdLoad 0 → s.sd.run.any (fun q => q.1 == slot) = false →
    let t := s.takeRequest .owner rid Msg.sdLoad
    let u := t.loadPack slot off
    exec (.sdLoad .owner rid slot off) s = .next (u.1.reply .owner Msg.sdLoad rid u.2 []) ∧
    ((u.2 = Code.packRefused ∧ ∃ item, u.1 = t.postOwner Code.packRefused 44 (natLE 1 slot ++ natLE 1 item)) ∨
      (u.2 = Code.ok ∧ slot ≤ 15 ∧ ∃ p, u.1 = { t with sd := { t.sd with packs := Map.put t.sd.packs slot p } }))) ∧
  (∀ (s v : State) (idle : List Nat) (recent : List (Nat × Nat)) (e i : Nat) (p : Pack), s.sdUp = true → s.pw.rung = .run →
    s.getF Reg.sdCtl 31 31 ≠ 0 → s.sd.run = none →
    (List.range 11).find? (fun e => s.soundable idle e && !(s.packsFor e recent).isEmpty) = some e →
    s.pick (s.packsFor e recent).length = (i, v) → Map.find v.sd.packs (((s.packsFor e recent)[i]?).getD 0) = some p →
    let n := ((s.packsFor e recent)[i]?).getD 0
    let u := v.check Reg.sdInject Reg.sdErr 1 44 none
    exec (.soundingStart idle recent) s = .next (if sha256 (u.read p.addr p.len) ≠ p.sha then
      ({ u with sd := { u.sd with packs := Map.del u.sd.packs n } }).refusePack n 0 else u.beginSounding n e p)) ∧
  (∀ (s : State) (n e : Nat) (slot : Option Nat) (p : Pack), s.sd.run = some (n, e, slot) → Map.find s.sd.packs n = some p →
    s.sdUp = true → s.engineOn e = true → s.inReset e = false →
    let h := s.packHdr p
    let t := s.soundRun e h.kind h.seed p.base (slot.getD 0) ((packGroups (s.read p.addr (128 + 8 * h.words)) h.words).getD [])
    let u : State := match slot with
      | none => t
      | some k => { t with se := { t.se with slots := Map.del t.se.slots k } }
    let hurt := u.sd.failed || u.fc.pulses.any (fun (q : Pulse) => q.bit == e && q.step.any (fun m => m.1 == 0xFFFF))
    let pass (w : State) : Bool := sha256 (w.read (p.base + h.outOff) h.outLen) == h.digest && !hurt
    (u.armed Reg.sdInject 1 = false → exec .soundingVerdict s = .next (u.soundVerdict n e h.id (pass u))) ∧
    (u.armed Reg.sdInject 1 = true → exec .soundingVerdict s =
      .next ((u.setF Reg.sdInject 1 1 0).soundVerdict n e h.id false))) ∧
  (∀ (s : State) (n e id : Nat),
    let t : State := { s with sd := { s.sd with run := none, failed := false } }
    let u := (t.setReg (Reg.sdLast e) (0x80000000 + n * 65536)).bump Reg.sdCnt 47 32 50 1 none
    let v := ((u.detect Reg.sdErr 0 44 none).fence e).postOwner Code.soundingFail 44 (natLE 1 e ++ natLE 4 id)
    s.soundVerdict n e id true = (t.setReg (Reg.sdLast e) (0x40000000 + n * 65536)).bump Reg.sdCnt 15 0 48 1 none ∧
    s.soundVerdict n e id false = if v.getF Reg.wpCtl 29 29 = 1 then v.fireWaypoint 65 else v)

/-- For the strand that engine e holds and whose word it meets: NOP goes to the next word. JUMP without a loop goes
to its target; with one it loads an empty loop register with COUNT, lowers it by one, and goes to the target while it
is not 0, else to the next word. NEXT goes to the entry word of its tape and, if it still holds the engine, leaves
it. SPAWN without an open step ends the job with OPEN_STEP, with 16 strands with STRAND_LIMIT, at a word past its
tape's end with TAPE_END; otherwise it adds a ready strand there with the next number and empty loop registers, goes
to the next word, and the new strand's first word is fetched. To go to a word is to stand on it waiting on nothing,
and past the tape's last word ends the job with TAPE_END; a word that cannot be read ends it with MEM_POISON. (R149, R157, R159, R160, R345, R694) -/
def Obligations.TapesMoveStrands : Prop :=
  (∀ (s : State) (e c h : Nat) (x : Ctx) (j : JobRun) (t : Strand), s.meets e 0x00 = some (c, x, j, t, h) →
    exec (.nop e) s = .next (s.pass c t)) ∧
  (∀ (s : State) (e c h : Nat) (x : Ctx) (j : JobRun) (t : Strand), s.meets e 0x07 = some (c, x, j, t, h) →
    (bit h 58 = false → exec (.jump e) s = .next (s.proceed c t t.tape (t.pc + jumpOffset h))) ∧
    (bit h 58 = true →
      let old := (t.loops[bits h 57 56]?).getD 0
      let l := (if old = 0 then bits h 47 32 else old) - 1
      let u := s.updStrand c t.sid (fun t => { t with loops := listUpd t.loops (bits h 57 56) (fun _ => l) })
      exec (.jump e) s = .next (if l = 0 then u.pass c t else u.proceed c t t.tape (t.pc + jumpOffset h)))) ∧
  (∀ (s : State) (e c h : Nat) (x : Ctx) (j : JobRun) (t : Strand), s.meets e 0x05 = some (c, x, j, t, h) →
    let u := s.proceed c t (bits h 31 16) (bits h 15 0)
    exec (.next e) s = .next (if (u.engine e).strand = some (c, t.sid) then u.leaveEngine c t.sid e none none else u)) ∧
  (∀ (s : State) (e c h : Nat) (x : Ctx) (j : JobRun) (t : Strand), s.meets e 0x06 = some (c, x, j, t, h) →
    let u : State := { s with dx := { s.dx with stamp := s.dx.stamp + 1 } }
    let n : Strand := ⟨j.nextSid, false, bits h 31 16, bits h 15 0, [0, 0, 0, 0], none, none, none, s.dx.stamp⟩
    exec (.spawn e) s = .next (if j.open_.isNone then s.endJob c Code.openStep
      else if 16 ≤ j.strands.length then s.endJob c Code.strandLimit
      else if (s.tapeWord (bits h 31 16) (bits h 15 0)).isNone then s.endJob c Code.tapeEnd
      else ((u.updRun c (fun j => { j with strands := j.strands ++ [n], nextSid := j.nextSid + 1 })).pass c t).fetchWord c
        (bits h 31 16) (bits h 15 0))) ∧
  (∀ (s : State) (c : Nat) (t : Strand) (tape : Nat) (pc : Int),
    let free := s.updStrand c t.sid (fun u => { u with wait := none })
    let at_ := free.updStrand c t.sid (fun u => { u with tape := tape, pc := pc.toNat })
    let past := free.updStrand c t.sid (fun u => { u with tape := tape })
    s.proceed c t tape pc = (if 0 ≤ pc ∧ (s.tapeWord tape pc.toNat).isSome then at_.fetchWord c tape pc.toNat
      else past.endJob c Code.tapeEnd).observe c) ∧
  (∀ (s v : State) (c tape off : Nat) (d : TapeDir) (bad : Bool), s.tapeDir tape = some d → s.cmRead (d.base + 8 * off) 8 = (v, bad) →
    s.fetchWord c tape off = if bad = true then v.endJob c Code.memPoison else v)

/-- For a strand of the running job of an open context whose tape has a word after the one it stands on, and with no
injection into the commons armed: after passing, the strand of that number stands on the next word of the same tape,
waits on nothing, and keeps its engine, loop registers and suspended command; memory, engines, page tables, tiers and
every other context are unchanged. (R149, R157, R345, R694) -/
def Obligations.AStrandThatPassesGoesOneWordOn : Prop :=
  ∀ (s : State) (c : Nat) (x : Ctx) (j : JobRun) (t : Strand), s.strandAt c t.sid = some (x, j, t) →
    (s.tapeWord t.tape (t.pc + 1)).isSome = true → s.armed Reg.cmInject 0 = false → s.armed Reg.cmInject 1 = false →
    let u := s.pass c t
    (∃ y k, u.strandAt c t.sid = some (y, k, { t with pc := t.pc + 1, wait := none })) ∧ u.mem = s.mem ∧
      u.engines = s.engines ∧ u.km = s.km ∧ u.tu = s.tu ∧ ∀ d, d ≠ c → u.ctx d = s.ctx d

/-- For the strand that engine e holds and whose word it meets: STEP by the root strand with no step open opens one
that keeps the counters, loops and position as its replay point, TU first rewinding the context's furrow where its
sweep is unfinished; on a starved context it waits; any other STEP ends the job with OPEN_STEP. TAPE_HAIL,
TAPE_RELEASE and EVENT record their effect after the step's earlier ones and go on; with no step open they end the
job with OPEN_STEP. COMMIT by the root strand of an open step waits for the step's other strands; alone, it waits for
its stream where that was displaced, else adds the step's commit request to the end of the commit point's queue and
waits; any other COMMIT ends the job with OPEN_STEP. END by a strand other than the root drops it, and the root's
COMMIT that waited for it goes on; by the root with no step open it adds the completion request and drops the strand;
with one open it ends the job with OPEN_STEP. (R159, R160, R161, R163, R164, R172, R255, R384, R437) -/
def Obligations.StepsOpenCommitAndEnd : Prop :=
  (∀ (s : State) (e c h : Nat) (x : Ctx) (j : JobRun) (t : Strand), s.meets e 0x02 = some (c, x, j, t, h) →
    (t.root = true → j.open_ = none → (s.kv c).flush = 2 → exec (.step e) s = .next s) ∧
    (t.root = true → j.open_ = none → (s.kv c).flush ≠ 2 →
      let o : OpenStep := ⟨x.counters, t.loops, t.tape, t.pc, [], 0, [], []⟩
      let start (u : State) : State := (u.updRun c (fun j => { j with open_ := some o })).pass c t
      ((∀ w, s.tu.sow = some w → w.ctx ≠ c ∨ s.sweepDone w = true) → exec (.step e) s = .next (start s)) ∧
      (∀ w, s.tu.sow = some w → w.ctx = c → s.sweepDone w = false → exec (.step e) s = .next (start s.rewind))) ∧
    (t.root = false ∨ j.open_.isSome = true → exec (.step e) s = .next (s.endJob c Code.openStep))) ∧
  (∀ (s : State) (e c h : Nat) (x : Ctx) (j : JobRun) (t : Strand),
    let keep := fun (f : Effect) => if j.open_.isNone then s.endJob c Code.openStep
      else (s.updRun c (fun j => { j with open_ := j.open_.map (fun o => { o with effects := o.effects ++ [f] }) })).pass c t
    (s.meets e 0x0B = some (c, x, j, t, h) → exec (.tapeHail e) s = .next (keep (.hail (3 + bits h 2 0)))) ∧
    (s.meets e 0x0C = some (c, x, j, t, h) → exec (.tapeRelease e) s = .next (keep (.release (bits h 3 0)))) ∧
    (s.meets e 0x0D = some (c, x, j, t, h) → exec (.event e) s = .next (keep (.event (BitVec.ofNat 32 (bits h 31 0)))))) ∧
  (∀ (s : State) (e c h : Nat) (x : Ctx) (j : JobRun) (t : Strand), s.meets e 0x03 = some (c, x, j, t, h) →
    exec (.commit e) s = .next (if t.root = false ∨ j.open_.isNone = true then s.endJob c Code.openStep
      else if 1 < j.strands.length then s.waitOn c t .strands
      else if s.se.displaced.contains c then (s.ensureStream c).waitOn c t .stream
      else ({ s with dx := { s.dx with commitQ := s.dx.commitQ ++ [CommitReq.commit c j.job.serial] } } : State).waitOn c t
        .commit)) ∧
  (∀ (s : State) (e c h : Nat) (x : Ctx) (j : JobRun) (t : Strand), s.meets e 0x04 = some (c, x, j, t, h) →
    (t.root = true → j.open_ = none → exec (.endd e) s = .next ((({ s with dx := { s.dx with
      commitQ := s.dx.commitQ ++ [CommitReq.complete c j.job.serial] } }).dropStrand c t).observe c)) ∧
    (t.root = true → j.open_.isSome = true → exec (.endd e) s = .next (s.endJob c Code.openStep)) ∧
    (t.root = false → exec (.endd e) s = .next (((s.dropStrand c t).settleCommit c).observe c)))

/-- For the strand that engine e holds and whose word it meets: WAIT and SIGNAL with no step open end the job with
OPEN_STEP. In a step, WAIT passes where the named counter is at or after the target and else waits on it;
WAIT_SATISFIED of a counter that has got there, for a job not stopping, lets the strand go on. A SIGNAL with a fence
first waits as FENCE does; one without is performed at once: ADD adds to the counter and RAISE raises it, here or by
a message to the device named, then the strand passes and what waits is woken; a device that does not exist ends the
job with BAD_ADDRESS. FENCE waits for the strand's earlier writes. FENCE_COMPLETE, with no neighbour write of the
strand out where the scope is all memory, lets a FENCE's strand go on, and performs a fenced SIGNAL, after which the
strand of a job that is stopping is gone. (R160, R162, R166, R167, R168, R169, R170, R173, R556) -/
def Obligations.CountersAndFencesOrderStrands : Prop :=
  (∀ (s : State) (e c h : Nat) (x : Ctx) (j : JobRun) (t : Strand), s.meets e 0x08 = some (c, x, j, t, h) →
    let target := BitVec.ofNat 32 (bits h 31 0)
    exec (.wait e) s = .next (if j.open_.isNone then s.endJob c Code.openStep
      else if atOrAfter (s.counterOf x (bit h 58) (bits h 43 32)) target then s.pass c t
      else s.waitOn c t (.counter (bit h 58) (bits h 43 32) target))) ∧
  (∀ (s : State) (c sid i : Nat) (v : W32) (b : Bool) (x : Ctx) (j : JobRun) (t : Strand), s.strandAt c sid = some (x, j, t) →
    t.wait = some (.counter b i v) → j.phase = .active → s.dxUp = true → atOrAfter (s.counterOf x b i) v = true →
    exec (.waitSatisfied c sid) s = .next ((s.unblock c sid).pass c t)) ∧
  (∀ (s : State) (e c h : Nat) (x : Ctx) (j : JobRun) (t : Strand), s.meets e 0x09 = some (c, x, j, t, h) →
    let run (u : State) : Prop := (bit h 57 = false → exec (.signalAdd e) s = .next u) ∧
      (bit h 57 = true → exec (.signalRaise e) s = .next u)
    (j.open_ = none → run (s.endJob c Code.openStep)) ∧
    (j.open_.isSome = true → bits h 56 55 = 0 → run (s.signal c x t h)) ∧
    (j.open_.isSome = true → bits h 56 55 ≠ 0 → run (s.waitOn c t (.fence (bits h 56 55 == 2) true)))) ∧
  (∀ (s : State) (c : Nat) (x : Ctx) (t : Strand) (h : Nat),
    let i := bits h 43 32
    let v := BitVec.ofNat 32 (bits h 31 0)
    (bit h 54 = true → (∀ u, s.remoteRaise x.field (bits h 53 44) i v = some u → s.signal c x t h = (u.pass c t).wake) ∧
      (s.remoteRaise x.field (bits h 53 44) i v = none → s.signal c x t h = s.endJob c Code.badAddress)) ∧
    (bit h 54 = false → s.signal c x t h = ((if bit h 57 then s.raiseCounter c (bit h 58) i v
      else if bit h 58 then s.setShared x.field i (s.shared x.field i + v)
      else s.updCtx c (fun x => { x with counters := listUpd x.counters i (fun o => o + v) })).pass c t).wake)) ∧
  (∀ (s : State) (e c h : Nat) (x : Ctx) (j : JobRun) (t : Strand), s.meets e 0x0A = some (c, x, j, t, h) →
    exec (.fence e) s = .next (s.waitOn c t (.fence (bits h 58 57 == 2) false))) ∧
  (∀ (s : State) (c sid : Nat) (x : Ctx) (j : JobRun) (t : Strand) (all : Bool), s.strandAt c sid = some (x, j, t) → s.dxUp = true →
    (all = true → ∀ g ∈ s.lx.tags, ∀ i w, g.use ≠ .push c sid i w) →
    let u := s.unblock c sid
    (t.wait = some (.fence all false) → j.phase = .active → exec (.fenceComplete c sid) s = .next (u.pass c t)) ∧
    (∀ h, t.wait = some (.fence all true) → s.tapeWord t.tape t.pc = some h →
      exec (.fenceComplete c sid) s = .next (if j.phase = .active then u.signal c x t h else (u.signal c x t h).dropStrand c t)))

/-- With DX running: a commit request at the head of an active job with its step open waits while a detection names
the step or KM or SE is in reset; else it is taken and the step commits; one whose job no longer runs, stops or has
no step open is discarded. A completion request of the active job marks it completed; of another it is discarded. An
abort of the running job takes hold of it unless it has completed; of a completed job or one that has reported it
answers ALREADY_DONE, of a queued job the job is gone and it answers ABORTED, of a serial the context has not
received it answers NO_JOB, and of a context since closed CTX_CLOSED. Taking a request removes the head of the queue
and touches no memory. (R163, R164, R172, R173, R174, R611) -/
def Obligations.TheCommitPointTakesRequests : Prop :=
  (∀ (s : State) (c : Nat) (serial : W32) (q : List CommitReq), s.dx.commitQ = .commit c serial :: q → s.dxUp = true →
    (∀ (x : Ctx) (j : JobRun) (o : OpenStep), s.ctx c = some x → x.running = some j → j.open_ = some o → j.phase = .active →
      j.job.serial = serial →
      let held := s.fc.pulses.any (fun p => p.step == some (c, x.step)) || s.inReset 38 || s.inReset 7
      exec .commitTaken s = .next (if held then s else s.popCommit.commitStep c x o)) ∧
    ((∀ (x : Ctx) (j : JobRun), s.ctx c = some x → x.running = some j →
      j.open_ = none ∨ j.phase ≠ .active ∨ j.job.serial ≠ serial) → exec .commitTaken s = .next s.popCommit)) ∧
  (∀ (s : State) (c : Nat) (serial : W32) (q : List CommitReq), s.dx.commitQ = .complete c serial :: q → s.dxUp = true →
    (∀ j, (s.ctx c).bind Ctx.running = some j → j.phase = .active → j.job.serial = serial →
      exec .completionTaken s = .next (s.popCommit.updRun c (fun j => { j with phase := .completed }))) ∧
    ((∀ j, (s.ctx c).bind Ctx.running = some j → j.phase ≠ .active ∨ j.job.serial ≠ serial) →
      exec .completionTaken s = .next s.popCommit)) ∧
  (∀ (s : State) (c rid : Nat) (serial : W32) (r : Role) (q : List CommitReq), s.dx.commitQ = .abort c serial r rid :: q →
    s.dxUp = true →
    let u := s.popCommit
    let answer (v : State) (code : Nat) : State := v.reply r Msg.jobAbort rid code []
    (s.ctx c = none → exec .abortTaken s = .next (answer u Code.ctxClosed)) ∧
    (∀ x, s.ctx c = some x →
      (∀ j, x.running = some j → j.job.serial = serial → exec .abortTaken s =
        .next (if j.phase = .completed then answer u Code.alreadyDone else u.abortJob c (some (r, rid)))) ∧
      ((∀ j, x.running = some j → j.job.serial ≠ serial) → exec .abortTaken s =
        .next (if x.queue.any (fun k => k.serial == serial) then (answer (u.abortQueued c x serial) Code.aborted).settleEngines
          else if x.received serial then answer u Code.alreadyDone else answer u Code.noJob)))) ∧
  (∀ (s : State), s.popCommit.dx.commitQ = s.dx.commitQ.tail ∧ s.popCommit.mem = s.mem)

/-- With the engine clocked and out of reset: a command that has done all it has to do is counted, on every engine
but EE with its wait; its segments are reported, its walk closes and watch writes that waited act; the strand goes on
after it, leaving the engine if asked to yield, and with its job stopping it is gone. A strand asked to yield, whose
command is preemptible or waits inside itself, leaves the engine with the command suspended and what it still waits
for; one between commands leaves unless it waits in a fenced signal or the commit itself; with its job stopping it is
gone. With DX running, the strand ready earliest that has an engine, or that has none left in its field, is placed
there with its suspended command resumed, or ends its job with NO_ENGINE. In a field that is not isolated, with
QUANTUM set and another strand ready for the kind, the strand is asked to yield. A run past a BOUND that is not 0 is
counted and posted to field and owner, for a command without P once. (R99, R149, R153, R154, R173, R192, R225, R382, R424, R425, R426, R434) -/
def Obligations.EnginesAreGivenAndTaken : Prop :=
  (∀ (s : State) (e n c sid : Nat) (r : Running), (s.engine e).strand = some (c, sid) → (s.engine e).running = some r →
    s.coreUp = true → s.inReset e = false → s.runDone e = true →
    let counted := if e = 10 then s.bump32 (Reg.engCmds e) 1 none
      else (s.bump32 (Reg.engCmds e) 1 none).bump32 (Reg.engWait e) n none
    let u := (((counted.report c r.furrow).closeWalk c sid).updEngine e (fun g => { g with running := none })).boundary e
    ∀ (x : Ctx) (j : JobRun) (t : Strand), u.strandAt c sid = some (x, j, t) →
    (j.phase = .active →
      let w := u.proceed c t r.tape r.next
      exec (.commandEnd e n) s = .next (if (w.engine e).strand = some (c, sid) ∧ (w.engine e).yield then
        w.leaveEngine c sid e none none else w)) ∧
    (j.phase ≠ .active → exec (.commandEnd e n) s = .next (u.dropStrand c t))) ∧
  (∀ (s : State) (e c sid : Nat) (x : Ctx) (j : JobRun) (t : Strand), (s.engine e).strand = some (c, sid) →
    s.strandAt c sid = some (x, j, t) → (s.engine e).yield = true → s.coreUp = true → s.inReset e = false →
    (∀ r, (s.engine e).running = some r → r.preempt = true ∨ (s.innerWait e).isSome = true →
      let w := (s.innerWait e).filter (fun w => !s.waitDone c x (some w))
      exec (.strandSuspend e) s = .next (if j.phase = .active then (s.spill e).leaveEngine c sid e (some r) w
        else s.dropStrand c t)) ∧
    ((s.engine e).running = none → t.wait ≠ some .commit → (∀ all, t.wait ≠ some (.fence all true)) →
      exec (.strandSuspend e) s = .next (if j.phase = .active then s.leaveEngine c sid e t.held none else s.dropStrand c t))) ∧
  (∀ (s : State) (p : Ready), s.dxUp = true →
    s.readyStrands.find? (fun p => !(List.range 11).any (s.engineSuits p.2.1 p.2.2) || (s.engineFor p.2.1 p.2.2).isSome) = some p →
    (∀ e, (List.range 11).any (s.engineSuits p.2.1 p.2.2) = true → s.engineFor p.2.1 p.2.2 = some e →
      exec .placeStrand s = .next ((((s.displace e).claimEngine e).updStrand p.1 p.2.2.sid (fun t =>
        { t with engine := some e, held := none })).updEngine e (fun g =>
        { g with strand := some (p.1, p.2.2.sid), running := p.2.2.held, yield := false }))) ∧
    ((List.range 11).any (s.engineSuits p.2.1 p.2.2) = false → exec .placeStrand s = .next (s.endJob p.1 Code.noEngine))) ∧
  (∀ (s : State) (e c sid : Nat) (x : Ctx) (f : FieldRec), (s.engine e).strand = some (c, sid) → s.ctx c = some x →
    s.fieldRec x.field = some f → f.isolated = false → s.getF Reg.dxCtl 31 16 ≠ 0 → s.dxUp = true →
    s.readyStrands.any (fun p => s.tapeKind p.2.2.tape == engineKind e) = true →
    exec (.quantumExpiry e) s = .next (s.updEngine e (fun g => { g with yield := true }))) ∧
  (∀ (s : State) (e c sid : Nat) (r : Running) (x : Ctx), (s.engine e).strand = some (c, sid) → (s.engine e).running = some r →
    s.ctx c = some x → r.bound ≠ 0 → (r.overrun = false ∨ r.preempt = true) →
    let u := (s.updRunning e (fun r => { r with overrun := true })).bump (Reg.dxFover x.field) 15 0 32 1 (some x.field)
    exec (.boundOverrun e) s = .next ((u.post Code.boundOverrun 39 x.field (natLE 1 e ++ natLE 2 c)).postOwner Code.boundOverrun 39
      (natLE 1 e ++ natLE 2 c)))

/-- For a matrix command met in an open step: its ranges are checked and read, and a command whose ranges are refused
or poisoned ends as readRanges says. Otherwise, after the checks that its accesses make, its outputs are computed
from its operand words; if every quantisation group pairs, it runs on the engine until its end, at the word after its
operands, and else its first failed group has its reaction. A PROJ with its streams in the furrow starts to run and
projects group by group as far as the FILLED segments reach; met again while it runs on a powered engine out of
reset, it goes on from there. Outside an open step each of them ends its job with OPEN_STEP. (R126, R160, R183, R185, R186, R187, R190, R195, R196, R281, R345, R382) -/
def Obligations.MatrixCommandsRun : Prop :=
  (∀ (s u : State) (e : Nat) (m : Met) (r : Option State), m.j.open_.isSome = true →
    s.readRanges m (matReads m.v.h m.ops) = (r, u) →
    let run (i : Instr) (w : OpResult) : Prop := exec i s = .next (match r with
      | some t => t
      | none => State.finishOp m [] w)
    let v := u.engChecks m.v 6 8
    (s.met e 0 0x10 4 = some m → run (.gate e) (v.gateWork m.v m.ops)) ∧
    (s.met e 0 0x11 4 = some m → run (.add e) (v.addWork m.v m.ops)) ∧
    (s.met e 0 0x13 3 = some m → run (.sumq e) (v.sumqWork m.v m.ops)) ∧
    (s.met e 0 0x14 4 = some m → run (.rmsnorm e) (v.rmsnormWork m.v m.ops)) ∧
    (s.met e 0 0x18 3 = some m → run (.outer e) (v.outerRows m.v (MatX.of (opWord m.ops 0)) (MatX.of (opWord m.ops 1))
      (MatY.of (opWord m.ops 2)), none)) ∧
    (s.met e 0 0x19 4 = some m → run (.update e) (v.updateRows m.v (MatY.of (opWord m.ops 0)) (MatG.of (opWord m.ops 1))
      (MatS.of (opWord m.ops 2)) (MatY.of (opWord m.ops 3)))) ∧
    (s.met e 0 0x12 3 = some m → s.runningProj e = none →
      let w := u.engChecks m.v 7 (min 8 m.proj.groups)
      (m.proj.s.src ≠ 1 → run (.proj e) (w.projGroups m.v m.proj)) ∧
      (m.proj.s.src = 1 → exec (.proj e) s = .next (match r with
        | some t => t
        | none => (w.startRun m []).projOn m m.proj (m.running []))))) ∧
  (∀ (s : State) (e : Nat) (m : Met) (r : Running), s.runningProj e = some (m, r) → s.engineOn e = true → s.inReset e = false →
    exec (.proj e) s = .next (s.projOn m m.proj r)) ∧
  (∀ (s v : State) (m : Met) (p : Proj) (r : Running) (stop : ProjStop),
    s.projFeed m p r.raised r.got (p.passes * p.groups - r.raised) = (v, stop) →
    s.projOn m p r = match stop with
      | .failed i g => v.groupFault m i g
      | .ended t => t
      | .at_ i got => v.updRunning m.v.eng (fun q => { q with
          raised := i, got := got, waited := q.waited || decide (i < p.passes * p.groups) })) ∧
  (∀ (s : State) (e : Nat) (m : Met), m.j.open_ = none →
    let stops (i : Instr) : Prop := exec i s = .next (s.endJob m.c Code.openStep)
    (s.met e 0 0x10 4 = some m → stops (.gate e)) ∧ (s.met e 0 0x11 4 = some m → stops (.add e)) ∧
    (s.met e 0 0x12 3 = some m → s.runningProj e = none → stops (.proj e)) ∧ (s.met e 0 0x13 3 = some m → stops (.sumq e)) ∧
    (s.met e 0 0x14 4 = some m → stops (.rmsnorm e)) ∧ (s.met e 0 0x18 3 = some m → stops (.outer e)) ∧
    (s.met e 0 0x19 4 = some m → stops (.update e))) ∧
  (∀ (s : State) (m : Met) (i : Nat) (g : GroupFault),
    State.finishOp m [] (s, some (i, g)) = s.groupFault m i g ∧
    (m.v.eng < s.engines.length →
      let t := State.finishOp m [] (s, none)
      (t.engine m.v.eng).running = some (m.running []) ∧ (m.running []).next = m.t.pc + 1 + m.v.h.words ∧ t.mem = s.mem ∧
        t.regs = s.regs))

/-- DIGEST outside an open step ends its job with OPEN_STEP. In one, of a disabled group it runs without effect; of a
group of another field, or without this device's id, it ends its job with ADAPT_CONFIG; off the interval it runs
without effect; else its range is read, and the digest of it is sent to every other replica and awaited.
DIGEST_VERDICT, where no replica's digest of the step is missing or TIMEOUT is set: each absent replica is posted,
DSTAT records the step, the verdict and the mask of the absent, and used digests go. On a pass the DIGEST completes.
Where a peer is the odd one it is posted, its slot leaves DPEER, and the DIGEST completes. Else EN clears, and the
group is EXPELLED where this device is odd or HALTED where no one can be named, either is posted, the wait ends, the
command is counted and the job ends with that code. All equal digests pass; of three or more, one unlike equal others
is odd; two that differ name no one. (R160, R197, R198, R199, R200, R201) -/
def Obligations.ReplicasCompareDigests : Prop :=
  (∀ (s : State) (e : Nat) (m : Met), s.met e 0 0x1C 1 = some m →
    let d := MatD.of (opWord m.ops 0)
    let g := s.reg (Reg.meDgrp d.group)
    let interval := if bits g 47 32 = 0 then (s.image.map Image.digest).getD 1 else bits g 47 32
    let run (t : State) : Prop := exec (.digest e) s = .next t
    (m.j.open_ = none → run (s.endJob m.c Code.openStep)) ∧
    (m.j.open_.isSome = true →
      (bit g 63 = false → run (s.startRun m [])) ∧
      (bit g 63 = true →
        (bits g 50 48 ≠ m.v.field ∨ s.devId ∉ s.dgrpIds d.group → run (s.failCmd m Code.adaptConfig)) ∧
        (bits g 50 48 = m.v.field → s.devId ∈ s.dgrpIds d.group →
          ((m.v.step.toNat + 1) % interval ≠ 0 → run (s.startRun m [])) ∧
          ((m.v.step.toNat + 1) % interval = 0 → ∀ (r : Option State) (u : State), s.readRanges m (matReads m.v.h m.ops) = (r, u) →
            let own := sha256 (u.read d.addr d.len)
            let v := ((s.dgrpIds d.group).filter (fun i => i != u.devId)).foldl (fun v i => v.sendMsg (v.newMsg 0x05 m.v.field
              false i 32 (d.group + 65536 * m.v.step.toNat) own)) u
            (∀ t, r = some t → run t) ∧
            (r = none → run (({ v with dig := { v.dig with
              waiting := Map.put v.dig.waiting d.group ⟨e, m.c, m.t.sid, m.v.step, own⟩ } } : State).block m .digest))))))) ∧
  (∀ (s : State) (n : Nat) (w : DigestWait), Map.find s.dig.waiting n = some w →
    let ids := s.dgrpIds n
    let slots := List.zip (List.range ids.length) ids
    let got (i : Nat) : Option (List Byte) := if i = s.devId then some w.own
      else (s.dig.peers.find? (fun p => p.1 == n && p.2.1 == i && p.2.2.1 == w.step)).map (fun p => p.2.2.2)
    let absent := slots.filter (fun p => (got p.2).isNone)
    let present := slots.filterMap (fun p => (got p.2).map (fun d => (p.1, d)))
    let field := s.getF (Reg.meDgrp n) 50 48
    let both (u : State) (code : Nat) (items : List Byte) : State := (u.post code w.eng field items).postOwner code w.eng items
    (absent = [] ∨ s.getF (Reg.meDgrp n) 31 16 ≠ 0) →
    let lost := absent.foldl (fun u p => both u Code.adaptPeerLost (natLE 2 p.2)) s
    let judged (code : Nat) : State :=
      let u := lost.setReg (Reg.meDstat n) (w.step.toNat * 2 ^ 32 + code * 2 ^ 28 + (absent.map (fun p => 2 ^ p.1)).sum * 2 ^ 16)
      { u with dig := { u.dig with peers := u.dig.peers.filter (fun p => p.1 != n || atOrAfter p.2.2.1 w.step) } }
    let halted (code flag : Nat) : State := ((judged code).setF (Reg.meDgrp n) 63 63 0).setF (Reg.meDgrp n) flag flag 1
    let counted (u : State) : State := (u.endDigest w.ctx w.sid).bump32 (Reg.engCmds w.eng) 1 none
    let run (t : State) : Prop := exec (.digestVerdict n) s = .next t
    (digestVerdict present = (1, none) → run ((judged 1).digestDone w)) ∧
    (∀ k id, digestVerdict present = (2, some k) → ids[k]? = some id → id ≠ s.devId →
      run (((both (judged 2) Code.adaptExpelled (natLE 2 id)).expelSlot n k).digestDone w)) ∧
    (∀ k, digestVerdict present = (2, some k) → ids[k]? = some s.devId →
      run ((counted (both (halted 3 62) Code.adaptExpelled (natLE 2 s.devId))).endJob w.ctx Code.adaptExpelled)) ∧
    (digestVerdict present = (4, none) → run ((counted (both (halted 4 61) Code.adaptDiverged [])).endJob w.ctx Code.adaptDiverged))) ∧
  (∀ l : List (Nat × List Byte), (∀ p ∈ l, ∀ q ∈ l, p.2 = q.2) → digestVerdict l = (1, none)) ∧
  (∀ (i j : Nat) (a b : List Byte), a ≠ b → digestVerdict [(i, a), (j, b)] = (4, none)) ∧
  (∀ (i j k : Nat) (a b : List Byte), a ≠ b → i ≠ k → j ≠ k → digestVerdict [(i, a), (j, a), (k, b)] = (2, some k))

/-- In an open step, ATTEND: a token past 65,535 ends the job with ATT_RANGE; a furrow stream whose segments are not
all FILLED, then a held edit, makes it wait; else its ranges are read, its groups paired, and, unless one fails, it
runs: with no block of its window to supply its outputs are computed at once, else its walk opens. The walker, with
KM running, supplies the next block of a running ATTEND: without a frame the command ends with ATT_HOLE, with the
frame lost with KV_LOST; a staged block, one in a commons slot that the engine is connected to, and one read through
TU are supplied, those of a frame with a lease; a poisoned frame block marks the step and is not supplied, a poisoned
staged one ends the command with MEM_POISON. With the last block the outputs are computed. APPEND: a count unlike the
step's ends the job with APPEND_COUNT, a token past 65,535 with KV_FULL; without a free staging half it waits; else
its latents are staged and it runs. Both end the job with OPEN_STEP outside a step. (R126, R160, R212, R222, R224, R226, R227, R229, R251, R258, R344, R376) -/
def Obligations.AttentionIsWalked : Prop :=
  (∀ (s : State) (e : Nat) (m : Met), s.met e 1 0x20 6 = some m →
    let a := Attend.of m.ops
    let tc := (s.kv m.c).tc
    let segs := (a.furrow.flatMap (fun r => s.furrowSegs r.1 r.2)).eraseDups
    let reads := attReads m.v.h m.ops ++ a.furrow.flatMap (fun r => s.furrowRanges r.1 r.2)
    let run (t : State) : Prop := exec (.attend e) s = .next t
    (m.j.open_ = none → run (s.endJob m.c Code.openStep)) ∧
    (m.j.open_.isSome = true →
      (65536 < tc + a.c.nOwn → run (s.failCmd m Code.attRange)) ∧
      (tc + a.c.nOwn ≤ 65536 →
        (a.furrow ≠ [] → s.furrowWait m.c segs = true → run (s.block m (.furrow segs))) ∧
        (a.furrow = [] ∨ s.furrowWait m.c segs = false →
          ((s.kv m.c).held = true → run (s.block m .walker)) ∧
          ((s.kv m.c).held = false → ∀ u, (∀ t, s.readRanges m reads = (some t, u) → run t) ∧
            (s.readRanges m reads = (none, u) → ∀ (v : State) (f : Option (Nat × GroupFault)),
              (u.engChecks m.v 7 (min 4 (a.q.q * a.q.g))).attPair m.v a = (v, f) →
              (∀ i g, f = some (i, g) → run (v.groupFault m i g)) ∧
              (f = none → v.attBlocks a tc = [] → run ((v.attOutputs m.v a tc []).startRun m segs)) ∧
              (f = none → v.attBlocks a tc ≠ [] →
                run (((v.openWalk m.c m.t.sid).startRun m segs).updRunning e (fun r => { r with waited := true }))))))))) ∧
  (∀ (s : State) (e n b : Nat) (m : Met), s.runningAttend e = some (m, n) → s.kmUp = true →
    (s.attBlocks (Attend.of m.ops) (s.kv m.c).tc)[n]? = some b →
    let v := (s.kmCheck 2).kmCheck 0
    let place := v.blockPlace m.c m.x.field b (Attend.of m.ops).c.layer
    let run (t : State) : Prop := exec (.walkerBlock e b) s = .next t
    (place = none → run (v.failCmd m Code.attHole)) ∧
    (∀ p, place = some (p, true) → run (v.failCmd m Code.kvLost)) ∧
    (∀ a u bad, place = some (.commons a, false) → v.cmRead a 16384 = (u, bad) →
      run (if bad = true then u.failCmd m Code.memPoison else u.attSupply m n (u.read a 16384))) ∧
    (∀ f ua, place = some (.unified f ua, false) →
      (∀ a u bad, v.directSlot m.v.eng f ua 16384 = some a → v.cmRead a 16384 = (u, bad) →
        run (if bad = true then (u.poisonBlk f ua).markPoison f ua 16384 m.c m.x.step
          else (u.grantLease f ua m.c m.t.sid).attSupply m n (u.read a 16384))) ∧
      (∀ u r, v.directSlot m.v.eng f ua 16384 = none → v.tuRead f ua 16384 true = (u, r) → run (match r with
        | .done bs => (u.grantLease f ua m.c m.t.sid).attSupply m n bs
        | .wait => u.markPoison f ua 16384 m.c m.x.step
        | .code k => u.failCmd m (if k = Code.memPoison then Code.kvLost else k))))) ∧
  (∀ (s : State) (m : Met) (n : Nat) (bs : List Byte),
    let a := Attend.of m.ops
    let u := s.updRunning m.v.eng (fun r => { r with raised := n + 1, got := r.got ++ bs })
    let got := ((u.engine m.v.eng).running.map Running.got).getD []
    s.attSupply m n bs = if n + 1 = (u.attBlocks a (s.kv m.c).tc).length then
      (u.attOutputs m.v a (s.kv m.c).tc got).updRunning m.v.eng (fun r => { r with got := [] }) else u) ∧
  (∀ (s : State) (e : Nat) (m : Met), s.met e 1 0x21 1 = some m →
    let l := AttL.of (opWord m.ops 0)
    let k := s.kv m.c
    let run (t : State) : Prop := exec (.append e) s = .next t
    (m.j.open_ = none → run (s.endJob m.c Code.openStep)) ∧
    (∀ o, m.j.open_ = some o →
      (o.appended ≠ 0 → o.appended ≠ l.n → run (s.failCmd m Code.appendCount)) ∧
      (o.appended = 0 ∨ o.appended = l.n →
        (65536 < k.tc + l.n → run (s.failCmd m Code.kvFull)) ∧
        (k.tc + l.n ≤ 65536 → (k.both = true ∨ (k.flush ≠ 0 ∧ (k.tc + l.n - 1) / 64 ≠ k.tc / 64)) → run (s.block m (.append l.n))) ∧
        (k.tc + l.n ≤ 65536 → k.both = false → (k.flush = 0 ∨ (k.tc + l.n - 1) / 64 = k.tc / 64) → ∀ u,
          (∀ t, s.readRanges m (attReads m.v.h m.ops) = (some t, u) → run t) ∧
          (s.readRanges m (attReads m.v.h m.ops) = (none, u) →
            let v := u.kmCheck 2
            run (((v.stageTokens k l.layer k.tc (u.read l.addr (256 * l.n)) l.n).updRun m.c (fun j => { j with
              open_ := j.open_.map (fun o => { o with appended := l.n
                                                      layers := if o.layers.contains l.layer then o.layers
                                                        else o.layers ++ [l.layer] }) })).startRun m []))))))

/-- Each of these commands outside an open step ends its job with OPEN_STEP. In one, a state command ends with
STATE_NONE without a stream and with STATE_LOST with a lost one, and waits for one that is not resident. Over a
resident stream SCAN ends with the code of the first of its checks that fails; else its table, blocks and ranges are
read, its stages loaded, a failed group having its reaction, and its layers run. HOLD ends with STATE_RANGE past the
stream's blocks and with STATE_KIND where a block is neither its own kind nor blank; else its ranges are read, its
vectors shifted and its new state written. A window command with no output counts EMPTYCMDS and runs. Any other has
its streams read, and without CN its input; after its checks one with CN starts, its rows to follow, and one without
computes all its rows, a failed group having its reaction. A command whose ranges are refused or poisoned ends as
readRanges says. (R126, R160, R281, R287, R293, R294, R299, R304, R317, R323, R324, R328) -/
def Obligations.StateAndWindowCommandsRun : Prop :=
  (∀ (s : State) (e : Nat) (m : Met) (i : Instr),
    ((s.met e 2 0x30 4 = some m ∧ i = .scan e) ∨ (s.met e 2 0x31 3 = some m ∧ i = .hold e)) →
    let u := s.slotCheck (some (m.c, m.x.step))
    let run (t : State) : Prop := exec i s = .next t
    (m.j.open_ = none → run (s.endJob m.c Code.openStep)) ∧
    (m.j.open_.isSome = true →
      (u.stream m.c = none → run (u.failCmd m Code.stateNone)) ∧
      (∀ q, u.stream m.c = some q → q.lost = true → run (u.failCmd m Code.stateLost)) ∧
      (∀ q, u.stream m.c = some q → q.lost = false → q.state ≠ 1 → run ((u.ensureStream m.c).block m .stream)) ∧
      (∀ q, u.stream m.c = some q → q.lost = false → q.state = 1 →
        (i = .scan e →
          let c := Scan.of m.ops
          let ls := u.scanLayers c
          (∀ code, u.scanFault c q ls = some code → run (u.failCmd m code)) ∧
          (u.scanFault c q ls = none → ∀ (r : Option State) (v : State),
            u.readRanges m (u.scanReads c ls ++ ls.flatMap (fun y => u.blockReads (u.streamSlots q) y.e.boff y.nb)) = (r, v) →
            (∀ t, r = some t → run t) ∧
            (r = none → ∀ (w : State) (f : Option (Nat × GroupFault)),
              (v.engChecks m.v 13 c.l.layers).scanLoad m.v c 0 ls = (w, f) →
              (∀ k g, f = some (k, g) → run (w.groupFault m k g)) ∧
              (f = none → run (((w.scanRun m.v c (w.streamSlots q) ls).recordOut m.c (scanOuts c ls)).startRun m []))))) ∧
        (i = .hold e →
          let x := StX.of (opWord m.ops 0)
          let h := StH.of (opWord m.ops 1)
          let n := ceilDiv ((h.taps - 1) * x.k) 192
          let kind (b : Nat) : Prop := let a := u.getBlock (u.streamSlots q) (h.boff + b); a.1 = 255 ∨ (a.1 = 1 ∧ ∀ y ∈ a.2, y = 0)
          (63 * q.nslot < h.boff + n → run (u.failCmd m Code.stateRange)) ∧
          (h.boff + n ≤ 63 * q.nslot →
            ((∃ b, b < n ∧ ¬ kind b) → run (u.failCmd m Code.stateKind)) ∧
            ((∀ b, b < n → kind b) → ∀ (r : Option State) (v : State),
              u.readRanges m (holdReads m.ops ++ u.blockReads (u.streamSlots q) h.boff n) = (r, v) →
              (∀ t, r = some t → run t) ∧
              (r = none → run ((v.holdRun x h (RowY.of (opWord m.ops 2)) (u.streamSlots q) n).startRun m []))))))) ) ∧
  (∀ (s : State) (e : Nat) (m : Met) (i : Instr),
    ((s.met e 3 0x40 4 = some m ∧ i = .conv e) ∨ (s.met e 3 0x41 4 = some m ∧ i = .pool e) ∨
      (s.met e 4 0x48 4 = some m ∧ i = .econv e)) →
    let w := WinCmd.of m.v.h m.ops
    let v := { m.v with map := w.map }
    let run (t : State) : Prop := exec i s = .next t
    (m.j.open_ = none → run (s.endJob m.c Code.openStep)) ∧
    (m.j.open_.isSome = true →
      (w.oht = 0 ∨ w.owt = 0 →
        run ((((s.setF (Reg.engStatus m.v.eng) 28 28 1).bump16 (Reg.weEmptycmds m.v.eng) 1 none).recordHalo m w).startRun m [])) ∧
      (w.oht ≠ 0 → w.owt ≠ 0 → ∀ (r : Option State) (u : State),
        s.readRanges m (w.streamReads ++ (if w.cn.isSome then [] else w.inReads w.rows.1 w.rows.2)) = (r, u) →
        (∀ t, r = some t → run t) ∧
        (r = none →
          let k := (u.engChecks v (if w.pool then 6 else 7) (min 8 w.units)).recordHalo m w
          (w.cn.isSome = true → run (k.startRun m [])) ∧
          (w.cn = none → run (State.finishOp m [] (k.winRun v w 0 (ceilDiv (w.rows.2 * w.owt) 64))))))))

/-- For a window command with CN running on a powered engine: the next output row, once no halo row that it reads is
awaited, is worked; where that ends the command no row is raised, and else the shared counter RDY is raised to
T(step, row) and what waits is woken. The next completed row for a neighbour whose commit of the step before is not
awaited is pushed: to this device itself, or with empty rows, nothing is sent; a device that does not exist ends the
job with BAD_ADDRESS; else the row goes out in memory writes of at most 512 bytes, each under a tag of its own, or
waits while tags are short. When every pushed row up to one is acknowledged, RDY on the neighbour is raised to that
row's tag. (R167, R328, R329, R330, R345, R556) -/
def Obligations.HaloRowsAreRaisedAndPushed : Prop :=
  (∀ (s v : State) (e : Nat) (ok : Bool) (m : Met) (r : Running) (w : WinCmd) (n : WinC),
    s.runningHalo e = some (m, r, w, n) → s.engineOn e = true → r.raised < w.rows.2 →
    s.haloWait m.v.field m.v.step w r.raised = none → s.winRow m w r.raised = (v, ok) →
    exec (.haloRowRaise e (w.rows.1 + r.raised)) s = .next (if ok = false then v
      else ((v.raiseShared m.v.field n.rdy (rowTag m.v.step (w.rows.1 + r.raised))).updRunning e (fun r =>
        { r with raised := r.raised + 1 })).wake)) ∧
  (∀ (s : State) (e : Nat) (high : Bool) (m : Met) (r : Running) (w : WinCmd) (n : WinC),
    s.runningHalo e = some (m, r, w, n) → s.engineOn e = true → s.pushWait m.v.field m.v.step n high = none →
    let done := if high then r.pushHi else r.pushLo
    let row := (if high then w.rows.1 + w.rows.2 - n.nhi else w.rows.1) + done
    let dev := if high then n.devhi else n.devlo
    let sent := fun (v : State) => v.updRunning e (fun r =>
      if high then { r with pushHi := r.pushHi + 1 } else { r with pushLo := r.pushLo + 1 })
    let bytes := pieces (s.read (w.y.addr + row * w.y.pitch) (w.outBytes (w.owt * w.f.n)))
    let out := s.sendWrites m.v.field false dev (w.y.addr + row * w.y.pitch) (.push m.c m.t.sid high row) bytes
    done < (if high then n.nhi else n.nlo) → row < w.rows.1 + r.raised →
    (dev = s.devId ∨ w.owt = 0 → exec (.haloPush e high row) s = .next (sent s)) ∧
    (dev ≠ s.devId → w.owt ≠ 0 → s.idExists dev = false → exec (.haloPush e high row) s = .next (s.failCmd m Code.badAddress)) ∧
    (dev ≠ s.devId → w.owt ≠ 0 → s.idExists dev = true →
      (∀ v, out = some v → exec (.haloPush e high row) s = .next (sent v)) ∧
      (out = none → exec (.haloPush e high row) s = .next s))) ∧
  (∀ (bs : List Byte) (p : Nat × List Byte), p ∈ pieces bs → p.2.length ≤ 512) ∧
  (∀ (s u : State) (e row : Nat) (high : Bool) (m : Met) (r : Running) (w : WinCmd) (n : WinC),
    s.runningHalo e = some (m, r, w, n) → s.engineOn e = true →
    (∀ t ∈ s.lx.tags, ∀ q, t.use = .push m.c m.t.sid high q → row < q) →
    let first := if high then w.rows.1 + w.rows.2 - n.nhi else w.rows.1
    first + (if high then r.ackHi else r.ackLo) ≤ row → row < first + (if high then r.pushHi else r.pushLo) →
    (s.updRunning e (fun r => if high then { r with ackHi := row + 1 - first } else { r with ackLo := row + 1 - first })).remoteRaise
      m.v.field (if high then n.devhi else n.devlo) n.rdy (rowTag m.v.step row) = some u →
    exec (.pushAcked e high row) s = .next u.wake)

/-- For the output formats S4, U4, F4 and S16, both rounding modes and every 24-bit draw: the requantised value of
any exact number lies between the format's smallest and largest lane values; a number that is itself a lane value of
the format is requantised to itself; and, for the 4-bit formats, the code of a lane value reads back as that lane
value. (R50, R73, R75) -/
def Obligations.RequantisedValuesAreLaneValues : Prop :=
  (∀ (fmt : Nat) (nearest : Bool) (t : Dy) (u : Nat), fmt ∈ [0, 1, 2, 4] →
    fmtMin fmt ≤ requantise fmt nearest t u ∧ requantise fmt nearest t u ≤ fmtMax fmt) ∧
  (∀ (fmt : Nat) (nearest : Bool) (z : Int) (u : Nat), fmt ∈ [0, 1, 2, 4] → fmtMin fmt ≤ z → z ≤ fmtMax fmt →
    (fmt = 2 → z ∈ f4Values) → requantise fmt nearest (Dy.ofInt z) u = z) ∧
  (∀ (fmt : Nat) (z : Int), fmt ∈ [0, 1, 2] → fmtMin fmt ≤ z → z ≤ fmtMax fmt → (fmt = 2 → z ∈ f4Values) →
    lane4 fmt (laneCode fmt z) = z)

/-- With DX running: the first queued job of an open context that runs nothing, is not halted and not starved starts
where it has no sowing list; with one it starts while the furrow is bound to it and no other context must have it, or
once it is primed in its turn; else it joins the switch order. A started job, no commons injection being armed, has
its root strand ready at its entry word, or, its stream lost, ends with STATE_LOST. The furrow is bound to the first
of the switch order once its context keeps it no more; a list that TU refuses ends that context's next job with
TIER_ARG and halts it. The hold's expiry is noted. An abandoned step whose strands have stopped stands at its STEP
again with the counters kept there, and a furrow bound to it is rewound. A job that has ended, with no strand and no
push owed, reports: its code is posted and counted, aborts are answered, its context runs nothing, a code but OK
restores the open step's counters and one but OK and ABORTED halts it; a gate job that completed gives its verdict. (R162, R171, R172, R177, R307, R384, R385, R421, R422, R427, R428, R503) -/
def Obligations.JobsStartReplayAndReport : Prop :=
  (∀ (s : State) (c : Nat) (x : Ctx) (k : Job) (rest : List Job), s.ctx c = some x → x.queue = k :: rest → x.running = none →
    x.halted = false → s.dxUp = true → (s.kv c).flush ≠ 2 →
    let run (t : State) : Prop := exec (.jobStart c) s = .next t
    (x.sow = none → run (s.beginJob c x k rest)) ∧
    (∀ l n p, x.sow = some (l, n, p) →
      (s.bound c = false → run (s.joinSwitch c)) ∧
      (s.bound c = true → s.dx.switchQ.contains c = true → run (if s.primed p then s.beginJob c x k rest else s)) ∧
      (s.bound c = true → s.dx.switchQ.contains c = false → run (if s.mustSwitch c then s.joinSwitch c else s.beginJob c x k rest)))) ∧
  (∀ (s : State) (c : Nat) (x : Ctx) (k : Job) (rest : List Job), s.ctx c = some x → s.armed Reg.cmInject 0 = false →
    s.armed Reg.cmInject 1 = false →
    ∃ y j, (s.beginJob c x k rest).ctx c = some y ∧ y.queue = rest ∧ y.counters = x.counters ∧ y.step = x.step ∧
      y.running = some j ∧ j.job = k ∧ (s.beginJob c x k rest).mem = s.mem ∧
      ((s.stream c).any StreamRec.lost = true → j.code = some Code.stateLost) ∧
      ((s.stream c).any StreamRec.lost = false → j.phase = .active ∧ j.open_ = none ∧ ∃ t, j.strands = [t] ∧ t.root = true ∧
        t.ready = true ∧ t.tape = k.entry / 65536 ∧ t.pc = k.entry % 65536)) ∧
  (∀ (s : State) (c l n p : Nat) (q : List Nat) (x : Ctx), s.dx.switchQ = c :: q → s.ctx c = some x → x.sow = some (l, n, p) →
    s.dxUp = true → s.bound c = false → (∀ w, s.tu.sow = some w → s.keepsFurrow w.ctx = false) →
    (s.sowOk l n = true → exec .switchBind s = .next { s.bindSow c l n with dx := { s.dx with switchLate := false } }) ∧
    (∀ k rest, s.sowOk l n = false → x.queue = k :: rest → exec .switchBind s = .next ((((((s.setCtx c { x with
      queue := rest, halted := true }).postEnd c x k.serial Code.tierArg).bump32 (Reg.dxFend x.field) 1
      (some x.field)).leaveSwitch c).observe c).settleEngines))) ∧
  (∀ s : State, s.dxUp = true → s.dx.switchQ.any (fun c => !s.bound c) = true →
    exec .switchHoldExpiry s = .next { s with dx := { s.dx with switchLate := true } }) ∧
  (∀ (s : State) (c : Nat) (x : Ctx) (j : JobRun) (o : OpenStep), s.ctx c = some x → x.running = some j → j.open_ = some o →
    j.phase = .replaying → j.strands = [] → s.dxUp = true →
    let u := (if s.bound c then s.rewind else s).dropWrites c
    let v := ({ u with dx := { u.dx with stamp := u.dx.stamp + 1 } } : State).forget c
    exec (.stepReplay c) s = .next (((v.setCtx c { x with counters := o.counters, running := some { j with
      phase := .active, open_ := none, nextSid := j.nextSid + 1
      strands := [rootStrand j.nextSid o.tape o.pc o.loops u.dx.stamp] } }).observe c).fetchWord c o.tape o.pc)) ∧
  (∀ (s : State) (c code : Nat) (x : Ctx) (j : JobRun), s.ctx c = some x → x.running = some j → j.code = some code → j.strands = [] →
    s.dxUp = true → (∀ g ∈ s.lx.tags, ∀ i h q, g.use ≠ .push c i h q) →
    let ended (u : State) (counters : List W32) (halts : Bool) : State :=
      (((u.forget c).dxCheck 0).setCtx c { x with counters := counters, running := none, halted := x.halted || halts }).postEnd c x
        j.job.serial code
    let answered (u : State) : State := j.aborts.foldl (fun u a => u.reply a.1 Msg.jobAbort a.2 Code.aborted []) u
    let old := (j.open_.map OpenStep.counters).getD x.counters
    let run (t : State) : Prop := exec (.jobReport c) s = .next (t.observe c).settleEngines
    (code = Code.ok →
      let u := answered (((ended s x.counters false).countDone c x).bump32 (Reg.dxFdone x.field) 1 (some x.field))
      run (if j.job.gate.isSome then u.gateVerdict else u)) ∧
    (code ≠ Code.ok →
      let u := if undefinedOutputs.contains code then j.wrote.foldl (fun u r => u.fillFree r.1 r.2) s else s
      run (answered ((ended (u.dropWrites c) old (code != Code.aborted)).bump32 (Reg.dxFend x.field) 1 (some x.field)))))

/-- With the core up: where the open phase is of no isolated field, or the guard of its field stands, DX is out of
reset and no engine runs a command of that field, the next slot opens with the next phase of the round and no guard.
Outside the guard, GUARD_OPEN sets it and asks the engines that hold the field's strands to yield. In the guard,
WATCHDOG abandons, engine by engine, the command of every engine that runs one of the field and does not wait inside
it; the active job whose command is abandoned is ending with WATCHDOG. DERATE sets the level and posts it to every
enabled field. (R149, R191, R431, R432, R433, R440) -/
def Obligations.IsolatedFieldsTakeTurns : Prop :=
  (∀ (s : State), s.coreUp = true →
    (s.slotField = none → s.fields.any FieldRec.isolated = true →
      exec .slotStart s = .next { s with dx := { s.dx with phase := s.nextPhase, guard := false } }) ∧
    (∀ r, s.slotField = some r → s.dx.guard = true → s.inReset 39 = false →
      (∀ e, e < 11 → s.engineField e = some r.id → s.runsCommand e = false) →
      exec .slotStart s = .next { s with dx := { s.dx with phase := s.nextPhase, guard := false } })) ∧
  (∀ (s : State) (r : FieldRec), s.slotField = some r → s.dx.guard = false → s.coreUp = true → s.inReset 39 = false →
    ∃ t, exec .guardOpen s = .next t ∧ t.dx.guard = true ∧ t.dx.phase = s.dx.phase ∧ t.mem = s.mem ∧ t.regs = s.regs ∧
      ∀ e, e < 11 → e < s.engines.length →
        t.engine e = (if s.engineField e = some r.id then { s.engine e with yield := true } else s.engine e)) ∧
  (∀ (s : State) (r : FieldRec), s.slotField = some r → s.dx.guard = true → s.dxUp = true →
    exec .watchdog s = .next ((List.range 11).foldl (fun t e =>
      if t.engineField e = some r.id ∧ t.runsCommand e = true ∧ t.innerWait e = none then t.abandon e r.id else t) s)) ∧
  (∀ (s : State) (e f c sid : Nat) (x : Ctx) (j : JobRun), (s.engine e).strand = some (c, sid) → s.ctx c = some x →
    x.running = some j → j.phase = .active →
    ∃ (y : Ctx) (k : JobRun), (s.abandon e f).ctx c = some y ∧ y.running = some k ∧ k.phase = .ending Code.watchdog) ∧
  (∀ (s : State) (n : Nat), s.dxUp = true → n ≤ 15 →
    exec (.derate n) s = .next (s.fields.foldl (fun t r => t.post Code.derate 39 r.id (natLE 1 n)) (s.setF Reg.dxDerate 3 0 n)))

/-- On a port that passes frames: a codeword is received by the frame rules as good when it decoded and its CRC
matches, or takes the port down where an injection into the buffer is armed; one codeword time sends by the frame
rules, going down where that is forced or the replay buffer it reads is hit, and with a corrupted CRC where that is
armed and the frame is sequenced; a lost signal takes it down. The unit that waits first is taken: HELLO on a port
not UP brings it UP with its held messages queued and posts LINK_UP where it matches, and else drops them, takes it
to MISWIRED and posts LINK_MISWIRED; LACK releases what it covers; LNAK resends from a held frame and is counted, and
the 32nd in a row for one frame takes the port down; CRED returns its units; BYE takes it to SLEEPING. On a port
whose LX runs: a detected partner takes it into TRAINING, training done queues HELLO or fails to DOWN, held messages
take a port to WAKING, and the limit drops them and restores its state. (R543, R545, R546, R547, R548, R549, R550, R551, R565, R566, R568, R570) -/
def Obligations.PortsTakeFramesAndUnits : Prop :=
  (∀ (s : State) (p : Nat), s.lxOpen p = true →
    (∀ (dec cor : Bool) (hdr crc : Nat) (body : List Byte), hdr < 16 → body.length = 640 →
      exec (.linkFrame p dec cor hdr crc body) s = .next (if s.armed (Reg.lxInject p) 1 then
        ((s.setF (Reg.lxInject p) 1 1 0).setF (Reg.lxErr p) 1 1 1).goDown p false
        else s.frameIn p (dec && BitVec.ofNat 16 crc == crc16 (natLE 1 hdr ++ body)) (dec && cor) hdr body)) ∧
    (s.armed (Reg.lxInject p) 2 = true → exec (.frameSend p) s = .next ((s.setF (Reg.lxInject p) 2 2 0).goDown p false)) ∧
    (s.armed (Reg.lxInject p) 2 = false →
      let again := (s.port p).resend.isSome
      (again = true → s.armed (Reg.lxInject p) 0 = true → exec (.frameSend p) s =
        .next (((s.setF (Reg.lxInject p) 0 0 0).setF (Reg.lxErr p) 0 0 1).goDown p false)) ∧
      (again = false ∨ s.armed (Reg.lxInject p) 0 = false →
        let v := s.sendFrame p
        let hits := v.armed (Reg.lxInject p) 3 && ((v.port p).sent != (s.port p).sent ||
          (again && ((v.port p).lane.map Prod.fst).any (· < 8)))
        (hits = false → exec (.frameSend p) s = .next v) ∧
        (∀ k w, hits = true → (v.setF (Reg.lxInject p) 3 3 0).pick 65535 = (k, w) → exec (.frameSend p) s =
          .next (w.updPort p (fun t => { t with lane := t.lane.map (fun l => (l.1, l.2.1 + BitVec.ofNat 16 (k + 1), l.2.2)) }))))) ∧
    exec (.portDown p) s = .next (s.goDown p false) ∧
    (∀ u, s.takeUnit p (ctrlUnit 0xC4 []) = some u → exec (.bye p) s = .next (u.portTo p 5)) ∧
    (∀ n u, s.takeUnit p (ctrlUnit 0xC1 (natLE 4 n)) = some u →
      exec (.lack p n) s = .next (u.updPort p (fun t => t.release n))) ∧
    (∀ n u, s.takeUnit p (ctrlUnit 0xC3 (natLE 4 n)) = some u →
      let t := u.port p
      let run := if 0 < t.lnakRun ∧ t.lnak = n then t.lnakRun + 1 else 1
      let v := u.updPort p (fun t => { t with lnak := n, lnakRun := run })
      exec (.lnak p n) s = .next (if 32 ≤ run then v.goDown p false
        else if t.past n < t.replay.length then
          (v.updPort p (fun q => { q with resend := some (t.oldest + t.past n) })).bump (Reg.lxCnt0 p) 31 16 49 1 none
        else v)) ∧
    (∀ (l : List (Nat × Nat)) u, s.takeUnit p (ctrlUnit 0xC2 (l.flatMap (fun q => natLE 4 (q.1 % 64 + q.2 % 1024 * 65536)))) = some u →
      exec (.cred p l) s = .next (u.updPort p (fun t => { t with
        used := l.foldl (fun m q => Map.put m q.1 (Map.get m q.1 0 - q.2)) t.used }))) ∧
    (∀ (system devid pport rev pm1 qm1 : Nat) (u : State),
      let unit := ctrlUnit 0xC0 (natLE 4 system ++ natLE 2 devid ++ natLE 1 pport ++ natLE 1 rev ++ natLE 1 pm1 ++ natLE 1 qm1)
      let run (t : State) : Prop := exec (.hello p system devid pport rev pm1 qm1) s = .next t
      s.takeUnit p unit = some u →
      ((u.port p).state = 4 → run u) ∧
      ((u.port p).state ≠ 4 →
        let ok := u.helloOk p (fld unit 4 4) (fld unit 8 2) (fld unit 10 1) (fld unit 12 1) (fld unit 13 1)
        (ok = true → run ((u.updPort p (fun t => { t with
          state := 4, back := 0, peer := fld unit 8 2 % 1024, pport := fld unit 10 1 % 4, used := [], txq := t.held
          held := [] })).postOwner Code.linkUp (33 + p) (natLE 2 devid ++ natLE 1 pport))) ∧
        (ok = false → run ((((u.portTo p 6).dropAll p (u.port p).held true).updPort p (fun t => { t with
          held := [], back := 0 })).postOwner Code.linkMiswired (33 + p) unit))))) ∧
  (∀ (s : State) (p : Nat), s.lxUp p = true →
    (s.image.isSome = true → s.hasRing p = true → ((s.port p).state = 1 ∨ (s.port p).state = 2 ∨ (s.port p).state = 5) →
      exec (.prbsDetect p) s = .next (s.updPort p (fun t => { t.cleared with
        state := 3, ctl := BitVec.ofNat 32 (s.reg (Reg.lxCtl p)), eq := BitVec.ofNat 32 (s.reg (Reg.lxEq p)) }))) ∧
    ((s.port p).state = 3 → s.lxOpen p = false →
      exec (.trainingDone p true) s = .next (s.updPort p (fun t => { t with ctrl := [s.helloUnit p] })) ∧
      exec (.trainingDone p false) s = .next (s.portTo p 1)) ∧
    (((s.port p).state = 1 ∨ (s.port p).state = 5) → (s.port p).held ≠ [] →
      exec (.linkWaking p) s = .next (s.updPort p (fun t => { t with
        state := 2, back := if (s.port p).back = 0 then (s.port p).state else (s.port p).back }))) ∧
    ((s.port p).back ≠ 0 → exec (.wakeLimitExpiry p) s =
      .next (((s.portTo p (s.port p).back).dropAll p (s.port p).held true).updPort p (fun t => { t with held := [], back := 0 }))))

/-- For the message that waits first in its pool at an UP port: MRD and MWR wait while their GDDR6 channel starts up;
an address that may not be reached is answered BAD_ADDRESS, a read or a partial write that finds its bytes
uncorrectable MEM_POISON, and else the read's bytes, or OK with the payload written. URD, with TU running and the
slot open, is answered LINK_FIELD, KEY_MISMATCH, BAD_ADDRESS, or by the field's sealed blocks or the read's code; it
waits while the read must. EVT raises the named shared counter of an enabled field, DIG from a replica of an enabled
group of the field is buffered and from another device ignored, either is dropped where it names none; WAKE raises
LINK. RDATA and WACK of a tag that is out end it and reach its source; of another they are dropped. A request that
stays unanswered for its port's TIMEOUT ends its tag, is counted and posted, and fails at its source with
LINK_TIMEOUT. After a tag ends, requests of TU's that wait for one are sent. (R167, R198, R352, R355, R435, R559, R560, R561, R562, R563, R660) -/
def Obligations.LinkMessagesActHere : Prop :=
  (∀ (s u : State) (p : Nat) (m : LinkMsg), s.lxUp p = true → (s.port p).state = 4 → s.takeMsg p m = some u →
    (m.typ = 0x01 → (s.dramBusy m.arg = true → exec (.mrd p m) s = .next s) ∧
      (s.dramBusy m.arg = false →
        (u.linkReach p m = none → exec (.mrd p m) s = .next (u.respond m 0x81 Code.badAddress [])) ∧
        (∀ a v r, u.linkReach p m = some a → u.linkRead a m.len = (v, r) → exec (.mrd p m) s = .next (match r with
          | none => v.respond m 0x81 Code.memPoison []
          | some bs => v.respond m 0x81 Code.ok bs)))) ∧
    (m.typ = 0x02 → (s.dramBusy m.arg = true → exec (.mwr p m) s = .next s) ∧
      (s.dramBusy m.arg = false →
        (u.linkReach p m = none → exec (.mwr p m) s = .next (u.respond m 0x82 Code.badAddress [])) ∧
        (∀ a v ok, u.linkReach p m = some a → u.linkWrite a m.payload = (v, ok) →
          exec (.mwr p m) s = .next (v.respond m 0x82 (if ok = true then Code.ok else Code.memPoison) [])))) ∧
    (m.typ = 0x03 → s.tuUp = true → s.slotWait m.field = false →
      let ua := m.arg % 2 ^ 40
      let answer (c : Nat) : Prop := exec (.urd p m) s = .next (u.respond m 0x81 c [])
      (m.own = true ∨ s.fieldRec m.field = none → answer Code.linkField) ∧
      (m.own = false → (s.fieldRec m.field).isSome = true →
        (∀ tag, s.ktag m.field = some tag → m.payload.take 4 ≠ tag → answer Code.keyMismatch) ∧
        (s.ktag m.field = none → answer Code.keyMismatch) ∧
        (s.ktag m.field = some (m.payload.take 4) →
          (ua % 64 ≠ 0 ∨ m.len % 64 ≠ 0 ∨ m.len = 0 ∨ 512 < m.len → answer Code.badAddress) ∧
          (ua % 64 = 0 → m.len % 64 = 0 → m.len ≠ 0 → m.len ≤ 512 →
            (∀ t, s.tuRead m.field ua m.len false = (t, .wait) → exec (.urd p m) s = .next t) ∧
            (∀ t r v q, s.tuRead m.field ua m.len false = (t, r) → r ≠ .wait → u.tuRead m.field ua m.len false = (v, q) →
              (∀ bs w enc, q = .done bs → v.sealBlocks m.field ua bs = (w, enc) →
                exec (.urd p m) s = .next (w.respond m 0x81 Code.ok enc)) ∧
              (∀ c, q = .code c → exec (.urd p m) s = .next (v.respond m 0x81 c []))))))) ∧
    (m.typ = 0x04 → exec (.evt p m) s = .next (if m.own = true ∨ s.fieldRec m.field = none ∨ 512 ≤ m.arg % 65536 then u.drop p 1
      else (u.raiseShared m.field (m.arg % 65536) (BitVec.ofNat 32 (m.arg / 65536))).wake)) ∧
    (m.typ = 0x05 →
      let n := m.arg % 256
      let g := s.reg (Reg.meDgrp n)
      exec (.dig p m) s = .next (if m.own = true ∨ 8 ≤ n ∨ bit g 63 = false ∨ bits g 50 48 ≠ m.field then u.drop p 1
        else if m.src ∈ s.dgrpIds n then u.bufferDigest n m.src (BitVec.ofNat 32 (m.arg / 65536)) m.payload else u)) ∧
    (m.typ = 0x06 → exec (.wake p m) s = .next (u.raiseHail 12 none)) ∧
    (m.typ = 0x81 ∨ m.typ = 0x82 → (∀ g ∈ s.lx.tags, g.tag ≠ m.tag) →
      exec (if m.typ = 0x81 then .rdata p m else .wack p m) s = .next (u.drop p 1)) ∧
    (∀ g, s.lx.tags.find? (fun g => g.tag == m.tag) = some g →
      let st := m.arg % 256
      let read (f : State → State) : Prop := exec (.rdata p m) s = .next (u.endRequest m.tag f)
      let wrote (f : State → State) : Prop := exec (.wack p m) s = .next (u.endRequest m.tag f)
      (m.typ = 0x81 →
        (∀ h i, g.use = .host h i → read (fun v => v.gatherPiece h i st m.payload)) ∧
        (∀ c off skip len, g.use = .dmaRead c off skip len → read (fun v => if st = Code.ok then v.updDmRun c (fun r =>
          if off < r.srcs.sum then { r with parts := Map.put r.parts off (slice m.payload skip len) } else r) else v.dmFail c st)) ∧
        (∀ f a, g.use = .refetch f a → read (fun v => if st = Code.ok then v.refetched f a m.payload else v.tierFailed g.use)) ∧
        (∀ f a, g.use = .tierRead f a → read (fun v => if st = Code.ok then v.farCame f a m.payload else v.tierFailed g.use))) ∧
      (m.typ = 0x82 →
        (∀ h i, g.use = .host h i → wrote (fun v => v.gatherPiece h i st [])) ∧
        (∀ c, g.use = .dma c → wrote (fun v => if st = Code.ok then v else v.dmFail c st)) ∧
        (∀ c i h r, g.use = .push c i h r → wrote (fun v => if st = Code.ok then v.wake else v.endJob c st)) ∧
        (∀ f a n, g.use = .tierWrite f a n → wrote (fun v => if st = Code.ok then v else v.tierFailed g.use))))) ∧
  (∀ (s : State) (n : Nat) (g : Tag), s.lx.tags.find? (fun g => g.tag == n) = some g → s.lxUp g.port = true →
    (s.port g.port).ctl.toNat % 65536 ≠ 0 →
    let fails (f : State → State) : Prop := exec (.linkTimeout n) s = .next (s.endRequest n (fun v =>
      f ((v.bump (Reg.lxCnt1 g.port) 15 0 48 1 none).postOwner Code.linkTimeout (33 + g.port) [])))
    (∀ h i, g.use = .host h i → fails (fun v => v.gatherPiece h i Code.linkTimeout [])) ∧
    (∀ c, (g.use = .dma c ∨ ∃ o k l, g.use = .dmaRead c o k l) → fails (fun v => v.dmFail c Code.linkTimeout)) ∧
    (∀ c i h r, g.use = .push c i h r → fails (fun v => v.endJob c Code.linkTimeout)) ∧
    (∀ f a b, (g.use = .refetch f a ∨ g.use = .tierRead f a ∨ g.use = .tierWrite f a b) → fails (fun v => v.tierFailed g.use))) ∧
  (∀ (s : State) (n : Nat) (f : State → State),
    let v := f { s with lx := { s.lx with tags := s.lx.tags.filter (fun h => h.tag != n) } }
    s.endRequest n f = v.pumpFar (v.tu.far.length + 1))

/-- With AF running, a sample decimates the bits of every read microphone, takes the next index, joins the histories
and the pre-roll ring, reaches or keeps the splice index, from there forms the clamped beam sample and counts a
clamp, and feeds the open streams; without AF nothing happens. With LO running and the frame's last sample held, slot
0's frame runs after the parity checks: with HOLD reached and no refractory it records the index, counts and raises
LO_HIT, else it keeps the run; the session's frame accepts with LO_ACCEPT, rejects and releases LO_HIT's claim, or
goes on. On a running camera port, a frame start cuts an open frame with LINK, takes up the gate's setting on its
port and latches CTL; a port then no longer running takes nothing, a frame above the rate is counted as dropped, and
else a frame opens under the next serial with the parameter block read, and is cut as a bad parameter block where
that fails. A line of an open frame that is of another type or exposure is discarded; else a parity hit cuts the
frame with that status, no room with OVERFLOW, a bad, too long, too short or surplus line with LINK, and a good one
joins its exposure and writes the rows that are ready. A frame end forms the ratios and the verdict where bands of
the frame before stand, writes the descriptors, keeps the bands, and after three equal verdicts shows them; a gate
frame with output 1 submits the gate's job. (R449, R452, R453, R456, R464, R465, R480, R483, R494, R495, R499, R501) -/
def Obligations.TheIslandListensAndTheCamerasSee : Prop :=
  (∀ (s : State) (pins : List (List Bool)),
    (s.afUp = false → exec (.afSample pins) s = .next s) ∧
    (s.afUp = true →
      let n := s.af.count
      let pdm := (List.range 8).map (fun m =>
        ((if s.micRead m then micBits pins s.pdmRatio m else []) :: (s.af.pdm[m]?).getD []).take 37)
      let x (m : Nat) : BitVec 16 := if s.micRead m then decimate s.pdmRatio ((pdm[m]?).getD []) else 0
      let hist := (List.range 8).map (fun m => (x m :: (s.af.hist[m]?).getD []).take 33)
      let u := s.check Reg.afInject Reg.afErr 0 12 none
      let reached : Option Nat := match s.af.array, s.af.splice with
        | some b, none => if b ≤ n then some b else none
        | _, b => b
      let v := { u with af := { u.af with
        count := n + 1, pdm := pdm, hist := hist, ring := Map.put u.af.ring (n % 98304) (x u.t0mic), splice := reached } }
      let y := v.check Reg.afInject Reg.afErr 1 12 none
      let c := max (-32768) (min 32767 y.beamSum)
      let z := if c = y.beamSum then y else y.bump16 Reg.afClip 1 none
      let beam := { z with af := { z.af with beam := Map.put z.af.beam (n % 16384) (BitVec.ofInt 16 c) } }
      let fed (w : State) : State := w.af.streams.foldl (fun w t =>
        let r := w.feedAll t 98304
        { r.1 with af := { r.1.af with streams := r.1.af.streams.map (fun q => if q.buf = t.buf then r.2 else q) } }) w
      (reached = none → exec (.afSample pins) s = .next (fed v).wake) ∧
      (reached.isSome = true → exec (.afSample pins) s = .next (fed beam).wake))) ∧
  (∀ (s : State) (blob : List Byte), s.lo.model0 = some blob → s.loUp = true →
    let n := (s.lo.run0.frames + 1) * loHop blob - 1
    (s.af.count ≤ n → exec .loFrame s = .next s) ∧
    (n < s.af.count →
      let u := (s.check Reg.afInject Reg.afErr 0 12 none).loChecks
      let r := u.lo.run0.take blob (u.frameSamples [] n 0 n)
      let hit := fld blob 16 1 ≤ r.high ∧ (∀ k, r.since = some k → fld blob 17 1 < k)
      (hit → exec .loFrame s = .next (((({ u with lo := { u.lo with run0 := { r with since := some 0 } } }).setReg Reg.loHit0
        (n % 4294967296)).bump Reg.loCnt 15 0 48 1 none).raiseHail 0 (some n))) ∧
      (¬ hit → exec .loFrame s = .next { u with lo := { u.lo with run0 := r } }))) ∧
  (∀ (s : State) (q : LoRun) (blob : List Byte), s.lo.session = some q → s.lo.model1 = some blob → s.loUp = true →
    let n := q.start + (q.frames + 1) * loHop blob - 1
    (s.af.count ≤ n → exec .loSessionFrame s = .next s) ∧
    (n < s.af.count →
      let u := s.ringChecks.loChecks
      let r := q.take blob (u.frameSamples q.kept q.anchor q.start n)
      let ended := { u with lo := { u.lo with session := none } }
      (fld blob 16 1 ≤ r.high → exec .loSessionFrame s =
        .next (((ended.setReg Reg.loHit1 (n % 4294967296)).bump Reg.loCnt 31 16 49 1 none).raiseHail 1 (some n))) ∧
      (r.high < fld blob 16 1 → (fld blob 16 1 ≤ r.low ∨ fld blob 18 2 ≤ r.frames) → exec .loSessionFrame s =
        .next ((ended.bump Reg.loCnt 47 32 50 1 none).releaseHail 0)) ∧
      (r.high < fld blob 16 1 → r.low < fld blob 16 1 → r.frames < fld blob 18 2 → exec .loSessionFrame s =
        .next { u with lo := { u.lo with session := some r } }))) ∧
  (∀ (s : State) (p num us : Nat), s.ipUp = true → p < 4 → (s.camera p).running = true →
    let t := s.cutFrame p 2
    let u := ((if t.visionGate && t.gateCam == p then t.takeGate else t).updCamera p (fun q =>
      { q with ctl := BitVec.ofNat 32 ((if t.visionGate && t.gateCam == p then t.takeGate else t).reg (Reg.ipPortCTL p)) })).settleCameras
    let slow := u.cameraRate p = 0 ∨ (u.camera p).admitted = false ∨ 625000000 * 15 / (16 * u.cameraRate p) ≤ us
    ((u.camera p).running = false → exec (.csiFrameStart p num us) s = .next u) ∧
    ((u.camera p).running = true → ¬ slow →
      exec (.csiFrameStart p num us) s = .next (u.bump (Reg.ipPortCNT0 p) 47 32 49 1 none)) ∧
    ((u.camera p).running = true → slow →
      let v := u.bump (Reg.ipPortCNT0 p) 31 0 48 1 none
      let a := v.getF (Reg.ipPortPARAM p) 21 0 * 64
      ∀ w got, (if v.part.scratch.holds a 1024 then v.ipRead a 1024 else (v, none)) = (w, got) →
        let b := got.getD (List.replicate 1024 0)
        let f : Frame := ⟨num, (u.camera p).serial, b, [[], [], []], (0, 0)⟩
        let z := w.updCamera p (fun q => { q with admitted := true, frame := some f, serial := q.serial + 1 })
        (z.paramOk b = true → exec (.csiFrameStart p num us) s = .next z) ∧
        (z.paramOk b = false → exec (.csiFrameStart p num us) s = .next (z.cutFrame p 3)))) ∧
  (∀ (s : State) (p vc dtype : Nat) (full good : Bool) (px : List Nat) (f : Frame), (s.camera p).frame = some f → s.ipUp = true →
    let run (t : State) : Prop := exec (.csiLine p vc dtype full good px) s = .next t
    ((dtype ≠ fld f.params 2 1 ∨ pbExposures f.params ≤ vc) → run s) ∧
    (dtype = fld f.params 2 1 → vc < pbExposures f.params →
      let u := (s.check Reg.ipInject Reg.ipErr 0 11 none).check Reg.ipInject Reg.ipErr 1 11 none
      let hit := s.armed Reg.ipInject 0 || s.armed Reg.ipInject 1
      let bad := good = false ∨ px.length ≠ pbWidth f.params ∨ pbHeight f.params ≤ ((f.lines[vc]?).getD []).length
      (hit = true → run (u.cutFrame p 5)) ∧
      (hit = false → full = true → run (u.cutFrame p 1)) ∧
      (hit = false → full = false → bad → run (u.cutFrame p 2)) ∧
      (hit = false → full = false → ¬ bad →
        let g := { f with lines := listUpd f.lines vc (fun l => l ++ [px.map (fun c => c % 2 ^ codeBits dtype)]) }
        let a := OutRec.of g.params 0
        let b := OutRec.of g.params 1
        run (((u.writeRows g a g.written.1).writeRows g b g.written.2).updCamera p (fun q =>
          { q with frame := some { g with written := (g.ready a, g.ready b) } }))))) ∧
  (∀ (s : State) (p line : Nat) (f : Frame), (s.camera p).frame = some f → s.ipUp = true →
    let done (t : State) (a b verdict : Nat) : State :=
      let u := t.endOutputs p f 0 line a b verdict
      let vs := if verdict = 0xFF then (u.camera p).verdicts else (verdict :: (u.camera p).verdicts).take 3
      let v := u.updCamera p (fun q => { q with frame := none, bands := some f.bands, verdicts := vs })
      let w := if vs.length = 3 ∧ vs.all (fun k => k == vs.head?.getD 0) then
        v.setF (Reg.ipPortSTATUS p) 1 0 (vs.head?.getD 0) else v
      (if w.gates p ∧ (OutRec.of f.params 1).en then w.submitGate f.serial else w).settleCameras
    ((s.camera p).bands = none →
      exec (.frameComplete p line) s = .next (done s.noFlicker.1 s.noFlicker.2.1 s.noFlicker.2.2 0xFF)) ∧
    (∀ before t u a b, (s.camera p).bands = some before →
      s.nearRatio (flickerRatio 100 f.bands before line (pbHeight f.params)) = (t, a) →
      t.nearRatio (flickerRatio 120 f.bands before line (pbHeight f.params)) = (u, b) →
      exec (.frameComplete p line) s = .next (done u a b (flickerVerdict a b (fld f.params 46 2)))))

/-- With PW running and the clocks present: an expired idle timer of a quiet rung above every claim starts the entry
into the next rung, saving what Nap drops where that rung is Nap, and otherwise changes nothing. Of an entry, an open
window ends with the device on the lower rung; before it a set latch is sampled, a standing rung that is not lower or
a save in progress holds it, and else it opens; before the window a claim no longer below the rung abandons the entry
and is counted. A climb step toward a standing claim raises the device one rung, where the clock and the image it
needs are there. A zeroed bank leaves the list. TIMER is raised where the record has a wake time. A low WAKE_N sample
clears the latch and raises HOST, and an edge sets it, outside a window; an edge in a window is lost and counted. An
enabled wake pattern on a stopped port raises LINK, or in a window is lost and counted. A power sample moves level,
budget and quiet count by R533 and posts POWER_LIMIT as the level leaves 0 and THERMAL as 105 degrees is passed;
telemetry shows the averages. (R514, R516, R518, R519, R522, R524, R525, R527, R529, R530, R533, R534) -/
def Obligations.TheLadderIsDescendedAndClimbed : Prop :=
  (∀ (s : State) (r : Rung), s.pw.rung.below = some r →
    let starts := s.pwUp = true ∧ s.ck.stopped = false ∧ s.ck.gaveUp = false ∧ s.pw.entry = none ∧
      s.standing.height < s.pw.rung.height ∧ s.quietFor = true ∧ (s.image.isSome = true → s.idleTime ≠ 0xFFFFFFFF) ∧
      (r = .fallow → s.getF Reg.ckStatus 28 28 ≠ 0)
    let u := { s with pw := { s.pw with entry := some r } }
    (starts → exec .idleTimerExpiry s = .next (if r = .nap then u.napSave else u)) ∧
    (¬ starts → exec .idleTimerExpiry s = .next s)) ∧
  (∀ (s : State) (r : Rung), s.pw.entry = some r → s.pwUp = true →
    (s.ck.stopped = false → s.ck.gaveUp = false →
      (s.pw.window = true → exec .entryWindow s = .next (s.enter r)) ∧
      (s.pw.window = false → s.pw.latch = true → exec .entryWindow s = .next s.sampleLatch) ∧
      (s.pw.window = false → s.pw.latch = false →
        let held := s.pw.rung.height ≤ s.standing.height ∨ (r = .nap ∧ s.saved = false)
        (held → exec .entryWindow s = .next s) ∧
        (¬ held → exec .entryWindow s = .next { s with pw := { s.pw with window := true } }))) ∧
    (s.pw.window = false → s.pw.rung.height ≤ s.standing.height →
      exec .entryAbandon s = .next (({ s with pw := { s.pw with entry := none } }).bumpPw 31 16 49))) ∧
  (∀ (s : State) (r : Rung), s.pw.rung.above = some r → s.pwUp = true → s.pw.entry = none → s.pw.rung.height < s.standing.height →
    s.ck.gaveUp = false → (s.ck.stopped = true → r = .moor ∨ r = .listen) → (r = .doze → s.image.isSome = true) →
    exec .climbStep s = .next (s.climbTo r).standClaims) ∧
  (∀ (s : State) (b : Nat), s.coreUp = true → s.pw.zeroing.contains b = true →
    exec (.bankZeroed b) s = .next { s with pw := { s.pw with zeroing := s.pw.zeroing.filter (fun c => c != b) } }) ∧
  (∀ (s : State), s.pwUp = true →
    (∀ p, s.pw.island.map Prod.fst = some p → s.pw.wakeTimer = true → p.wakeTimer ≠ 0 → s.getF Reg.ckStatus 29 29 = 1 →
      exec .wakeTimer s = .next (s.raiseHail 13 none)) ∧
    (s.pw.window = false →
      exec .wakeNLow s = .next (({ s with pw := { s.pw with latch := false } }).raiseHost) ∧
      exec .wakeNEdge s = .next { s with pw := { s.pw with latch := true } }) ∧
    (s.pw.window = true → exec .wakeNLow s = .next s ∧ exec .wakeNEdge s = .next (s.bumpPw 47 32 48)) ∧
    (∀ q, q < 4 → s.getF Reg.pwLinkwake q q ≠ 0 →
      (s.pw.rung.height < Rung.height .doze ∨ (s.pw.window = true ∧ s.pw.entry = some .nap)) →
      exec (.wakePattern q) s = .next (if s.pw.window then s.bumpPw 47 32 48 else s.raiseHail 12 none))) ∧
  (∀ (s : State) (mw : Nat) (tj : Int), s.pwUp = true → s.islandUp = true →
    let n := derateNext s.pw.level s.pw.budget s.pw.quiet s.powerCap mw tj
    let u := { s with pw := { s.pw with level := n.1, budget := n.2.1, quiet := n.2.2, hot := decide (105 < tj) } }
    let v := if s.pw.level = 0 ∧ 0 < n.1 then u.postPw Code.powerLimit 0xFF [] else u
    (105 < tj → s.pw.hot = false → exec (.powerSample mw tj) s = .next (v.postPw Code.thermal 0xFF [])) ∧
    (tj ≤ 105 ∨ s.pw.hot = true → exec (.powerSample mw tj) s = .next v)) ∧
  (∀ (s : State) (mw : Nat) (tj : Int), s.coreUp = true → exec (.telemUpdate mw tj) s =
    .next ((s.setF Reg.sxTelem 8 0 (min 511 (mw / 250))).setF Reg.sxTelem 23 16 (min 255 (tj.toNat / 5))))

/-- A cold boot leaves the reset state but for the fuses, the queue and the free-value counter, and posts BOOTED; a
low RESET_N leaves the same with the host port dead. The boot out of Fallow, once the climb has come to Nap without
an image, stands on Doze, clears PW.CNT, posts BOOTED and what PW held. A rail condition sets its PW.ERR bit and
pulses source 41. A watched clock that is present and lost is marked absent: the root PLL or REFCLK stops the clocked
domains, ICLK stops AF with a pulse, LCLK sends a pulse. A relock restarts the domains and the round, is counted and
pulsed, and after a long stop with GDDR6 fitted its stores are dropped and its bytes take free values (the model's
choice, log 38); a failed attempt changes nothing; giving up keeps the device stopped; a clock is present again when
found. A GDDR6 start-up stage that ends leads to the next, stages 3 to 5 with their failed channels; the last, after
zeroing on a full start-up, posts MEM_READY. (R535, R655, R656, R660, R661, R680, R681, R682) -/
def Obligations.BootsClocksAndRails : Prop :=
  (∀ s : State,
    let bare := { State.reset with
      pending := s.pending
      sx := { SxState.reset with owners := s.sx.owners, tallyUsed := s.sx.tallyUsed, tallyBurnt := s.sx.tallyBurnt }
      free := s.free }
    let u := bare.postOwner Code.booted 40 (natLE 1 0x10 ++ natLE 1 0)
    exec (.coldBoot false) s = .next u ∧ exec .resetNLow s = .next { u with resetLow := true, hp := HpState.reset }) ∧
  (∀ s : State, s.pwUp = true → s.pw.rung = .nap → s.image = none → s.ck.stopped = false → s.ck.gaveUp = false →
    let u := ({ s with pw := { s.pw with rung := .doze } }).setReg Reg.pwCnt 0
    exec (.coldBoot true) s = .next ((u.postOwner Code.booted 40 (natLE 1 0x10 ++ natLE 1 1)).postHeld.settle.standClaims)) ∧
  (∀ (s : State) (k : Nat), s.pwUp = true → k < 5 → exec (.railDroop k) s = .next (s.detect Reg.pwErr k 41 none)) ∧
  (∀ (s : State) (k : Nat), s.resetLow = false → s.ck.gaveUp = false → k < 4 → s.clockWatched k = true →
    s.getF Reg.ckStatus (31 - k) (31 - k) ≠ 0 → (k ≤ 1 → s.ck.stopped = false) →
    let u := s.setF Reg.ckErr k k 1
    (k ≤ 1 → exec (.clockLoss k) s = .next ((u.setF Reg.ckStatus (31 - k) (31 - k) 0).stopClocks)) ∧
    (k = 2 → exec (.clockLoss k) s = .next (((u.setF Reg.ckStatus 29 29 0).stopAf).pulse 42 none)) ∧
    (k = 3 → exec (.clockLoss k) s = .next ((u.setF Reg.ckStatus 28 28 0).pulse 42 none))) ∧
  (∀ (s : State), s.ck.stopped = true →
    (s.ck.gaveUp = false → s.resetLow = false →
      let u := (((({ s with ck := { s.ck with stopped := false } }).setF Reg.ckStatus 31 30 3).bump16 Reg.ckCnt 1 none).pulse 42
        none).restartRound
      exec (.relockAttempt true false) s = .next u ∧
      (u.dramBytes = 0 → exec (.relockAttempt true true) s = .next u) ∧
      (u.dramBytes ≠ 0 → exec (.relockAttempt true true) s = .next (u.dropDram.lapseDram.setF Reg.pwLast 49 49 1))) ∧
    (∀ long, exec (.relockAttempt false long) s = .next s) ∧
    exec .relockGiveUp s = .next { s with ck := { s.ck with gaveUp := true } }) ∧
  (∀ (s : State) (k : Nat), k = 2 ∨ k = 3 → s.resetLow = false →
    exec (.clockPresent k) s = .next (s.setF Reg.ckStatus (31 - k) (31 - k) 1)) ∧
  (∀ (s : State) (k fail us : Nat) (full : Bool), s.mcStage = some (k, full) → s.coreUp = true → s.inReset 15 = false →
    let u := if 3 ≤ k ∧ k ≤ 5 then s.failChannels fail else s
    (k ≠ 7 → (k ≠ 6 ∨ full = true) → exec (.dramStartupStage fail us) s = .next { u with mcStage := some (k + 1, full) }) ∧
    (k = 6 → full = false → exec (.dramStartupStage fail us) s = .next (s.memReady us)) ∧
    (k = 7 → exec (.dramStartupStage fail us) s = .next ((s.zero 0x100000000 s.dramBytes).memReady us))) ∧
  (∀ (s : State) (us : Nat),
    let failed := s.getF Reg.mcTstat 47 32
    let ok := s.fitted &&& (0xFFFF ^^^ failed)
    s.memReady us = ((({ s with mcStage := none }).setF Reg.mcTstat 31 16 ok).setReg Reg.mcTtime (us % 4294967296)).postOwner
      Code.memReady 15 (natLE 2 ok ++ natLE 2 failed))

/-- With the core up: the waiting pulses are latched in ascending order and their reactions applied together, a pulse
of a sounding's engine naming no step and failing the sounding. A pulse that brings the safe state brings it alone,
locked where bit 63 is among them. A block whose reset ends leaves the list of blocks in reset; SE's then retries
waiting streams, and HP's posts BLOCK_RESET. A field reset whose contexts are all closed and whose runs have ended is
over. A fired waypoint latches the state of its blocks, clears BUSY and posts. With HP running, each destination's
lost events, in the order held, are posted as EVENTS_LOST with their number where the outbound queue has room, and
are then no longer held. (R606, R609, R612, R614, R616, R617, R618, R623, R628, R651, R652) -/
def Obligations.FaultsAreCollectedAndReset : Prop :=
  (∀ s : State, s.coreUp = true → s.fc.pulses ≠ [] →
    let ps := s.fc.pulses.foldl (fun l (p : Pulse) => insertPulse { p with step := p.step.filter (fun n => n.1 != 0xFFFF) } l) []
    let u := { s with fc := { s.fc with pulses := [] } }
    let sounds := ∃ r ∈ s.sd.run, ∃ p ∈ s.fc.pulses, p.bit = r.2.1 ∧ ∃ n ∈ p.step, n.1 = 0xFFFF
    (¬ sounds → exec .faultPulse s = .next ((ps.foldl State.latch u.fcUpdate).react ps)) ∧
    (sounds → exec .faultPulse s =
      .next ((ps.foldl State.latch (({ u with sd := { u.sd with failed := true } }).fcUpdate)).react ps))) ∧
  (∀ (s : State) (ps : List Pulse) (p : Pulse), ps.find? s.bringsSafe = some p →
    s.react ps = if ps.any (fun q => q.bit == 63) then (s.enterSafe p.bit).setF Reg.fcSafe 30 30 1 else s.enterSafe p.bit) ∧
  (∀ (s : State) (b : Nat), s.inReset b = true → s.coreUp = true →
    let u := { s with fc := { s.fc with resets := s.fc.resets.filter (fun c => c != b) } }
    (b ≠ 40 → b ≠ 7 → exec (.blockResetDone b) s = .next u) ∧
    (b = 7 → exec (.blockResetDone b) s = .next u.retryStreams) ∧
    (b = 40 → exec (.blockResetDone b) s = .next (u.postOwner Code.blockReset 40 (natLE 1 40)))) ∧
  (∀ (s : State) (f : Nat), s.fc.fieldReset = some f → s.coreUp = true →
    let isOver := (∀ p ∈ s.dx.ctxs, p.2.field ≠ f) ∧ s.fieldRuns f = false
    (isOver → exec .fieldResetDone s = .next { s with fc := { s.fc with fieldReset := none } }) ∧
    (¬ isOver → exec .fieldResetDone s = .next s)) ∧
  (∀ s : State, s.coreUp = true → s.getF Reg.wpStatus 30 30 = 1 →
    let u := snapBlocks.foldl State.snap (s.setReg Reg.wpMissing 0)
    exec .waypoint s = .next ((u.setF Reg.wpStatus 30 30 0).postOwner Code.waypoint 63
      (natLE 4 (u.reg Reg.wpTrig) ++ natLE 1 (u.getF Reg.wpStatus 6 0) ++ natLE 8 (u.reg Reg.wpMissing)))) ∧
  (∀ (s : State), s.hpUp = true → exec .eventsLost s = .next (s.hp.lost.foldl (fun u p =>
    if u.outUsed + 64 ≤ 188416 then
      ({ u with hp := { u.hp with lost := Map.del u.hp.lost p.1 } }).post Code.eventsLost 40 p.1 (natLE 4 p.2)
    else u) s))

/-- For each command that storesNothing lists (the host port's four transfers, ECHO, the register reads, HAIL,
KEY_DROP, CTX_OPEN, CTX_RESUME, JOB_SUBMIT, JOB_ABORT and the COUNTER messages; the single-word commands of a tape
but TRIGGER; the ends of waits and fences; job starts, switches, replays and completions; the quantum's expiry): when
it answers a next state, every byte of memory reads as it read before. (R149, R157, R163, R166, R169, R419, R421, R636, R638, R644, R648) -/
def Obligations.CommandsThatStoreNothing : Prop :=
  ∀ (i : Instr) (s t : State), i.storesNothing = true → exec i s = .next t → ∀ a, t.byte a = s.byte a

/-- Whenever a field takes a frame from the free list, the field has a record, held fewer frames than its FRAME_LIMIT
before, holds no more than FRAME_LIMIT after, and the free list, which was not empty, is one frame shorter. Memory is
unchanged. (R245, R246) -/
def Obligations.NoFieldTakesBeyondItsFrameLimit : Prop :=
  ∀ (s t : State) (f fr : Nat), s.takeFrame f = some (fr, t) →
    ∃ r, s.fieldRec f = some r ∧ s.heldFrames f < r.frameLimit ∧ t.heldFrames f ≤ r.frameLimit ∧ t.km.free + 1 = s.km.free ∧
      t.mem = s.mem
end

