-- ==== Sys2Proof/Laws/Crypto.lean ====
section
/-!
SUPPORT. Lengths of what the standard functions return, and that GCM opens what it seals (R579, R592).
-/
namespace Sys2Proof.Machine

/-! ### Slices -/

theorem slice_append_left {α : Type} (a b : List α) (i n : Nat) (h : i + n ≤ a.length) : slice (a ++ b) i n = slice a i n := by
  unfold slice
  rw [List.drop_append_of_le_length (by omega), List.take_append_of_le_length (by rw [List.length_drop]; omega)]

theorem slice_append_right {α : Type} (a b : List α) (i n : Nat) : slice (a ++ b) (a.length + i) n = slice b i n := by
  unfold slice
  rw [List.drop_length_add_append]

theorem slice_all {α : Type} (a : List α) : slice a 0 a.length = a := by
  simp [slice]

theorem chunksOf_get {α : Type} (n : Nat) : ∀ (fuel : Nat) (l : List α) (i : Nat), i < fuel → i * n < l.length →
    (chunksOf n fuel l)[i]? = some (slice l (i * n) n)
  | 0, _, _, h, _ => by omega
  | fuel + 1, l, i, h, hl => by
    have hne : l.isEmpty = false := by cases l <;> simp at hl ⊢
    cases i with
    | zero => simp [chunksOf, hne, slice]
    | succ i =>
      have hm : (i + 1) * n = n + i * n := by rw [Nat.add_mul]; omega
      rw [hm] at hl ⊢
      simp only [chunksOf, hne, Bool.false_eq_true, if_false, List.getElem?_cons_succ]
      rw [chunksOf_get n fuel (l.drop n) i (by omega) (by rw [List.length_drop]; omega)]
      simp [slice, List.drop_drop]

theorem chunksOf_length_le {α : Type} (n : Nat) : ∀ (fuel : Nat) (l : List α), (chunksOf n fuel l).length ≤ fuel
  | 0, _ => by simp [chunksOf]
  | fuel + 1, l => by
    have ih := chunksOf_length_le n fuel (l.drop n)
    rw [chunksOf]
    split
    · simp
    · simpa using ih

/-! ### SHA-256 -/

@[simp] theorem natLE_length (n v : Nat) : (natLE n v).length = n := by
  induction n generalizing v with
  | zero => rfl
  | succ n ih => simp [natLE, ih]

@[simp] theorem natBE_length (n v : Nat) : (natBE n v).length = n := by simp [natBE]

theorem shaRounds_length (l : List W32) : ∀ v : List W32, v.length = 8 → (l.foldl shaRound v).length = 8 := by
  induction l with
  | nil => exact fun v h => h
  | cons a l ih => exact fun v _ => ih _ rfl

theorem shaBlock_length (h : List W32) (b : List Byte) (hh : h.length = 8) : (shaBlock h b).length = 8 := by
  simp only [shaBlock, List.length_zipWith, shaRounds_length _ h hh, hh, Nat.min_self]

@[simp] theorem sha256_length (bs : List Byte) : (sha256 bs).length = 32 := by
  have key : ∀ (l : List (List Byte)) (h : List W32), h.length = 8 → (l.foldl shaBlock h).length = 8 := by
    intro l
    induction l with
    | nil => exact fun h hh => hh
    | cons a l ih => exact fun h hh => ih _ (shaBlock_length h a hh)
  simp only [sha256, List.length_flatMap, natBE_length, List.map_const', List.sum_replicate_nat, key _ shaH rfl]

/-- A Merkle root over a path of at least one node is a digest (RFC 8554). -/
theorem lmsRoot_length (i : List Byte) : ∀ (path : List (List Byte)) (node : Nat) (x : List Byte), path ≠ [] →
    (lmsRoot i node x path).length = 32
  | [], _, _, h => absurd rfl h
  | [a], _, _, _ => by simp only [lmsRoot, sha256_length]
  | a :: b :: l, node, x, _ => by
    rw [lmsRoot]
    exact lmsRoot_length i (b :: l) _ _ (by simp)

/-- A signature of the right types and length whose path leads to the public root verifies (RFC 8554). -/
theorem lmsVerify_of_root {pub sig msg : List Byte} {h w p : Nat} (hh : lmsHeight (beNat (slice pub 0 4)) = some h)
    (ho : otsParams (beNat (slice pub 4 4)) = some (w, p)) (hl : sig.length = 4 + 4 + 32 + 32 * p + 4 + 32 * h)
    (hq : beNat (slice sig 0 4) < 2 ^ h) (t4 : slice sig 4 4 = slice pub 4 4)
    (t0 : slice sig (4 + 4 + 32 + 32 * p) 4 = slice pub 0 4)
    (hr : lmsRoot (slice pub 8 16) (2 ^ h + beNat (slice sig 0 4))
      (sha256 (slice pub 8 16 ++ natBE 4 (2 ^ h + beNat (slice sig 0 4)) ++ [0x82, 0x82] ++
        otsCandidate w p (slice pub 8 16) (beNat (slice sig 0 4)) (slice sig 8 32) (chunksOf 32 p (slice sig 40 (32 * p))) msg))
      (chunksOf 32 h (slice sig (4 + 4 + 32 + 32 * p + 4) (32 * h))) = slice pub 24 32) : lmsVerify pub sig msg = true := by
  simp only [lmsVerify, hh, ho, hr, hl, hq, t4, t0, decide_true, beq_self_eq_true, Bool.and_self]

/-- With one level, HSS verification is LMS verification (R113). -/
theorem hssVerify_one {pub sig msg : List Byte} (hp : pub.length = 60) (h1 : beNat (slice pub 0 4) = 1)
    (h0 : beNat (slice sig 0 4) = 0) : hssVerify pub sig msg = lmsVerify (slice pub 4 56) (sig.drop 4) msg := by
  simp [hssVerify, hp, h1, h0]

/-! ### AES-256 and GCM -/

theorem aesExpand_words : ∀ (n : Nat) (ws : List (List Byte)) (i : Nat) (rcon : Byte), (∀ w ∈ ws, w.length = 4) → 8 ≤ ws.length →
    (∀ w ∈ aesExpand ws i rcon n, w.length = 4) ∧ (aesExpand ws i rcon n).length = ws.length + n
  | 0, _, _, _, h, _ => ⟨h, rfl⟩
  | n + 1, ws, i, rcon, h, hl => by
    have h0 : ((ws[0]?).getD []).length = 4 := by
      rw [List.getElem?_eq_getElem (by omega), Option.getD_some]
      exact h _ (List.getElem_mem _)
    have h7 : ((ws[7]?).getD []).length = 4 := by
      rw [List.getElem?_eq_getElem (by omega), Option.getD_some]
      exact h _ (List.getElem_mem _)
    rw [aesExpand]
    refine (fun p => ⟨p.1, p.2.trans (by simp; omega)⟩) (aesExpand_words n _ (i + 1) _ ?_ ?_)
    · intro w hw
      rcases List.mem_cons.mp hw with rfl | hw
      · simp only [xorBytes, List.length_zipWith, h7]
        split
        · simp [h0]
        · split <;> simp [h0]
      · exact h w hw
    · simp; omega

/-- The last round key of a 32-byte key has 16 bytes. -/
theorem aesKeys_last (key : List Byte) (hk : key.length = 32) : (((aesKeys key)[14]?).getD []).length = 16 := by
  have hle := chunksOf_length_le 4 8 key
  have hge : 8 ≤ (chunksOf 4 8 key).length :=
    (List.getElem?_eq_some_iff.mp (chunksOf_get 4 8 key 7 (by omega) (by omega))).1
  have hl : (chunksOf 4 8 key).length = 8 := by omega
  have hc : ∀ w ∈ (chunksOf 4 8 key).reverse, w.length = 4 := by
    intro w hw
    obtain ⟨i, hi⟩ := List.mem_iff_getElem?.mp (List.mem_reverse.mp hw)
    have hlt := (List.getElem?_eq_some_iff.mp hi).1
    rw [chunksOf_get 4 8 key i (by omega) (by omega)] at hi
    rw [← Option.some.inj hi]
    simp only [slice, List.length_take, List.length_drop]
    omega
  obtain ⟨hw, hn⟩ := aesExpand_words 52 (chunksOf 4 8 key).reverse 8 1 hc (by simp [hl])
  have hn' : (aesExpand (chunksOf 4 8 key).reverse 8 1 52).reverse.length = 60 := by
    rw [List.length_reverse, hn, List.length_reverse, hl]
  have hg := chunksOf_get 4 15 (aesExpand (chunksOf 4 8 key).reverse 8 1 52).reverse 14 (by omega) (by omega)
  simp only [aesKeys, List.getElem?_map, hg, Option.map_some, Option.getD_some]
  have hs : (slice (aesExpand (chunksOf 4 8 key).reverse 8 1 52).reverse (14 * 4) 4).length = 4 := by
    simp only [slice, List.length_take, List.length_drop, hn']
    omega
  have ha : ∀ w ∈ slice (aesExpand (chunksOf 4 8 key).reverse 8 1 52).reverse (14 * 4) 4, w.length = 4 := fun w h =>
    hw w (List.mem_reverse.mp (List.drop_subset _ _ (List.take_subset _ _ h)))
  rw [List.length_flatten, List.map_congr_left ha, List.map_const', hs, List.sum_replicate_nat]

theorem aesBlock_length (ks : List (List Byte)) (b : List Byte) (h : ((ks[14]?).getD []).length = 16) :
    (aesBlock ks b).length = 16 := by
  simp [aesBlock, xorBytes, shiftRows, h]

theorem gcmStream_length (ks : List (List Byte)) (nonce : List Byte) (h : ((ks[14]?).getD []).length = 16) (n : Nat) :
    ((List.range n).flatMap (fun i => aesBlock ks (nonce ++ natBE 4 (i + 2)))).length = 16 * n := by
  simp only [List.length_flatMap, aesBlock_length _ _ h, List.map_const', List.sum_replicate_nat, List.length_range, Nat.mul_comm]

theorem gcmCtr_length (ks : List (List Byte)) (nonce data : List Byte) (h : ((ks[14]?).getD []).length = 16) :
    (gcmCtr ks nonce data).length = data.length := by
  simp only [gcmCtr, xorBytes, List.length_zipWith, gcmStream_length ks nonce h, ceilDiv]
  omega

theorem xorBytes_twice : ∀ (a k : List Byte), a.length ≤ k.length → xorBytes (xorBytes a k) k = a
  | [], _, _ => by simp [xorBytes]
  | a :: l, [], h => by simp at h
  | a :: l, k :: ks, h => by
    have ih := xorBytes_twice l ks (by simpa using h)
    simp only [xorBytes] at ih
    simp [xorBytes, ih, BitVec.xor_assoc]

/-- Counter mode undoes itself. -/
theorem gcmCtr_twice (ks : List (List Byte)) (nonce data : List Byte) (h : ((ks[14]?).getD []).length = 16) :
    gcmCtr ks nonce (gcmCtr ks nonce data) = data := by
  have hl := gcmCtr_length ks nonce data h
  have hx : gcmCtr ks nonce (gcmCtr ks nonce data) = xorBytes (gcmCtr ks nonce data) ((List.range (ceilDiv data.length 16)).flatMap
      (fun i => aesBlock ks (nonce ++ natBE 4 (i + 2)))) := by rw [gcmCtr, hl]
  rw [hx]
  refine xorBytes_twice data _ ?_
  rw [gcmStream_length ks nonce h, ceilDiv]
  omega

theorem gcmTag_length (ks : List (List Byte)) (nonce aad ct : List Byte) (h : ((ks[14]?).getD []).length = 16) :
    (gcmTag ks nonce aad ct).length = 16 := by
  simp [gcmTag, xorBytes, aesBlock_length _ _ h]

/-- What GCM sealed opens to the data that was sealed (R579, R592). -/
theorem gcmOpen_gcmSeal (key nonce aad data : List Byte) (hk : key.length = 32) :
    gcmOpen key nonce aad (gcmSeal key nonce aad data).1 (gcmSeal key nonce aad data).2 = some data := by
  simp only [gcmOpen, gcmSeal, if_true, gcmCtr_twice _ _ _ (aesKeys_last key hk)]

end Sys2Proof.Machine
end

