-- ==== Sys2Proof/Laws/Memory.lean ====
section
/-!
SUPPORT. Memory: the canonical form and what keeps it, and a byte read after a write, a zeroing or a copy.
-/
namespace Sys2Proof.Machine

/-! ### The canonical form -/

/-- The canonical form as two plain facts: addresses strictly rise, and no entry is 0x00. -/
theorem Memory.wf_iff (m : List Host.Cell) :
    Memory.wf m = true ↔ m.Pairwise (fun c d => c.1 < d.1) ∧ ∀ c ∈ m, c.2 ≠ 0 := by
  induction m with
  | nil => simp [Memory.wf]
  | cons c m ih =>
    cases m with
    | nil => simp [Memory.wf]
    | cons d m =>
      simp only [Memory.wf, Bool.and_eq_true, bne_iff_ne, decide_eq_true_eq, List.pairwise_cons, List.mem_cons,
        forall_eq_or_imp] at ih ⊢
      constructor
      · rintro ⟨⟨h0, h1⟩, h2⟩
        obtain ⟨⟨h3, h4⟩, h5⟩ := ih.1 h2
        exact ⟨⟨⟨h1, fun x hx => Nat.lt_trans h1 (h3 x hx)⟩, h3, h4⟩, h0, h5⟩
      · rintro ⟨⟨⟨h1, _⟩, h3, h4⟩, h0, h5⟩
        exact ⟨⟨h0, h1⟩, ih.2 ⟨⟨h3, h4⟩, h5⟩⟩

/-- Part of a canonical memory is canonical. -/
theorem Memory.wf_filter {m : List Host.Cell} (f : Host.Cell → Bool) (h : Memory.wf m = true) :
    Memory.wf (m.filter f) = true := by
  rw [Memory.wf_iff] at h ⊢
  exact ⟨h.1.filter f, fun c hc => h.2 c ((List.mem_filter.1 hc).1)⟩

/-- Canonical cells placed where they lie leave memory canonical. -/
theorem memPlace_wf {m cells : List Host.Cell} {a n : Nat} (h : Memory.wf m = true) (hc : Memory.wf cells = true)
    (hr : ∀ c ∈ cells, a ≤ c.1 ∧ c.1 < a + n) : Memory.wf (memPlace m a n cells) = true := by
  rw [Memory.wf_iff] at h hc ⊢
  unfold memPlace
  refine ⟨?_, ?_⟩
  · rw [List.pairwise_append, List.pairwise_append]
    refine ⟨⟨h.1.filter _, hc.1, ?_⟩, h.1.filter _, ?_⟩
    · intro x hx y hy
      have h1 := (List.mem_filter.1 hx).2
      have h2 := hr y hy
      simp only [decide_eq_true_eq] at h1
      omega
    · intro x hx y hy
      have h2 := (List.mem_filter.1 hy).2
      simp only [decide_eq_true_eq] at h2
      rcases List.mem_append.1 hx with hx | hx
      · have h1 := (List.mem_filter.1 hx).2
        simp only [decide_eq_true_eq] at h1
        omega
      · have h1 := hr x hx
        omega
  · intro c hc'
    rcases List.mem_append.1 hc' with hx | hx
    · rcases List.mem_append.1 hx with hx | hx
      · exact h.2 c ((List.mem_filter.1 hx).1)
      · exact hc.2 c hx
    · exact h.2 c ((List.mem_filter.1 hx).1)

/-- The cells of bytes lie in their range. -/
theorem memCells_range (a : Nat) (bs : List Byte) : ∀ c ∈ memCells a bs, a ≤ c.1 ∧ c.1 < a + bs.length := by
  induction bs generalizing a with
  | nil => simp [memCells]
  | cons b bs ih =>
    intro c hc
    have hl : (b :: bs).length = bs.length + 1 := rfl
    unfold memCells at hc
    split at hc
    · have := ih (a + 1) c hc
      omega
    · rcases List.mem_cons.1 hc with rfl | hc
      · exact ⟨Nat.le_refl _, by omega⟩
      · have := ih (a + 1) c hc
        omega

/-- The cells of bytes are canonical. -/
theorem memCells_wf (a : Nat) (bs : List Byte) : Memory.wf (memCells a bs) = true := by
  induction bs generalizing a with
  | nil => rfl
  | cons b bs ih =>
    unfold memCells
    split
    · exact ih (a + 1)
    · rename_i hb
      have h1 := (Memory.wf_iff _).1 (ih (a + 1))
      rw [Memory.wf_iff]
      refine ⟨List.pairwise_cons.2 ⟨fun c hc => ?_, h1.1⟩, ?_⟩
      · have := memCells_range (a + 1) bs c hc
        dsimp only
        omega
      · intro c hc
        rcases List.mem_cons.1 hc with rfl | hc
        · exact hb
        · exact h1.2 c hc

/-- A write keeps the canonical form. -/
theorem memWrite_wf {m : List Host.Cell} (a : Nat) (bs : List Byte) (h : Memory.wf m = true) :
    Memory.wf (memWrite m a bs) = true :=
  memPlace_wf h (memCells_wf a bs) (memCells_range a bs)

/-- Zeroing keeps the canonical form. -/
theorem memZero_wf {m : List Host.Cell} (a n : Nat) (h : Memory.wf m = true) : Memory.wf (memZero m a n) = true :=
  memPlace_wf h rfl (fun _ hc => absurd hc (List.not_mem_nil))

/-- State.write keeps the canonical form. -/
theorem State.write_wf (s : State) (a : Nat) (bs : List Byte) (h : Memory.wf s.mem = true) :
    Memory.wf (s.write a bs).mem = true := memWrite_wf a bs h

/-- State.zero keeps the canonical form. -/
theorem State.zero_wf (s : State) (a n : Nat) (h : Memory.wf s.mem = true) : Memory.wf (s.zero a n).mem = true :=
  memZero_wf a n h

/-- State.copyMem keeps the canonical form. -/
theorem State.copyMem_wf (s : State) (src dst n : Nat) (h : Memory.wf s.mem = true) :
    Memory.wf (s.copyMem src dst n).mem = true := by
  unfold State.copyMem
  have hin : ∀ c ∈ s.mem.filter (fun c => decide (src ≤ c.1) && decide (c.1 < src + n)), src ≤ c.1 ∧ c.1 < src + n := by
    intro c hc
    have := (List.mem_filter.1 hc).2
    simpa using this
  have hf := (Memory.wf_iff _).1 (Memory.wf_filter (fun c => decide (src ≤ c.1) && decide (c.1 < src + n)) h)
  refine memPlace_wf h ?_ ?_
  · rw [Memory.wf_iff]
    refine ⟨?_, ?_⟩
    · rw [List.pairwise_map]
      refine List.Pairwise.imp_of_mem ?_ hf.1
      intro x y hx hy hxy
      have h1 := hin x hx
      dsimp only
      omega
    · intro c hc
      obtain ⟨d, hd, rfl⟩ := List.mem_map.1 hc
      exact hf.2 d hd
  · intro c hc
    obtain ⟨d, hd, rfl⟩ := List.mem_map.1 hc
    have := hin d hd
    dsimp only
    omega

/-- Reset memory is canonical. -/
theorem State.reset_wf : Memory.wf State.reset.mem = true := rfl

/-! ### Finite maps -/

@[simp] theorem Map.find_nil {β : Type} (k : Nat) : Map.find ([] : Map β) k = none := rfl

@[simp] theorem Map.find_put_self {β : Type} (m : Map β) (k : Nat) (v : β) : Map.find (Map.put m k v) k = some v := by
  induction m with
  | nil => simp [Map.put, Map.find]
  | cons c m ih =>
    obtain ⟨j, w⟩ := c
    unfold Map.put
    split
    · simp [Map.find]
    · split
      · simp [Map.find]
      · rename_i h1 h2
        simp [Map.find, Ne.symm h2, ih]

theorem Map.find_put_of_ne {β : Type} (m : Map β) {k x : Nat} (v : β) (h : x ≠ k) :
    Map.find (Map.put m k v) x = Map.find m x := by
  induction m with
  | nil => simp [Map.put, Map.find, Ne.symm h]
  | cons c m ih =>
    obtain ⟨j, w⟩ := c
    unfold Map.put
    split
    · simp [Map.find, Ne.symm h]
    · split
      · rename_i h1 h2
        subst h2
        simp [Map.find, Ne.symm h]
      · simp only [Map.find, ih]

@[simp] theorem Map.get_put_self {β : Type} (m : Map β) (k : Nat) (v d : β) : Map.get (Map.put m k v) k d = v := by
  simp [Map.get]

theorem Map.get_put_of_ne {β : Type} (m : Map β) {k x : Nat} (v d : β) (h : x ≠ k) :
    Map.get (Map.put m k v) x d = Map.get m x d := by
  simp [Map.get, Map.find_put_of_ne m v h]

/-! ### One byte -/

theorem Map.get_append_of_lt (l r : List Host.Cell) (x : Nat) (h : ∀ c ∈ l, c.1 ≠ x) :
    Map.get (l ++ r) x 0 = Map.get r x 0 := by
  induction l with
  | nil => rfl
  | cons c l ih =>
    have h1 := h c (List.mem_cons_self ..)
    have h2 := ih (fun d hd => h d (List.mem_cons_of_mem _ hd))
    simp only [Map.get] at h2 ⊢
    simp only [List.cons_append, Map.find, if_neg h1]
    exact h2

theorem Map.get_of_not_mem (l : List Host.Cell) (x : Nat) (h : ∀ c ∈ l, c.1 ≠ x) : Map.get l x (0 : Byte) = 0 := by
  have := Map.get_append_of_lt l [] x h
  simpa [Map.get, Map.find] using this

theorem Map.get_append_left (l r : List Host.Cell) (x : Nat) (h : ∀ c ∈ r, c.1 ≠ x) :
    Map.get (l ++ r) x (0 : Byte) = Map.get l x 0 := by
  induction l with
  | nil => rw [List.nil_append, Map.get_of_not_mem r x h]; rfl
  | cons c l ih =>
    simp only [Map.get] at ih ⊢
    simp only [List.cons_append, Map.find]
    split
    · rfl
    · exact ih

theorem Map.get_filter (l : List Host.Cell) (f : Nat → Bool) (x : Nat) :
    Map.get (l.filter (fun c => f c.1)) x (0 : Byte) = if f x then Map.get l x 0 else 0 := by
  induction l with
  | nil => simp [Map.get, Map.find]
  | cons c l ih =>
    simp only [Map.get] at ih ⊢
    by_cases hc : f c.1
    · rw [List.filter_cons_of_pos (by simpa using hc)]
      simp only [Map.find]
      by_cases hx : c.1 = x
      · subst hx; simp [hc]
      · simp only [if_neg hx]; exact ih
    · rw [List.filter_cons_of_neg (by simpa using hc)]
      simp only [Map.find]
      by_cases hx : c.1 = x
      · subst hx
        rw [ih]
        simp [hc]
      · simp only [if_neg hx]; exact ih

/-- Outside the range, a placement changes no byte; inside it, only the cells placed are read. -/
theorem memPlace_get {m cells : List Host.Cell} {a n : Nat} (hr : ∀ c ∈ cells, a ≤ c.1 ∧ c.1 < a + n) (x : Nat) :
    Map.get (memPlace m a n cells) x (0 : Byte) = if a ≤ x ∧ x < a + n then Map.get cells x 0 else Map.get m x 0 := by
  unfold memPlace
  have e1 := Map.get_filter m (fun k => decide (k < a)) x
  have e2 := Map.get_filter m (fun k => decide (a + n ≤ k)) x
  split
  · rename_i hx
    rw [Map.get_append_left, Map.get_append_of_lt]
    · intro c hc
      have := (List.mem_filter.1 hc).2
      simp only [decide_eq_true_eq] at this
      omega
    · intro c hc
      have := (List.mem_filter.1 hc).2
      simp only [decide_eq_true_eq] at this
      omega
  · rename_i hx
    by_cases h1 : x < a
    · rw [List.append_assoc, Map.get_append_left, e1, if_pos (by simpa using h1)]
      intro c hc
      rcases List.mem_append.1 hc with hc | hc
      · have := hr c hc
        omega
      · have := (List.mem_filter.1 hc).2
        simp only [decide_eq_true_eq] at this
        omega
    · rw [Map.get_append_of_lt, e2, if_pos (by simpa using (by omega : a + n ≤ x))]
      intro c hc
      rcases List.mem_append.1 hc with hc | hc
      · have := (List.mem_filter.1 hc).2
        simp only [decide_eq_true_eq] at this
        omega
      · have := hr c hc
        omega

theorem memCells_get (a : Nat) (bs : List Byte) (i : Nat) (h : i < bs.length) :
    Map.get (memCells a bs) (a + i) (0 : Byte) = bs[i] := by
  induction bs generalizing a i with
  | nil => simp at h
  | cons b bs ih =>
    cases i with
    | zero =>
      have hn : ∀ c ∈ memCells (a + 1) bs, c.1 ≠ a := by
        intro c hc
        have := memCells_range (a + 1) bs c hc
        omega
      unfold memCells
      split
      · rename_i hb
        exact (Map.get_of_not_mem _ _ hn).trans hb.symm
      · simp [Map.get, Map.find]
    | succ i =>
      have h' : i < bs.length := by simpa using h
      have e := ih (a + 1) i h'
      rw [show a + 1 + i = a + (i + 1) by omega] at e
      unfold memCells
      split
      · simpa using e
      · simp only [Map.get] at e ⊢
        simp only [Map.find, if_neg (show ¬ a = a + (i + 1) by omega)]
        simpa using e

/-- A byte that was written reads as written. -/
theorem State.byte_write (s : State) (a : Nat) (bs : List Byte) (i : Nat) (h : i < bs.length) :
    (s.write a bs).byte (a + i) = bs[i] := by
  unfold State.byte State.write memWrite
  rw [memPlace_get (memCells_range a bs), if_pos ⟨by omega, by omega⟩]
  exact memCells_get a bs i h

/-- A byte outside a write reads as before. -/
theorem State.byte_write_of_outside (s : State) (a : Nat) (bs : List Byte) (x : Nat) (h : x < a ∨ a + bs.length ≤ x) :
    (s.write a bs).byte x = s.byte x := by
  unfold State.byte State.write memWrite
  rw [memPlace_get (memCells_range a bs), if_neg (by omega)]

/-- A byte after zeroing. -/
theorem State.byte_zero (s : State) (a n x : Nat) :
    (s.zero a n).byte x = if a ≤ x ∧ x < a + n then 0 else s.byte x := by
  unfold State.byte State.zero memZero
  rw [memPlace_get (fun _ hc => absurd hc (List.not_mem_nil))]
  rfl

theorem memBytes_length (m : List Host.Cell) (a n : Nat) : (memBytes m a n).length = n := by
  induction n generalizing a with
  | zero => rfl
  | succ n ih => simp [memBytes, ih]

/-- `n` bytes are read. -/
@[simp] theorem State.read_length (s : State) (a n : Nat) : (s.read a n).length = n := memBytes_length _ _ _

theorem memBytes_get (m : List Host.Cell) (a n i : Nat) (h : i < n) :
    (memBytes m a n)[i]? = some (Map.get m (a + i) 0) := by
  induction n generalizing a i with
  | zero => omega
  | succ n ih =>
    cases i with
    | zero => simp [memBytes]
    | succ i =>
      have := ih (a + 1) i (by omega)
      rw [show a + 1 + i = a + (i + 1) by omega] at this
      simpa [memBytes] using this

/-- A read gives the bytes one by one. -/
theorem State.read_get (s : State) (a n i : Nat) (h : i < n) : (s.read a n)[i]? = some (s.byte (a + i)) := by
  unfold State.read memRead State.byte
  rw [memBytes_get _ _ _ _ h]
  have := Map.get_filter s.mem (fun k => decide (a ≤ k) && decide (k < a + n)) (a + i)
  rw [this, if_pos (by simp; omega)]

/-- What is read back after a write is what was written. -/
theorem State.read_write_same (s : State) (a : Nat) (bs : List Byte) : (s.write a bs).read a bs.length = bs := by
  apply List.ext_getElem?
  intro i
  by_cases h : i < bs.length
  · rw [State.read_get _ _ _ _ h, State.byte_write s a bs i h, List.getElem?_eq_getElem h]
  · rw [List.getElem?_eq_none (by simp; omega), List.getElem?_eq_none (by omega)]

end Sys2Proof.Machine
end

