-- ==== Sys2Proof/Laws/Kept.lean ====
section
/-!
SUPPORT. What no operation disturbs (State.Kept): the waiting commands, the canonical form of memory, and the blown fuses. One
lemma for each shared operation of Machine/ from Ops to the engines; a meaning's lemma cites the lemmas of what it calls.
-/
namespace Sys2Proof.Machine

/-- What a state is held against: its waiting commands, its programmed OWNER slots, and its Tally bits tried and burnt. -/
structure Mark where
  queue : List Instr
  owners : List (List Byte)
  used : Nat
  burnt : Nat

/-- The mark of a state. -/
def State.mark (s : State) : Mark := ⟨s.pending, s.sx.owners, s.sx.tallyUsed, s.sx.tallyBurnt⟩

/-- What no command disturbs, since the mark `Q`: the waiting commands stand, memory is in its canonical form, and no fuse is
unblown: the OWNER slots programmed and the Tally bits tried and burnt only grow. -/
structure State.Kept (Q : Mark) (s : State) : Prop where
  queue : s.pending = Q.queue
  mem : Memory.wf s.mem = true
  owners : Q.owners <+: s.sx.owners
  used : Q.used ≤ s.sx.tallyUsed
  burnt : Q.burnt ≤ s.sx.tallyBurnt

/-- `g a` is kept for the `a` that an option holds. -/
structure OptKept {α : Type} (Q : Mark) (g : α → State) (o : Option α) : Prop where
  use : ∀ a, o = some a → (g a).Kept Q

section
variable {Q : Mark} {s : State}
theorem mk_kept {a b c d f g h i j k l m n o q r t u v w x y z a1 b1} :
    State.Kept Q ⟨s.pending, s.mem, a, b, c, d, s.sx, f, g, h, i, j, k, l, m, n, o, q, r, t, u, v, w, x, y, z, a1, b1⟩ ↔ s.Kept Q :=
  ⟨fun h => ⟨h.queue, h.mem, h.owners, h.used, h.burnt⟩, fun h => ⟨h.queue, h.mem, h.owners, h.used, h.burnt⟩⟩
theorem mk_kept_sx {a b c d e f g h i j k l m n o q r t u v w x y z a1 b1} (h1 : e.owners = s.sx.owners)
    (h2 : e.tallyUsed = s.sx.tallyUsed) (h3 : e.tallyBurnt = s.sx.tallyBurnt) :
    State.Kept Q ⟨s.pending, s.mem, a, b, c, d, e, f, g, h, i, j, k, l, m, n, o, q, r, t, u, v, w, x, y, z, a1, b1⟩ ↔ s.Kept Q :=
  ⟨fun h => ⟨h.queue, h.mem, h1 ▸ h.owners, h2 ▸ h.used, h3 ▸ h.burnt⟩,
   fun h => ⟨h.queue, h.mem, h1.symm ▸ h.owners, h2.symm ▸ h.used, h3.symm ▸ h.burnt⟩⟩
theorem fst_kept {β : Type} {x : State × β} {t : State} {c : β} (e : x = (t, c)) (h : x.1.Kept Q) : t.Kept Q := by
    subst e; exact h
theorem snd_kept {β : Type} {x : β × State} {t : State} {c : β} (e : x = (c, t)) (h : x.2.Kept Q) : t.Kept Q := by
    subst e; exact h
theorem pair_kept {β : Type} {b : β} (h : s.Kept Q) : State.Kept Q (s, b).1 := h
theorem optKept_none {α : Type} {g : α → State} : OptKept Q g none := ⟨fun a e => by cases e⟩
theorem optKept_some {α : Type} {g : α → State} {a : α} (h : (g a).Kept Q) : OptKept Q g (some a) := ⟨fun b e => by
    cases e; exact h⟩
theorem foldl_kept {β : Type} {f : State → β → State} (l : List β) (hf : ∀ s x, s.Kept Q → (f s x).Kept Q) : ∀ {s},
    s.Kept Q → (l.foldl f s).Kept Q := by
  induction l with
  | nil => exact id
  | cons a l ih => intro s h; exact ih (hf s a h)
theorem optKept_mono {α : Type} {g g' : α → State} {o : Option α} (h : OptKept Q g o)
    (hg : ∀ a, (g a).Kept Q → (g' a).Kept Q) : OptKept Q g' o := ⟨fun a e => hg a (h.use a e)⟩
theorem optKept_map {α β : Type} {g : β → State} {f : α → β} {o : Option α} (h : OptKept Q (fun a => g (f a)) o) :
    OptKept Q g (o.map f) := ⟨fun b e => by
  cases o with
  | none => cases e
  | some a => cases e; exact h.use a rfl⟩
theorem optKept_bind {α β : Type} {g : β → State} {f : α → Option β} {o : Option α} (h : ∀ a, OptKept Q g (f a)) :
    OptKept Q g (o.bind f) := ⟨fun b e => by
  cases o with
  | none => cases e
  | some a => exact (h a).use b e⟩
theorem optKept_or {α : Type} {g : α → State} {o o' : Option α} (h : OptKept Q g o) (h' : OptKept Q g o') : OptKept
    Q g (o <|> o') := ⟨fun b e => by
  cases o with
  | none => exact h'.use b e
  | some a => exact h.use b e⟩
theorem optKept_findSome {α β : Type} {g : β → State} {f : α → Option β} (l : List α) (h : ∀ a, OptKept Q g (f a))
    : OptKept Q g (l.findSome? f) := ⟨fun b e => by
  obtain ⟨a, _, ha⟩ := List.exists_of_findSome?_eq_some e
  exact (h a).use b ha⟩
theorem optKept_of {α : Type} {g : α → State} {o : Option α} (h : ∀ a, o = some a → (g a).Kept Q) : OptKept Q g o := ⟨h⟩
theorem ite_kept {c : Prop} [Decidable c] {x y : State} (h1 : x.Kept Q) (h2 : y.Kept Q) : State.Kept Q
    (if c then x else y) := by
  split
  · exact h1
  · exact h2
theorem ite_fst_kept {β : Type} {c : Prop} [Decidable c] {x y : State × β} (h1 : x.1.Kept Q) (h2 : y.1.Kept Q) :
    State.Kept Q (if c then x else y).1 := by
  split
  · exact h1
  · exact h2
theorem ite_snd_kept {β : Type} {c : Prop} [Decidable c] {x y : β × State} (h1 : x.2.Kept Q) (h2 : y.2.Kept Q) :
    State.Kept Q (if c then x else y).2 := by
  split
  · exact h1
  · exact h2
theorem optKept_ite {α : Type} {g : α → State} {c : Prop} [Decidable c] {x y : Option α} (h1 : OptKept Q g x)
    (h2 : OptKept Q g y) : OptKept Q g (if c then x else y) := by
  split
  · exact h1
  · exact h2
theorem optKept_bindS {β : Type} {g : β → State} {f : State → Option β} {o : Option State}
    (h0 : OptKept Q (fun t => t) o) (h : ∀ a, State.Kept Q a → OptKept Q g (f a)) : OptKept Q g (o.bind f) := ⟨fun b e => by
  cases o with
  | none => cases e
  | some a => exact (h a (h0.use a rfl)).use b e⟩
theorem optKept_foldl {α β : Type} {g : α → State} {f : Option α → β → Option α} (l : List β)
    (hf : ∀ o x, OptKept Q g o → OptKept Q g (f o x)) : ∀ {o}, OptKept Q g o → OptKept Q g (l.foldl f o) := by
  induction l with
  | nil => exact id
  | cons a l ih => intro o h; exact ih (hf o a h)
theorem foldl_fst_kept {α β : Type} {f : State × α → β → State × α} (l : List β)
    (hf : ∀ s x, s.1.Kept Q → (f s x).1.Kept Q) : ∀ {s}, s.1.Kept Q → (l.foldl f s).1.Kept Q := by
  induction l with
  | nil => exact id
  | cons a l ih => intro s h; exact ih (hf s a h)
theorem optUse {t : State} {o : Option State} (e : o = some t) (h : OptKept Q (fun t => t) o) : t.Kept Q := h.use t e
theorem optUse_fst {β : Type} {t : State} {c : β} {o : Option (State × β)} (e : o = some (t, c))
    (h : OptKept Q Prod.fst o) : t.Kept Q := h.use _ e
theorem optUse_snd {β : Type} {t : State} {c : β} {o : Option (β × State)} (e : o = some (c, t))
    (h : OptKept Q Prod.snd o) : t.Kept Q := h.use _ e
theorem getD_kept {o : Option State} {t : State} (h : OptKept Q (fun t => t) o) (ht : t.Kept Q) : (o.getD t).Kept Q
    := by
  cases o with
  | none => exact ht
  | some a => exact h.use a rfl
end

variable {Q : Mark}

/-! ### Ops -/

theorem State.write_kept (s : State) (a : Nat) (bs : List Byte) (hk : State.Kept Q s) : State.Kept Q (s.write a bs)
    := ⟨hk.queue, State.write_wf s a bs hk.mem, hk.owners, hk.used, hk.burnt⟩

theorem State.zero_kept (s : State) (a n : Nat) (hk : State.Kept Q s) : State.Kept Q (s.zero a n) := ⟨hk.queue,
    State.zero_wf s a n hk.mem, hk.owners, hk.used, hk.burnt⟩

theorem State.setReg_kept (s : State) (a v : Nat) (hk : State.Kept Q s) :
    State.Kept Q (State.setReg s a v) := by
  unfold State.setReg
  repeat' first | with_reducible assumption | simp only [mk_kept]

theorem State.setF_kept (s : State) (a hi lo v : Nat) (hk : State.Kept Q s) :
    State.Kept Q (State.setF s a hi lo v) := by
  unfold State.setF
  repeat' first | (with_reducible first | assumption | apply State.setReg_kept)

theorem State.putWord_kept (s : State) (a : Nat) (hi : Bool) (v : W32) (hk : State.Kept Q s) :
    State.Kept Q (State.putWord s a hi v) := by
  unfold State.putWord
  repeat' first | (with_reducible first | assumption | apply State.setReg_kept) | split

theorem State.resetRegs_kept (s : State) (b : Nat) (hk : State.Kept Q s) :
    State.Kept Q (State.resetRegs s b) := by
  unfold State.resetRegs
  repeat' first | with_reducible assumption | simp only [mk_kept]

theorem State.draw_kept (s : State) (hk : State.Kept Q s) :
    State.Kept Q (State.draw s).2 := by
  unfold State.draw
  repeat' first | with_reducible assumption | dsimp only | simp only [mk_kept]

theorem State.pick_kept (s : State) (n : Nat) (hk : State.Kept Q s) :
    State.Kept Q (State.pick s n).2 := by
  unfold State.pick
  repeat' first | with_reducible assumption | dsimp only | simp only [mk_kept]

theorem State.queueFrame_kept (s : State) (r : Role) (typ rid : Nat) (payload : List Byte) (hk : State.Kept Q s) :
    State.Kept Q (State.queueFrame s r typ rid payload) := by
  unfold State.queueFrame
  repeat' first | with_reducible assumption | dsimp only | simp only [mk_kept] | simp only [mk_kept_sx] | split

theorem State.reply_kept (s : State) (r : Role) (typ rid status : Nat) (results : List Byte) (hk : State.Kept Q s) :
    State.Kept Q (State.reply s r typ rid status results) := by
  unfold State.reply
  repeat' first
    | (with_reducible first | assumption | apply ite_kept) | dsimp only | simp only [mk_kept]
    | with_reducible apply State.queueFrame_kept

theorem State.bumpQuiet_kept (s : State) (a hi lo cap n : Nat) (hk : State.Kept Q s) :
    State.Kept Q (State.bumpQuiet s a hi lo cap n).1 := by
  unfold State.bumpQuiet
  repeat' first
    | (with_reducible first | assumption | apply ite_fst_kept) | dsimp only | with_reducible apply State.setF_kept

theorem State.evLost_kept (s : State) (hk : State.Kept Q s) :
    State.Kept Q (State.evLost s) := by
  unfold State.evLost
  repeat' first | (with_reducible first | assumption | apply State.bumpQuiet_kept)

theorem State.post_kept (s : State) (code blk dest : Nat) (items : List Byte) (hk : State.Kept Q s) :
    State.Kept Q (State.post s code blk dest items) := by
  unfold State.post
  repeat' first
    | (with_reducible first | assumption | apply ite_kept) | dsimp only | simp only [mk_kept]
    | (with_reducible first | apply State.queueFrame_kept | apply State.evLost_kept)

theorem State.postOwner_kept (s : State) (code blk : Nat) (items : List Byte) (hk : State.Kept Q s) :
    State.Kept Q (State.postOwner s code blk items) := by
  unfold State.postOwner
  repeat' first | (with_reducible first | assumption | apply State.post_kept)

theorem State.postPw_kept (s : State) (code hail : Nat) (items : List Byte) (hk : State.Kept Q s) :
    State.Kept Q (State.postPw s code hail items) := by
  unfold State.postPw
  repeat' first
    | (with_reducible first | assumption | apply ite_kept) | dsimp only | simp only [mk_kept]
    | with_reducible apply State.postOwner_kept

theorem State.bump_kept (s : State) (a hi lo cap n : Nat) (field : Option Nat) (hk : State.Kept Q s) :
    State.Kept Q (State.bump s a hi lo cap n field) := by
  unfold State.bump
  repeat' first
    | with_reducible assumption | dsimp only
    | (with_reducible first | apply State.bumpQuiet_kept | apply State.post_kept | apply State.postOwner_kept | (apply fst_kept; assumption))
    | split

theorem State.bump32_kept (s : State) (a n : Nat) (field : Option Nat) (hk : State.Kept Q s) :
    State.Kept Q (State.bump32 s a n field) := by
  unfold State.bump32
  repeat' first | (with_reducible first | assumption | apply State.bump_kept)

theorem State.bump16_kept (s : State) (a n : Nat) (field : Option Nat) (hk : State.Kept Q s) :
    State.Kept Q (State.bump16 s a n field) := by
  unfold State.bump16
  repeat' first | (with_reducible first | assumption | apply State.bump_kept)

theorem State.pulse_kept (s : State) (bit : Nat) (step : Option (Nat × W32)) (hk : State.Kept Q s) :
    State.Kept Q (State.pulse s bit step) := by
  unfold State.pulse
  repeat' first | with_reducible assumption | dsimp only | simp only [mk_kept]

theorem State.detect_kept (s : State) (err k bit : Nat) (step : Option (Nat × W32)) (hk : State.Kept Q s) :
    State.Kept Q (State.detect s err k bit step) := by
  unfold State.detect
  repeat' first | (with_reducible first | assumption | apply State.setF_kept | apply State.pulse_kept)

theorem State.check_kept (s : State) (inject err k bit : Nat) (step : Option (Nat × W32)) (hk : State.Kept Q s) :
    State.Kept Q (State.check s inject err k bit step) := by
  unfold State.check
  repeat' first
    | (with_reducible first | assumption | apply ite_kept | apply State.setF_kept | apply State.detect_kept)

theorem State.raiseHail_kept (s : State) (h : Nat) (verdict : Option Nat) (hk : State.Kept Q s) :
    State.Kept Q (State.raiseHail s h verdict) := by
  unfold State.raiseHail
  repeat' first | (with_reducible first | assumption | apply ite_kept) | dsimp only | simp only [mk_kept] | split

/-! ### Jobs -/

theorem State.setCtx_kept (s : State) (c : Nat) (x : Ctx) (hk : State.Kept Q s) :
    State.Kept Q (State.setCtx s c x) := by
  unfold State.setCtx
  repeat' first | with_reducible assumption | dsimp only | simp only [mk_kept]

theorem State.updCtx_kept (s : State) (c : Nat) (f : Ctx → Ctx) (hk : State.Kept Q s) :
    State.Kept Q (State.updCtx s c f) := by
  unfold State.updCtx
  repeat' first | (with_reducible first | assumption | apply State.setCtx_kept) | split

theorem State.updRun_kept (s : State) (c : Nat) (f : JobRun → JobRun) (hk : State.Kept Q s) :
    State.Kept Q (State.updRun s c f) := by
  unfold State.updRun
  repeat' first | (with_reducible first | assumption | apply State.updCtx_kept)

theorem State.stamp_kept (s : State) (hk : State.Kept Q s) :
    State.Kept Q (State.stamp s).2 := by
  unfold State.stamp
  repeat' first | with_reducible assumption | dsimp only | simp only [mk_kept]

theorem State.updStrand_kept (s : State) (c sid : Nat) (f : Strand → Strand) (hk : State.Kept Q s) :
    State.Kept Q (State.updStrand s c sid f) := by
  unfold State.updStrand
  repeat' first | (with_reducible first | assumption | apply State.updRun_kept)

theorem State.updEngine_kept (s : State) (e : Nat) (f : Engine → Engine) (hk : State.Kept Q s) :
    State.Kept Q (State.updEngine s e f) := by
  unfold State.updEngine
  repeat' first | with_reducible assumption | simp only [mk_kept]

theorem State.writeWatch_kept (s : State) (e n : Nat) (hi : Bool) (v : W32) (hk : State.Kept Q s) :
    State.Kept Q (State.writeWatch s e n hi v) := by
  unfold State.writeWatch
  repeat' first
    | (with_reducible first | assumption | apply ite_kept) | dsimp only
    | (with_reducible first | apply State.setReg_kept | apply State.setF_kept | apply State.putWord_kept | apply State.updEngine_kept)

theorem State.boundary_kept (s : State) (e : Nat) (hk : State.Kept Q s) :
    State.Kept Q (State.boundary s e) := by
  unfold State.boundary
  repeat' first
    | intro _
    | (with_reducible first | assumption | apply State.updEngine_kept | apply State.writeWatch_kept | apply foldl_kept)

theorem State.countWait_kept (s : State) (e : Nat) (hk : State.Kept Q s) :
    State.Kept Q (State.countWait s e) := by
  unfold State.countWait
  repeat' first
    | with_reducible assumption | dsimp only
    | (with_reducible first | apply State.draw_kept | apply State.bump32_kept)

theorem State.dropRun_kept (s : State) (e : Nat) (hk : State.Kept Q s) :
    State.Kept Q (State.dropRun s e) := by
  unfold State.dropRun
  repeat' first
    | (with_reducible first | assumption | apply ite_kept) | dsimp only
    | (with_reducible first | apply State.updEngine_kept | apply State.countWait_kept)

theorem State.freeEngine_kept (s : State) (e : Nat) (hk : State.Kept Q s) :
    State.Kept Q (State.freeEngine s e) := by
  unfold State.freeEngine
  repeat' first
    | (with_reducible first | assumption | apply State.updEngine_kept | apply State.boundary_kept | apply State.dropRun_kept)

theorem State.setShared_kept (s : State) (f i : Nat) (v : W32) (hk : State.Kept Q s) :
    State.Kept Q (State.setShared s f i v) := by
  unfold State.setShared
  repeat' first | with_reducible assumption | dsimp only | simp only [mk_kept]

theorem State.raiseShared_kept (s : State) (f i : Nat) (v : W32) (hk : State.Kept Q s) :
    State.Kept Q (State.raiseShared s f i v) := by
  unfold State.raiseShared
  repeat' first | (with_reducible first | assumption | apply State.setShared_kept)

theorem State.raiseCounter_kept (s : State) (c : Nat) (shared : Bool) (i : Nat) (v : W32) (hk : State.Kept Q s) :
    State.Kept Q (State.raiseCounter s c shared i v) := by
  unfold State.raiseCounter
  repeat' first
    | (with_reducible first | assumption | apply ite_kept | apply State.setCtx_kept | apply State.raiseShared_kept)
    | split

theorem State.wakeCtx_kept (s : State) (c : Nat) (x : Ctx) (hk : State.Kept Q s) :
    State.Kept Q (State.wakeCtx s c x) := by
  unfold State.wakeCtx
  repeat' first
    | intro _ | (with_reducible first | assumption | apply ite_kept) | dsimp only
    | (with_reducible first | apply State.stamp_kept | apply State.updStrand_kept | apply foldl_kept) | split

theorem State.wake_kept (s : State) (hk : State.Kept Q s) :
    State.Kept Q (State.wake s) := by
  unfold State.wake
  repeat' first | intro _ | (with_reducible first | assumption | apply State.wakeCtx_kept | apply foldl_kept)

theorem State.unblock_kept (s : State) (c sid : Nat) (hk : State.Kept Q s) :
    State.Kept Q (State.unblock s c sid) := by
  unfold State.unblock
  repeat' first
    | with_reducible assumption | dsimp only
    | (with_reducible first | apply State.stamp_kept | apply State.updStrand_kept)

theorem State.closeWalk_kept (s : State) (c sid : Nat) (hk : State.Kept Q s) :
    State.Kept Q (State.closeWalk s c sid) := by
  unfold State.closeWalk
  repeat' first | with_reducible assumption | dsimp only | simp only [mk_kept]

theorem State.writeDgrp_kept (s : State) (n : Nat) (peer hi : Bool) (v : W32) (hk : State.Kept Q s) :
    State.Kept Q (State.writeDgrp s n peer hi v) := by
  unfold State.writeDgrp
  repeat' first
    | (with_reducible first | assumption | apply ite_kept | apply State.setReg_kept | apply State.setF_kept | apply State.putWord_kept)

theorem State.endDigest_kept (s : State) (c sid : Nat) (hk : State.Kept Q s) :
    State.Kept Q (State.endDigest s c sid) := by
  unfold State.endDigest
  repeat' first
    | intro _ | with_reducible assumption | dsimp only | simp only [mk_kept]
    | (with_reducible first | apply State.writeDgrp_kept | apply foldl_kept) | split

theorem State.dropStrand_kept (s : State) (c : Nat) (t : Strand) (hk : State.Kept Q s) :
    State.Kept Q (State.dropStrand s c t) := by
  unfold State.dropStrand
  repeat' first
    | with_reducible assumption | dsimp only
    | (with_reducible first | apply State.updRun_kept | apply State.freeEngine_kept | apply State.closeWalk_kept | apply State.endDigest_kept)
    | split

theorem State.endDigests_kept (s : State) (hk : State.Kept Q s) :
    State.Kept Q (State.endDigests s) := by
  unfold State.endDigests
  repeat' first | intro _ | (with_reducible first | assumption | apply State.endDigest_kept | apply foldl_kept)

theorem State.freeEngines_kept (s : State) (hk : State.Kept Q s) :
    State.Kept Q (State.freeEngines s) := by
  unfold State.freeEngines
  repeat' first | intro _ | (with_reducible first | assumption | apply State.freeEngine_kept | apply foldl_kept)

theorem State.stopStrands_kept (s : State) (c : Nat) (hk : State.Kept Q s) :
    State.Kept Q (State.stopStrands s c) := by
  unfold State.stopStrands
  repeat' first
    | intro _
    | (with_reducible first | assumption | apply ite_kept | apply State.updEngine_kept | apply State.dropStrand_kept | apply foldl_kept)
    | split

theorem State.endJob_kept (s : State) (c code : Nat) (hk : State.Kept Q s) :
    State.Kept Q (State.endJob s c code) := by
  unfold State.endJob
  repeat' first | (with_reducible first | assumption | apply State.updRun_kept | apply State.stopStrands_kept) | split

theorem State.abortJob_kept (s : State) (c : Nat) (who : Option (Role × Nat)) (hk : State.Kept Q s) :
    State.Kept Q (State.abortJob s c who) := by
  unfold State.abortJob
  repeat' first | (with_reducible first | assumption | apply State.updRun_kept | apply State.stopStrands_kept)

theorem State.replayStep_kept (s : State) (c : Nat) (hk : State.Kept Q s) :
    State.Kept Q (State.replayStep s c) := by
  unfold State.replayStep
  repeat' first | (with_reducible first | assumption | apply State.updRun_kept | apply State.stopStrands_kept) | split

theorem State.dropWrites_kept (s : State) (c : Nat) (hk : State.Kept Q s) :
    State.Kept Q (State.dropWrites s c) := by
  unfold State.dropWrites
  repeat' first | with_reducible assumption | dsimp only | simp only [mk_kept]

theorem State.cmRead_kept (s : State) (a n : Nat) (hk : State.Kept Q s) :
    State.Kept Q (State.cmRead s a n).1 := by
  unfold State.cmRead
  repeat' first
    | (with_reducible first | assumption | apply ite_fst_kept) | dsimp only
    | (with_reducible first | apply State.setF_kept | apply State.bump16_kept | apply State.detect_kept)

theorem State.fetchWord_kept (s : State) (c tape off : Nat) (hk : State.Kept Q s) :
    State.Kept Q (State.fetchWord s c tape off) := by
  unfold State.fetchWord
  split
  · exact hk
  · rename_i d _
    have h := State.cmRead_kept s (d.base + 8 * off) 8 hk
    split
    · rename_i e
      exact State.endJob_kept _ _ _ (fst_kept e h)
    · rename_i e
      exact fst_kept e h

theorem State.goto_kept (s : State) (c sid : Nat) (t : Strand) (tape : Nat) (pc : Int) (hk : State.Kept Q s) :
    State.Kept Q (State.goto s c sid t tape pc) := by
  unfold State.goto
  repeat' first
    | (with_reducible first | assumption | apply ite_kept | apply State.updStrand_kept | apply State.endJob_kept | apply State.fetchWord_kept)

/-! ### Link -/

theorem State.updPort_kept (s : State) (p : Nat) (f : LxPort → LxPort) (hk : State.Kept Q s) :
    State.Kept Q (State.updPort s p f) := by
  unfold State.updPort
  repeat' first | with_reducible assumption | dsimp only | simp only [mk_kept]

theorem State.drop_kept (s : State) (p n : Nat) (hk : State.Kept Q s) :
    State.Kept Q (State.drop s p n) := by
  unfold State.drop
  repeat' first | (with_reducible first | assumption | apply ite_kept | apply State.bump_kept)

theorem State.leaveBuffer_kept (s : State) (o : Option (Nat × Nat)) (units : Nat) (hk : State.Kept Q s) :
    State.Kept Q (State.leaveBuffer s o units) := by
  unfold State.leaveBuffer
  repeat' first | (with_reducible first | assumption | apply State.updPort_kept) | split

theorem State.dropAll_kept (s : State) (p : Nat) (l : List (Option (Nat × Nat) × LinkMsg)) (count : Bool)
    (hk : State.Kept Q s) :
    State.Kept Q (State.dropAll s p l count) := by
  unfold State.dropAll
  repeat' first
    | intro _
    | (with_reducible first | assumption | apply ite_kept | apply State.drop_kept | apply State.leaveBuffer_kept | apply foldl_kept)

theorem State.enqueue_kept (s : State) (p : Nat) (o : Option (Nat × Nat)) (m : LinkMsg) (hk : State.Kept Q s) :
    State.Kept Q (State.enqueue s p o m) := by
  unfold State.enqueue
  repeat' first
    | (with_reducible first | assumption | apply ite_kept | apply State.updPort_kept | apply State.drop_kept | apply State.leaveBuffer_kept)

theorem State.sendMsg_kept (s : State) (m : LinkMsg) (hk : State.Kept Q s) :
    State.Kept Q (State.sendMsg s m) := by
  unfold State.sendMsg
  repeat' first | (with_reducible first | assumption | apply State.enqueue_kept) | split

theorem State.request_opt (s : State) (m : LinkMsg) (use : TagUse) (hk : State.Kept Q s) : OptKept Q (fun t => t)
    (State.request s m use) := by
  unfold State.request
  repeat' first
    | with_reducible assumption | dsimp only | simp only [mk_kept]
    | (with_reducible first | exact optKept_none | apply optKept_some | apply State.sendMsg_kept) | split

theorem State.request_kept (s : State) (m : LinkMsg) (use : TagUse) {t : State} 
    (e : (State.request s m use) = some t) (hk : State.Kept Q s) : State.Kept Q t :=
  (State.request_opt s m use hk).use _ e

theorem State.respond_kept (s : State) (m : LinkMsg) (typ status : Nat) (data : List Byte) (hk : State.Kept Q s) :
    State.Kept Q (State.respond s m typ status data) := by
  unfold State.respond
  repeat' first | (with_reducible first | assumption | apply State.sendMsg_kept)

theorem State.portTo_kept (s : State) (p to_ : Nat) (hk : State.Kept Q s) :
    State.Kept Q (State.portTo s p to_) := by
  unfold State.portTo
  repeat' first
    | with_reducible assumption | dsimp only
    | (with_reducible first | apply State.updPort_kept | apply State.dropAll_kept)

theorem State.goDown_kept (s : State) (p : Nat) (bye : Bool) (hk : State.Kept Q s) :
    State.Kept Q (State.goDown s p bye) := by
  unfold State.goDown
  repeat' first
    | (with_reducible first | assumption | apply ite_kept) | dsimp only
    | (with_reducible first | apply State.postOwner_kept | apply State.bump_kept | apply State.detect_kept | apply State.portTo_kept)

theorem State.portOff_kept (s : State) (p : Nat) (hk : State.Kept Q s) :
    State.Kept Q (State.portOff s p) := by
  unfold State.portOff
  repeat' first
    | (with_reducible first | assumption | apply State.updPort_kept | apply State.dropAll_kept | apply State.portTo_kept)

theorem State.sendLane_kept (s : State) (p hdr : Nat) (body : List Byte) (hk : State.Kept Q s) :
    State.Kept Q (State.sendLane s p hdr body) := by
  unfold State.sendLane
  repeat' first | (with_reducible first | assumption | apply State.updPort_kept)

theorem State.portBye_kept (s : State) (p : Nat) (hk : State.Kept Q s) :
    State.Kept Q (State.portBye s p) := by
  unfold State.portBye
  repeat' first
    | (with_reducible first | assumption | apply ite_kept | apply State.updPort_kept | apply State.dropAll_kept | apply State.portTo_kept | apply State.sendLane_kept)

theorem State.fillBody_kept (s : State) (p : Nat) (bytes : List Byte) (y0 : Nat) (hk : State.Kept Q s) :
    State.Kept Q (State.fillBody s p bytes y0).1 := by
  induction y0 generalizing s p bytes with
  | zero =>
    unfold State.fillBody
    exact hk
  | succ n ih =>
    unfold State.fillBody
    repeat' first
      | (with_reducible first | assumption | apply ih | apply ite_fst_kept) | dsimp only
      | (with_reducible first | apply State.updPort_kept | apply State.leaveBuffer_kept) | split

theorem State.sendFrame_kept (s : State) (p : Nat) (hk : State.Kept Q s) :
    State.Kept Q (State.sendFrame s p) := by
  unfold State.sendFrame
  repeat' first
    | (with_reducible first | assumption | apply ite_kept) | dsimp only
    | (with_reducible first | apply State.pick_kept | apply State.updPort_kept | apply State.sendLane_kept | apply State.fillBody_kept)
    | split

theorem State.takeUnits_kept (s : State) (p : Nat) (y0 : Nat) (hk : State.Kept Q s) :
    State.Kept Q (State.takeUnits s p y0) := by
  induction y0 generalizing s p with
  | zero =>
    unfold State.takeUnits
    exact hk
  | succ n ih =>
    unfold State.takeUnits
    repeat' first
      | (with_reducible first | assumption | apply ih | apply ite_kept | apply State.updPort_kept | apply State.drop_kept | apply State.leaveBuffer_kept | apply State.enqueue_kept)
      | split

theorem State.frameIn_kept (s : State) (p : Nat) (good corrected : Bool) (hdr : Nat) (body : List Byte)
    (hk : State.Kept Q s) :
    State.Kept Q (State.frameIn s p good corrected hdr body) := by
  unfold State.frameIn
  repeat' first
    | (with_reducible first | assumption | apply ite_kept) | dsimp only
    | (with_reducible first | apply State.bump_kept | apply State.updPort_kept | apply State.takeUnits_kept)

theorem State.takeUnit_opt (s : State) (p : Nat) (u : List Byte) (hk : State.Kept Q s) : OptKept Q (fun t => t)
    (State.takeUnit s p u) := by
  unfold State.takeUnit
  repeat' first
    | (with_reducible first | assumption | exact optKept_none | apply optKept_some | apply optKept_ite | apply State.updPort_kept)
    | split

theorem State.takeUnit_kept (s : State) (p : Nat) (u : List Byte) {t : State} 
    (e : (State.takeUnit s p u) = some t) (hk : State.Kept Q s) : State.Kept Q t :=
  (State.takeUnit_opt s p u hk).use _ e

theorem State.takeMsg_opt (s : State) (p : Nat) (m : LinkMsg) (hk : State.Kept Q s) : OptKept Q (fun t => t)
    (State.takeMsg s p m) := by
  unfold State.takeMsg
  repeat' first
    | (with_reducible first | assumption | exact optKept_none | apply optKept_some | apply optKept_ite | apply State.updPort_kept | apply State.leaveBuffer_kept)

theorem State.takeMsg_kept (s : State) (p : Nat) (m : LinkMsg) {t : State}  (e : (State.takeMsg s p m) = some t)
    (hk : State.Kept Q s) : State.Kept Q t :=
  (State.takeMsg_opt s p m hk).use _ e

/-! ### Mc -/

theorem State.mcPair_kept (s : State) (c : Nat) (word : List (BitVec 16)) (hk : State.Kept Q s) :
    State.Kept Q (State.mcPair s c word).1 := by
  unfold State.mcPair
  repeat' first
    | with_reducible assumption | dsimp only
    | (with_reducible first | apply State.bump_kept | apply State.detect_kept) | split

theorem State.mcRetry_kept (s : State) (c : Nat) (hk : State.Kept Q s) :
    State.Kept Q (State.mcRetry s c) := by
  unfold State.mcRetry
  repeat' first | (with_reducible first | assumption | apply State.bump_kept | apply State.detect_kept)

theorem State.mcChecked_kept (s : State) (c : Nat) (word : List (BitVec 16)) (hk : State.Kept Q s) :
    State.Kept Q (State.mcChecked s c word).1 := by
  unfold State.mcChecked
  repeat' first
    | (with_reducible first | assumption | apply ite_fst_kept) | dsimp only
    | (with_reducible first | apply State.setF_kept | apply State.mcPair_kept | apply State.mcRetry_kept)

theorem State.mcRead_kept (s : State) (c : Nat) (hk : State.Kept Q s) :
    State.Kept Q (State.mcRead s c).1 := by
  unfold State.mcRead
  repeat' first | with_reducible assumption | dsimp only | with_reducible apply State.mcChecked_kept

theorem State.lentPair_kept (s : State) (a : Nat) (hk : State.Kept Q s) :
    State.Kept Q (State.lentPair s a).1 := by
  unfold State.lentPair
  repeat' first
    | with_reducible assumption | dsimp only
    | (with_reducible first | apply State.mcChecked_kept | (apply fst_kept; assumption)) | split

theorem State.lentRead_kept (s : State) (a n : Nat) (hk : State.Kept Q s) :
    State.Kept Q (State.lentRead s a n).1 := by
  unfold State.lentRead
  repeat' first
    | intro _ | with_reducible assumption | dsimp only
    | (with_reducible first | apply State.lentPair_kept | apply foldl_fst_kept)

theorem State.lentWrite_kept (s : State) (a : Nat) (bs : List Byte) (hk : State.Kept Q s) :
    State.Kept Q (State.lentWrite s a bs).1 := by
  unfold State.lentWrite
  repeat' first
    | intro _ | (with_reducible first | assumption | apply ite_fst_kept) | dsimp only
    | (with_reducible first | apply State.write_kept | apply State.lentPair_kept | apply foldl_kept | apply foldl_fst_kept | (apply fst_kept; assumption))
    | split

theorem State.freeBytes_kept (s : State) (n : Nat) (hk : State.Kept Q s) :
    State.Kept Q (State.freeBytes s n).1 := by
  unfold State.freeBytes
  repeat' first | with_reducible assumption | dsimp only | simp only [mk_kept]

theorem State.sealBlocks_kept (s : State) (f ua : Nat) (bs : List Byte) (hk : State.Kept Q s) :
    State.Kept Q (State.sealBlocks s f ua bs).1 := by
  unfold State.sealBlocks
  repeat' first | (with_reducible first | assumption | apply State.freeBytes_kept) | split

theorem State.openBlocks_kept (s : State) (f ua : Nat) (bs : List Byte) (hk : State.Kept Q s) :
    State.Kept Q (State.openBlocks s f ua bs).1 := by
  unfold State.openBlocks
  repeat' first | (with_reducible first | assumption | apply State.freeBytes_kept) | split

/-! ### Tier -/

theorem State.setPage_kept (s : State) (f page : Nat) (p : Page) (hk : State.Kept Q s) :
    State.Kept Q (State.setPage s f page p) := by
  unfold State.setPage
  repeat' first | with_reducible assumption | dsimp only | simp only [mk_kept]

theorem State.freeLoc_opt (s : State) (home : Nat) (locs : List Nat) (hk : State.Kept Q s) : OptKept Q Prod.snd
    (State.freeLoc s home locs) := by
  unfold State.freeLoc
  repeat' first
    | with_reducible assumption | dsimp only
    | (with_reducible first | exact optKept_none | apply optKept_some | apply optKept_ite | apply State.pick_kept)

theorem State.freeLoc_kept (s : State) (home : Nat) (locs : List Nat) {t : State} {n : Nat}
    (e : (State.freeLoc s home locs) = some (n, t)) (hk : State.Kept Q s) : State.Kept Q t :=
  (State.freeLoc_opt s home locs hk).use _ e

theorem State.localHome_opt (s : State) (f : Nat) (hk : State.Kept Q s) : OptKept Q Prod.snd (State.localHome s f) := by
  unfold State.localHome
  repeat' first
    | intro _ | with_reducible assumption | dsimp only | simp only [mk_kept]
    | (with_reducible first | apply optKept_map | apply optKept_findSome | (apply optKept_mono; apply State.freeLoc_opt))

theorem State.localHome_kept (s : State) (f : Nat) {t : State} {n : Nat} (e : (State.localHome s f) = some (n, t))
    (hk : State.Kept Q s) : State.Kept Q t :=
  (State.localHome_opt s f hk).use _ e

theorem State.neighbourHome_opt (s : State) (f : Nat) (hk : State.Kept Q s) : OptKept Q Prod.snd
    (State.neighbourHome s f) := by
  unfold State.neighbourHome
  repeat' first
    | intro _
    | (with_reducible first | assumption | apply optKept_findSome | (apply optKept_mono; apply State.freeLoc_opt))

theorem State.neighbourHome_kept (s : State) (f : Nat) {t : State} {n : Nat}
    (e : (State.neighbourHome s f) = some (n, t)) (hk : State.Kept Q s) : State.Kept Q t :=
  (State.neighbourHome_opt s f hk).use _ e

theorem State.lowerHome_opt (s : State) (f : Nat) (nearFirst : Bool) (hk : State.Kept Q s) : OptKept Q
    (fun x => x.2.2) (State.lowerHome s f nearFirst) := by
  unfold State.lowerHome
  repeat' first
    | intro _ | with_reducible assumption | dsimp only
    | (with_reducible first | apply optKept_ite | apply optKept_map | apply optKept_or | (apply optKept_mono; apply State.localHome_opt) | (apply optKept_mono; apply State.neighbourHome_opt))

theorem State.lowerHome_kept (s : State) (f : Nat) (nearFirst : Bool) {t : State} {n : Nat} {k : Nat}
    (e : (State.lowerHome s f nearFirst) = some (n, k, t)) (hk : State.Kept Q s) : State.Kept Q t :=
  (State.lowerHome_opt s f nearFirst hk).use _ e

theorem State.firstHome_opt (s : State) (f hint : Nat) (hk : State.Kept Q s) : OptKept Q (fun x => x.2.2)
    (State.firstHome s f hint) := by
  unfold State.firstHome
  repeat' first
    | intro _ | with_reducible assumption | dsimp only
    | (with_reducible first | apply optKept_some | apply optKept_ite | (apply State.freeLoc_kept; assumption) | (apply optKept_mono; apply State.lowerHome_opt))
    | split

theorem State.firstHome_kept (s : State) (f hint : Nat) {t : State} {n : Nat} {k : Nat}
    (e : (State.firstHome s f hint) = some (n, k, t)) (hk : State.Kept Q s) : State.Kept Q t :=
  (State.firstHome_opt s f hint hk).use _ e

theorem State.needLeaf_opt (s : State) (f page : Nat) (hk : State.Kept Q s) : OptKept Q (fun t => t)
    (State.needLeaf s f page) := by
  unfold State.needLeaf
  repeat' first
    | intro _ | with_reducible assumption | dsimp only | simp only [mk_kept]
    | (with_reducible first | apply optKept_some | apply optKept_map | (apply optKept_mono; apply State.localHome_opt))
    | split

theorem State.needLeaf_kept (s : State) (f page : Nat) {t : State}  (e : (State.needLeaf s f page) = some t)
    (hk : State.Kept Q s) : State.Kept Q t :=
  (State.needLeaf_opt s f page hk).use _ e

theorem State.trimLeaves_kept (s : State) (hk : State.Kept Q s) :
    State.Kept Q (State.trimLeaves s) := by
  unfold State.trimLeaves
  repeat' first | with_reducible assumption | dsimp only | simp only [mk_kept]

theorem State.pumpFar_kept (s : State) (y0 : Nat) (hk : State.Kept Q s) :
    State.Kept Q (State.pumpFar s y0) := by
  induction y0 generalizing s with
  | zero =>
    unfold State.pumpFar
    exact hk
  | succ n ih =>
    unfold State.pumpFar
    repeat' first
      | (with_reducible first | assumption | apply ih) | dsimp only | simp only [mk_kept]
      | with_reducible (apply State.request_kept; assumption) | split

theorem State.voidFar_kept (s : State) (p : TagUse → Bool) (hk : State.Kept Q s) :
    State.Kept Q (State.voidFar s p) := by
  unfold State.voidFar
  repeat' first | with_reducible assumption | dsimp only | simp only [mk_kept]

theorem State.sendFar_kept (s : State) (m : LinkMsg) (u : TagUse) (hk : State.Kept Q s) :
    State.Kept Q (State.sendFar s m u) := by
  unfold State.sendFar
  repeat' first
    | with_reducible assumption | dsimp only | simp only [mk_kept] | with_reducible apply State.pumpFar_kept

theorem State.askFar_kept (s : State) (f ua loc : Nat) (hk : State.Kept Q s) :
    State.Kept Q (State.askFar s f ua loc) := by
  unfold State.askFar
  repeat' first
    | (with_reducible first | assumption | apply ite_kept) | dsimp only | with_reducible apply State.sendFar_kept

theorem State.askAll_kept (s : State) (f ua n loc : Nat) (hk : State.Kept Q s) :
    State.Kept Q (State.askAll s f ua n loc) := by
  unfold State.askAll
  repeat' first | intro _ | (with_reducible first | assumption | apply State.askFar_kept | apply foldl_kept)

theorem State.useFetched_kept (s : State) (f ua n : Nat) (hk : State.Kept Q s) :
    State.Kept Q (State.useFetched s f ua n) := by
  unfold State.useFetched
  repeat' first | with_reducible assumption | dsimp only | simp only [mk_kept]

theorem State.putFetched_kept (s : State) (f ua : Nat) (bs : List Byte) (hk : State.Kept Q s) :
    State.Kept Q (State.putFetched s f ua bs) := by
  unfold State.putFetched
  repeat' first | with_reducible assumption | dsimp only | simp only [mk_kept]

theorem State.takeFar_kept (s : State) (f ua n loc : Nat) (hk : State.Kept Q s) :
    State.Kept Q (State.takeFar s f ua n loc).1 := by
  unfold State.takeFar
  repeat' first
    | (with_reducible first | assumption | apply ite_fst_kept) | dsimp only
    | (with_reducible first | apply State.askAll_kept | apply State.useFetched_kept)

theorem State.writeFar_kept (s : State) (f ua loc : Nat) (bs : List Byte) (hk : State.Kept Q s) :
    State.Kept Q (State.writeFar s f ua loc bs) := by
  unfold State.writeFar
  repeat' first
    | intro _ | with_reducible assumption | dsimp only
    | (with_reducible first | apply State.sealBlocks_kept | apply State.voidFar_kept | apply State.sendFar_kept | apply State.useFetched_kept | apply foldl_kept)

theorem State.askReplica_kept (s : State) (f ua dev len : Nat) (hk : State.Kept Q s) :
    State.Kept Q (State.askReplica s f ua dev len) := by
  unfold State.askReplica
  repeat' first
    | intro _ | with_reducible assumption | dsimp only
    | (with_reducible first | apply State.sendFar_kept | apply foldl_kept)

theorem State.startRefetch_kept (s : State) (b : PoisonBlk) (hk : State.Kept Q s) :
    State.Kept Q (State.startRefetch s b) := by
  unfold State.startRefetch
  repeat' first
    | (with_reducible first | assumption | apply ite_kept) | dsimp only
    | (with_reducible first | apply State.post_kept | apply State.postOwner_kept | apply State.askAll_kept | apply State.askReplica_kept)
    | split

theorem State.enterPoison_kept (s : State) (b : PoisonBlk) (n : Nat) (hk : State.Kept Q s) :
    State.Kept Q (State.enterPoison s b n) := by
  unfold State.enterPoison
  repeat' first
    | with_reducible assumption | dsimp only | simp only [mk_kept]
    | (with_reducible first | apply State.bump_kept | apply State.setPage_kept | apply State.startRefetch_kept)
    | split

theorem State.poisonOne_kept (s : State) (f ua : Nat) (hk : State.Kept Q s) :
    State.Kept Q (State.poisonOne s f ua) := by
  unfold State.poisonOne
  repeat' first | (with_reducible first | assumption | apply ite_kept | apply State.enterPoison_kept)

theorem State.poisonBlk_kept (s : State) (f ua : Nat) (hk : State.Kept Q s) :
    State.Kept Q (State.poisonBlk s f ua) := by
  unfold State.poisonBlk
  repeat' first | (with_reducible first | assumption | apply ite_kept | apply State.poisonOne_kept) | split

theorem State.settlePage_kept (s : State) (f page : Nat) (hk : State.Kept Q s) :
    State.Kept Q (State.settlePage s f page) := by
  unfold State.settlePage
  repeat' first | with_reducible assumption | dsimp only | with_reducible apply State.setPage_kept | split

theorem State.objectClean_kept (s : State) (f ua : Nat) (hk : State.Kept Q s) :
    State.Kept Q (State.objectClean s f ua) := by
  unfold State.objectClean
  repeat' first
    | (with_reducible first | assumption | apply ite_kept) | dsimp only | simp only [mk_kept]
    | (with_reducible first | apply State.post_kept | apply State.postOwner_kept) | split

theorem State.replayMarked_kept (s : State) (l : List (Nat × W32)) (hk : State.Kept Q s) :
    State.Kept Q (State.replayMarked s l) := by
  unfold State.replayMarked
  repeat' first
    | intro _ | (with_reducible first | assumption | apply ite_kept | apply State.replayStep_kept | apply foldl_kept)

theorem State.clearPoison_kept (s : State) (f ua n : Nat) (hk : State.Kept Q s) :
    State.Kept Q (State.clearPoison s f ua n) := by
  unfold State.clearPoison
  repeat' first
    | intro _ | (with_reducible first | assumption | apply ite_kept) | dsimp only | simp only [mk_kept]
    | (with_reducible first | apply State.settlePage_kept | apply State.objectClean_kept | apply State.replayMarked_kept | apply foldl_kept)

theorem State.touchPage_kept (s : State) (f : Nat) (p : Page) (hk : State.Kept Q s) :
    State.Kept Q (State.touchPage s f p).1 := by
  unfold State.touchPage
  repeat' first | with_reducible assumption | dsimp only | simp only [mk_kept] | with_reducible apply State.check_kept

theorem State.countHit_kept (s : State) (f page : Nat) (p : Page) (hk : State.Kept Q s) :
    State.Kept Q (State.countHit s f page p).1 := by
  unfold State.countHit
  repeat' first | (with_reducible first | assumption | apply ite_fst_kept) | dsimp only | simp only [mk_kept]

theorem State.homeRead_kept (s : State) (f ua n : Nat) (p : Page) (hk : State.Kept Q s) :
    State.Kept Q (State.homeRead s f ua n p).1 := by
  unfold State.homeRead
  repeat' first
    | (with_reducible first | assumption | apply ite_fst_kept) | dsimp only
    | (with_reducible first | apply State.cmRead_kept | apply State.mcRead_kept | apply State.freeBytes_kept | apply State.takeFar_kept | apply State.poisonBlk_kept | (apply fst_kept; assumption))
    | split

theorem State.readPage_kept (s : State) (f ua n : Nat) (hk : State.Kept Q s) :
    State.Kept Q (State.readPage s f ua n).1 := by
  unfold State.readPage
  repeat' first
    | (with_reducible first | assumption | apply ite_fst_kept) | dsimp only
    | (with_reducible first | apply State.setPage_kept | apply State.touchPage_kept | apply State.countHit_kept | apply State.homeRead_kept | (apply fst_kept; assumption))
    | split

theorem State.tuReadAux_kept (s : State) (f ua n : Nat) (y0 : Nat) (hk : State.Kept Q s) :
    State.Kept Q (State.tuReadAux s f ua n y0).1 := by
  induction y0 generalizing s f ua n with
  | zero =>
    unfold State.tuReadAux
    exact hk
  | succ n ih =>
    unfold State.tuReadAux
    repeat' first
      | (with_reducible first | assumption | apply ih | apply ite_fst_kept) | dsimp only
      | (with_reducible first | apply State.readPage_kept | (apply fst_kept; assumption)) | split

theorem State.fetchAll_kept (s : State) (f ua n : Nat) (hk : State.Kept Q s) :
    State.Kept Q (State.fetchAll s f ua n).1 := by
  unfold State.fetchAll
  repeat' first
    | intro _ | (with_reducible first | assumption | apply ite_fst_kept) | dsimp only
    | (with_reducible first | apply State.askAll_kept | apply foldl_fst_kept) | split

theorem State.tuRead_kept (s : State) (f ua n : Nat) (km : Bool) (hk : State.Kept Q s) :
    State.Kept Q (State.tuRead s f ua n km).1 := by
  unfold State.tuRead
  repeat' first
    | (with_reducible first | assumption | apply ite_fst_kept) | dsimp only
    | (with_reducible first | apply State.tuReadAux_kept | apply State.fetchAll_kept | (apply fst_kept; assumption))
    | split

theorem State.placeFirst_opt (s : State) (f : Nat) (p : Page) (hk : State.Kept Q s) : OptKept Q Prod.fst
    (State.placeFirst s f p) := by
  unfold State.placeFirst
  repeat' first
    | intro _ | (with_reducible first | assumption | apply ite_kept) | dsimp only
    | (with_reducible first | apply optKept_map | apply State.zero_kept | (apply optKept_mono; apply State.firstHome_opt))

theorem State.placeFirst_kept (s : State) (f : Nat) (p : Page) {t : State} {q : Page}
    (e : (State.placeFirst s f p) = some (t, q)) (hk : State.Kept Q s) : State.Kept Q t :=
  (State.placeFirst_opt s f p hk).use _ e

theorem State.storePage_kept (s : State) (f ua : Nat) (bs : List Byte) (p : Page) (fresh : Bool) (hk : State.Kept Q s) :
    State.Kept Q (State.storePage s f ua bs p fresh).1 := by
  unfold State.storePage
  repeat' first
    | (with_reducible first | assumption | apply ite_fst_kept) | dsimp only
    | (with_reducible first | apply State.write_kept | apply State.setPage_kept | apply State.takeFar_kept | apply State.writeFar_kept | apply State.touchPage_kept | (apply fst_kept; assumption))
    | split

theorem State.partialCheck_kept (s : State) (f ua n : Nat) (p : Page) (w : Writer) (hk : State.Kept Q s) :
    State.Kept Q (State.partialCheck s f ua n p w).1 := by
  unfold State.partialCheck
  repeat' first
    | (with_reducible first | assumption | apply ite_fst_kept) | dsimp only
    | (with_reducible first | apply State.mcRead_kept | apply State.poisonBlk_kept | (apply fst_kept; assumption))
    | split

theorem State.writePage_kept (s : State) (f ua : Nat) (bs : List Byte) (w : Writer) (hk : State.Kept Q s) :
    State.Kept Q (State.writePage s f ua bs w).1 := by
  unfold State.writePage
  repeat' first
    | intro _ | (with_reducible first | assumption | apply ite_kept | apply ite_fst_kept) | dsimp only
    | simp only [mk_kept]
    | (with_reducible first | apply optKept_some | apply optKept_ite | apply State.clearPoison_kept | (apply optKept_mono; apply State.placeFirst_opt) | apply State.storePage_kept | apply State.partialCheck_kept | (apply fst_kept; assumption) | (apply optUse_fst; assumption))
    | split

theorem State.tuWriteAux_kept (s : State) (f ua : Nat) (bs : List Byte) (w : Writer) (y0 : Nat) (hk : State.Kept Q s) :
    State.Kept Q (State.tuWriteAux s f ua bs w y0).1 := by
  induction y0 generalizing s f ua bs w with
  | zero =>
    unfold State.tuWriteAux
    exact hk
  | succ n ih =>
    unfold State.tuWriteAux
    repeat' first
      | (with_reducible first | assumption | apply ih | apply ite_fst_kept) | dsimp only
      | (with_reducible first | apply State.writePage_kept | (apply fst_kept; assumption)) | split

theorem State.fetchEnds_kept (s : State) (f ua n : Nat) (hk : State.Kept Q s) : State.Kept Q
    (State.fetchEnds s f ua n).1 := by
  have key : ∀ l : List Nat, State.Kept Q (l.foldl (fun (acc : State × Bool) b =>
      let r := acc.1.fetchAll f b 64
      (r.1, acc.2 || r.2)) (s, false)).1 := by
    intro l
    apply foldl_fst_kept
    · intro t b h
      exact pair_kept (State.fetchAll_kept _ _ _ _ h)
    · exact hk
  rw [State.fetchEnds.eq_1]
  exact key _

theorem State.tuWrite_kept (s : State) (f ua : Nat) (bs : List Byte) (w : Writer) (hk : State.Kept Q s) :
    State.Kept Q (State.tuWrite s f ua bs w).1 := by
  unfold State.tuWrite
  repeat' first
    | with_reducible assumption | dsimp only
    | (with_reducible first | apply State.tuWriteAux_kept | apply State.fetchEnds_kept | (apply fst_kept; assumption))
    | split

theorem State.readPlace_kept (s : State) (p : Place) (n : Nat) (hk : State.Kept Q s) :
    State.Kept Q (State.readPlace s p n).1 := by
  unfold State.readPlace
  repeat' first
    | (with_reducible first | assumption | apply ite_fst_kept) | dsimp only
    | (with_reducible first | apply State.cmRead_kept | apply State.tuRead_kept | (apply fst_kept; assumption))
    | split

theorem State.writePlace_kept (s : State) (p : Place) (bs : List Byte) (hk : State.Kept Q s) :
    State.Kept Q (State.writePlace s p bs).1 := by
  unfold State.writePlace
  repeat' first
    | (with_reducible first | assumption | apply ite_fst_kept) | dsimp only
    | (with_reducible first | apply State.write_kept | apply State.tuWrite_kept) | split

theorem State.move_kept (s : State) (m : Move) (hk : State.Kept Q s) :
    State.Kept Q (State.move s m).1 := by
  unfold State.move
  repeat' first
    | with_reducible assumption | dsimp only
    | (with_reducible first | apply State.readPlace_kept | apply State.writePlace_kept | (apply fst_kept; assumption))
    | split

theorem State.mapSystem_opt (s : State) (f ua n : Nat) (hk : State.Kept Q s) : OptKept Q (fun t => t)
    (State.mapSystem s f ua n) := by
  unfold State.mapSystem
  repeat' first
    | intro _
    | (with_reducible first | assumption | apply optKept_some | apply optKept_map | apply optKept_bindS | apply optKept_foldl | apply State.setPage_kept | (apply optKept_mono; apply State.needLeaf_opt))
    | split

theorem State.mapSystem_kept (s : State) (f ua n : Nat) {t : State}  (e : (State.mapSystem s f ua n) = some t)
    (hk : State.Kept Q s) : State.Kept Q t :=
  (State.mapSystem_opt s f ua n hk).use _ e

theorem State.dropPages_kept (s : State) (f ua n : Nat) (hk : State.Kept Q s) :
    State.Kept Q (State.dropPages s f ua n) := by
  unfold State.dropPages
  repeat' first
    | with_reducible assumption | dsimp only | simp only [mk_kept]
    | (with_reducible first | apply State.trimLeaves_kept | apply State.voidFar_kept)

theorem State.emptyTier_kept (s : State) (hk : State.Kept Q s) :
    State.Kept Q (State.emptyTier s) := by
  unfold State.emptyTier
  repeat' first
    | with_reducible assumption | dsimp only | simp only [mk_kept] | with_reducible apply State.voidFar_kept

theorem State.settleDrops_kept (s : State) (hk : State.Kept Q s) :
    State.Kept Q (State.settleDrops s) := by
  unfold State.settleDrops
  repeat' first
    | with_reducible assumption | dsimp only | simp only [mk_kept] | with_reducible apply State.trimLeaves_kept

theorem State.requestMove_kept (s : State) (f page home : Nat) (hk : State.Kept Q s) :
    State.Kept Q (State.requestMove s f page home) := by
  unfold State.requestMove
  repeat' first | with_reducible assumption | dsimp only | simp only [mk_kept]

theorem State.clearRequest_kept (s : State) (f page : Nat) (hk : State.Kept Q s) :
    State.Kept Q (State.clearRequest s f page) := by
  unfold State.clearRequest
  repeat' first | with_reducible assumption | dsimp only | simp only [mk_kept]

theorem State.moveTarget_opt (s : State) (f : Nat) (p : Page) (home : Nat) (hk : State.Kept Q s) : OptKept Q
    (fun x => x.2.2.2) (State.moveTarget s f p home) := by
  unfold State.moveTarget
  repeat' first
    | intro _ | with_reducible assumption | dsimp only
    | (with_reducible first | apply optKept_some | apply optKept_ite | apply optKept_map | (apply optKept_mono; apply State.freeLoc_opt) | (apply optKept_mono; apply State.localHome_opt) | (apply optKept_mono; apply State.neighbourHome_opt) | (apply optKept_mono; apply State.lowerHome_opt))

theorem State.moveTarget_kept (s : State) (f : Nat) (p : Page) (home : Nat) {t : State} {n : Nat} {k : Nat} {m :
    Nat} (e : (State.moveTarget s f p home) = some (n, k, m, t)) (hk : State.Kept Q s) : State.Kept Q t :=
  (State.moveTarget_opt s f p home hk).use _ e

theorem State.startCopy_kept (s : State) (f page : Nat) (p : Page) (h l : Nat) (hk : State.Kept Q s) :
    State.Kept Q (State.startCopy s f page p h l) := by
  unfold State.startCopy
  repeat' first
    | intro _
    | (with_reducible first | assumption | apply ite_kept | apply ite_fst_kept | apply State.cmRead_kept | apply State.mcRead_kept | apply State.askAll_kept | apply State.writeFar_kept | apply State.poisonBlk_kept | apply foldl_kept)

theorem State.startMove_kept (s : State) (f page : Nat) (p : Page) (home : Nat) (hk : State.Kept Q s) :
    State.Kept Q (State.startMove s f page p home) := by
  unfold State.startMove
  repeat' first
    | (with_reducible first | assumption | apply ite_kept | apply State.setPage_kept | apply State.requestMove_kept | apply State.clearRequest_kept | (apply State.moveTarget_kept; assumption) | apply State.startCopy_kept)
    | split

theorem State.copyMem_kept (s : State) (src dst n : Nat) (hk : State.Kept Q s) : State.Kept Q (s.copyMem src dst n)
    := ⟨hk.queue, State.copyMem_wf s src dst n hk.mem, hk.owners, hk.used, hk.burnt⟩

theorem State.applyHeld_kept (s : State) (f page : Nat) (y0 : Nat) (hk : State.Kept Q s) :
    State.Kept Q (State.applyHeld s f page y0) := by
  induction y0 generalizing s f page with
  | zero =>
    unfold State.applyHeld
    exact hk
  | succ n ih =>
    unfold State.applyHeld
    repeat' first
      | (with_reducible first | assumption | apply ih) | dsimp only | simp only [mk_kept]
      | (with_reducible first | apply State.setPage_kept | apply State.storePage_kept | (apply fst_kept; assumption))
      | split

theorem State.finishCopy_kept (s : State) (f page : Nat) (p : Page) (h l : Nat) (hk : State.Kept Q s) :
    State.Kept Q (State.finishCopy s f page p h l) := by
  unfold State.finishCopy
  repeat' first
    | (with_reducible first | assumption | apply ite_kept | apply State.write_kept | apply State.useFetched_kept | apply State.copyMem_kept)

theorem State.switchMove_kept (s : State) (f page : Nat) (p : Page) (h l : Nat) (hk : State.Kept Q s) :
    State.Kept Q (State.switchMove s f page p h l) := by
  unfold State.switchMove
  repeat' first
    | (with_reducible first | assumption | apply ite_kept) | dsimp only
    | (with_reducible first | apply State.bump_kept | apply State.setPage_kept | apply State.clearRequest_kept | apply State.applyHeld_kept | apply State.finishCopy_kept)

theorem State.abandonMove_kept (s : State) (f page : Nat) (p : Page) (hk : State.Kept Q s) :
    State.Kept Q (State.abandonMove s f page p) := by
  unfold State.abandonMove
  repeat' first
    | with_reducible assumption | dsimp only
    | (with_reducible first | apply State.setPage_kept | apply State.voidFar_kept | apply State.applyHeld_kept)

theorem State.farWriteFailed_kept (s : State) (f ua n : Nat) (hk : State.Kept Q s) :
    State.Kept Q (State.farWriteFailed s f ua n) := by
  unfold State.farWriteFailed
  repeat' first
    | intro _
    | (with_reducible first | assumption | apply ite_kept | apply State.poisonBlk_kept | apply State.abandonMove_kept | apply foldl_kept)
    | split

theorem State.cleanBytes_kept (s : State) (f ua : Nat) (bs : List Byte) (hk : State.Kept Q s) :
    State.Kept Q (State.cleanBytes s f ua bs) := by
  unfold State.cleanBytes
  repeat' first
    | (with_reducible first | assumption | apply ite_kept) | dsimp only
    | (with_reducible first | apply State.write_kept | apply State.wake_kept | apply State.putFetched_kept | apply State.writeFar_kept | apply State.clearPoison_kept)
    | split

theorem State.bindSow_kept (s : State) (c list entries : Nat) (hk : State.Kept Q s) :
    State.Kept Q (State.bindSow s c list entries) := by
  unfold State.bindSow
  repeat' first | with_reducible assumption | dsimp only | simp only [mk_kept]

theorem State.rewind_kept (s : State) (hk : State.Kept Q s) :
    State.Kept Q (State.rewind s) := by
  unfold State.rewind
  repeat' first | with_reducible assumption | dsimp only | simp only [mk_kept] | split

theorem State.startFill_kept (s : State) (hk : State.Kept Q s) :
    State.Kept Q (State.startFill s) := by
  unfold State.startFill
  repeat' first | (with_reducible first | assumption | apply ite_kept) | dsimp only | simp only [mk_kept] | split

theorem State.consume_kept (s : State) (k : Nat) (hk : State.Kept Q s) :
    State.Kept Q (State.consume s k) := by
  unfold State.consume
  repeat' first | with_reducible assumption | dsimp only | simp only [mk_kept]

/-! ### Slots -/

theorem State.updStream_kept (s : State) (c : Nat) (g : StreamRec → StreamRec) (hk : State.Kept Q s) :
    State.Kept Q (State.updStream s c g) := by
  unfold State.updStream
  repeat' first | with_reducible assumption | dsimp only | simp only [mk_kept]

theorem State.slotCheck_kept (s : State) (step : Option (Nat × W32)) (hk : State.Kept Q s) :
    State.Kept Q (State.slotCheck s step) := by
  unfold State.slotCheck
  repeat' first | (with_reducible first | assumption | apply State.check_kept)

theorem State.putBlock_kept (s : State) (slots : List Nat) (b e : Nat) (bs : List Byte) (hk : State.Kept Q s) :
    State.Kept Q (State.putBlock s slots b e bs) := by
  unfold State.putBlock
  repeat' first
    | with_reducible assumption | dsimp only | simp only [mk_kept] | with_reducible apply State.write_kept | split

theorem State.commitSlots_kept (s : State) (c f : Nat) (hk : State.Kept Q s) :
    State.Kept Q (State.commitSlots s c f) := by
  unfold State.commitSlots
  repeat' first | with_reducible assumption | dsimp only | simp only [mk_kept]

theorem State.requestOut_kept (s : State) (c : Nat) (hk : State.Kept Q s) :
    State.Kept Q (State.requestOut s c) := by
  unfold State.requestOut
  repeat' first
    | with_reducible assumption | dsimp only | simp only [mk_kept]
    | (with_reducible first | apply State.dropWrites_kept | apply State.updStream_kept | apply State.slotCheck_kept)

theorem State.makeRoom_kept (s : State) (f n : Nat) (y0 : List Nat) (hk : State.Kept Q s) :
    State.Kept Q (State.makeRoom s f n y0) := by
  induction y0 generalizing s f n with
  | nil =>
    unfold State.makeRoom
    exact hk
  | cons a l ih =>
    unfold State.makeRoom
    repeat' first | (with_reducible first | assumption | apply ih | apply ite_kept | apply State.requestOut_kept)

theorem State.takeSlots_kept (s : State) (c : Nat) (y0 : Nat) (hk : State.Kept Q s) :
    State.Kept Q (State.takeSlots s c y0).1 := by
  induction y0 generalizing s c with
  | zero =>
    unfold State.takeSlots
    exact hk
  | succ n ih =>
    unfold State.takeSlots
    repeat' first
      | (with_reducible first | assumption | apply ih) | dsimp only | simp only [mk_kept]
      | with_reducible apply State.pick_kept

theorem State.ensureStream_kept (s : State) (c : Nat) (hk : State.Kept Q s) :
    State.Kept Q (State.ensureStream s c) := by
  unfold State.ensureStream
  repeat' first
    | (with_reducible first | assumption | apply ite_kept) | dsimp only | simp only [mk_kept]
    | (with_reducible first | apply State.updStream_kept | apply State.slotCheck_kept | apply State.makeRoom_kept | apply State.takeSlots_kept)
    | split

theorem State.retryStreams_kept (s : State) (hk : State.Kept Q s) :
    State.Kept Q (State.retryStreams s) := by
  unfold State.retryStreams
  repeat' first | intro _ | (with_reducible first | assumption | apply State.ensureStream_kept | apply foldl_kept)

theorem State.freeSlots_kept (s : State) (c : Nat) (hk : State.Kept Q s) :
    State.Kept Q (State.freeSlots s c) := by
  unfold State.freeSlots
  repeat' first | with_reducible assumption | dsimp only | simp only [mk_kept]

theorem State.freeStream_kept (s : State) (c : Nat) (hk : State.Kept Q s) :
    State.Kept Q (State.freeStream s c) := by
  unfold State.freeStream
  repeat' first
    | with_reducible assumption | dsimp only | simp only [mk_kept] | with_reducible apply State.freeSlots_kept

theorem State.loseStream_kept (s : State) (c : Nat) (hk : State.Kept Q s) :
    State.Kept Q (State.loseStream s c) := by
  unfold State.loseStream
  repeat' first
    | with_reducible assumption | dsimp only | simp only [mk_kept]
    | (with_reducible first | apply State.endJob_kept | apply State.updStream_kept | apply State.retryStreams_kept | apply State.freeSlots_kept)

theorem State.observe_kept (s : State) (c : Nat) (hk : State.Kept Q s) :
    State.Kept Q (State.observe s c) := by
  unfold State.observe
  repeat' first
    | (with_reducible first | assumption | apply ite_kept) | dsimp only
    | (with_reducible first | apply State.setCtx_kept | apply State.stamp_kept | apply State.retryStreams_kept)
    | split

theorem State.proceed_kept (s : State) (c : Nat) (t : Strand) (tape : Nat) (pc : Int) (hk : State.Kept Q s) :
    State.Kept Q (State.proceed s c t tape pc) := by
  unfold State.proceed
  repeat' first
    | (with_reducible first | assumption | apply State.updStrand_kept | apply State.goto_kept | apply State.observe_kept)

theorem State.pass_kept (s : State) (c : Nat) (t : Strand) (hk : State.Kept Q s) :
    State.Kept Q (State.pass s c t) := by
  unfold State.pass
  repeat' first | (with_reducible first | assumption | apply State.proceed_kept)

/-! ### Engine -/

theorem State.block_kept (s : State) (m : Met) (w : Wait) (hk : State.Kept Q s) :
    State.Kept Q (State.block s m w) := by
  unfold State.block
  repeat' first | (with_reducible first | assumption | apply State.updStrand_kept | apply State.observe_kept)

theorem State.recordOut_kept (s : State) (c : Nat) (l : List (Nat × Nat)) (hk : State.Kept Q s) :
    State.Kept Q (State.recordOut s c l) := by
  unfold State.recordOut
  repeat' first | (with_reducible first | assumption | apply State.updRun_kept)

theorem State.endCmd_kept (s : State) (m : Met) (hk : State.Kept Q s) :
    State.Kept Q (State.endCmd s m) := by
  unfold State.endCmd
  repeat' first
    | (with_reducible first | assumption | apply State.bump32_kept | apply State.dropRun_kept | apply State.recordOut_kept)

theorem State.failCmd_kept (s : State) (m : Met) (code : Nat) (hk : State.Kept Q s) :
    State.Kept Q (State.failCmd s m code) := by
  unfold State.failCmd
  repeat' first | (with_reducible first | assumption | apply State.endJob_kept | apply State.endCmd_kept)

theorem State.startRun_kept (s : State) (m : Met) (furrow : List Nat) (hk : State.Kept Q s) :
    State.Kept Q (State.startRun s m furrow) := by
  unfold State.startRun
  repeat' first
    | (with_reducible first | assumption | apply State.updStrand_kept | apply State.updEngine_kept | apply State.recordOut_kept)

theorem State.updRunning_kept (s : State) (e : Nat) (g : Running → Running) (hk : State.Kept Q s) :
    State.Kept Q (State.updRunning s e g) := by
  unfold State.updRunning
  repeat' first | (with_reducible first | assumption | apply State.updEngine_kept)

theorem State.engChecks_kept (s : State) (v : Env) (mask units : Nat) (hk : State.Kept Q s) :
    State.Kept Q (State.engChecks s v mask units) := by
  unfold State.engChecks
  repeat' first
    | intro _ | (with_reducible first | assumption | apply ite_kept | apply State.check_kept | apply foldl_kept)

theorem State.readRanges_both (s : State) (m : Met) (ranges : List (Nat × Nat)) (hk : State.Kept Q s) :
    OptKept Q (fun t => t) (State.readRanges s m ranges).1 ∧ State.Kept Q (State.readRanges s m ranges).2 := by
  have hr : ∀ l : List (Nat × Nat), State.Kept Q (l.foldl (fun (acc : State × Option Nat) p =>
      let (s, poison) := acc.1.cmRead p.1 p.2
      (s, if poison then some p.1 else acc.2)) (s, none)).1 := by
    intro l
    apply foldl_fst_kept
    · intro s x h
      exact State.cmRead_kept _ _ _ h
    · exact hk
  unfold State.readRanges
  dsimp only
  split
  · exact ⟨optKept_some (State.failCmd_kept _ _ _ hk), hk⟩
  · split
    · rename_i e
      exact ⟨optKept_none, fst_kept e (hr _)⟩
    · rename_i e
      have h := fst_kept e (hr _)
      split
      · exact ⟨optKept_some (State.replayStep_kept _ _ (State.dropRun_kept _ _ h)), h⟩
      · exact ⟨optKept_some (State.failCmd_kept _ _ _ h), h⟩

theorem State.readRanges_some {s t u : State} {m : Met} {ranges : List (Nat × Nat)}
    (e : State.readRanges s m ranges = (some t, u))
    (hk : State.Kept Q s) : State.Kept Q t :=
  (State.readRanges_both s m ranges hk).1.use t (by rw [e])

theorem State.readRanges_kept {s t : State} {m : Met} {ranges : List (Nat × Nat)} {x : Option State}
    (e : State.readRanges s m ranges = (x, t)) (hk : State.Kept Q s) : State.Kept Q t := by
  have := (State.readRanges_both s m ranges hk).2
  rwa [e] at this

theorem State.putNibble_kept (s : State) (a n code : Nat) (hk : State.Kept Q s) :
    State.Kept Q (State.putNibble s a n code) := by
  unfold State.putNibble
  repeat' first | with_reducible assumption | dsimp only | with_reducible apply State.write_kept

theorem State.putRow_kept (s : State) (a n total : Nat) (codes : List Nat) (hk : State.Kept Q s) :
    State.Kept Q (State.putRow s a n total codes) := by
  unfold State.putRow
  repeat' first
    | intro _ | (with_reducible first | assumption | apply ite_kept | apply State.putNibble_kept | apply foldl_kept)

theorem State.countWatch_kept (s : State) (e n f : Nat) (sat : Bool) (hk : State.Kept Q s) :
    State.Kept Q (State.countWatch s e n f sat) := by
  unfold State.countWatch
  repeat' first
    | (with_reducible first | assumption | apply ite_kept) | dsimp only
    | (with_reducible first | apply State.setF_kept | apply State.post_kept | apply State.postOwner_kept | apply State.bump_kept | apply State.updEngine_kept)

theorem State.emit_kept (s : State) (v : Env) (chan fmt : Nat) (o : Output) (hk : State.Kept Q s) :
    State.Kept Q (State.emit s v chan fmt o).1 := by
  unfold State.emit
  repeat' first
    | intro _ | (with_reducible first | assumption | apply ite_kept) | dsimp only
    | (with_reducible first | apply State.countWatch_kept | apply foldl_kept) | split

theorem State.emitRow_kept (s : State) (v : Env) (chan fmt n : Nat) (f : Nat → Output) (hk : State.Kept Q s) :
    State.Kept Q (State.emitRow s v chan fmt n f).1 := by
  unfold State.emitRow
  repeat' first
    | intro _ | with_reducible assumption | dsimp only
    | (with_reducible first | apply State.emit_kept | apply foldl_fst_kept)

theorem State.skewReplay_kept (s : State) (c : Nat) (hk : State.Kept Q s) :
    State.Kept Q (State.skewReplay s c) := by
  unfold State.skewReplay
  repeat' first
    | (with_reducible first | assumption | apply State.bump_kept | apply State.updRun_kept | apply State.replayStep_kept)

theorem State.groupFault_kept (s : State) (m : Met) (i : Nat) (g : GroupFault) (hk : State.Kept Q s) :
    State.Kept Q (State.groupFault s m i g) := by
  unfold State.groupFault
  repeat' first
    | (with_reducible first | assumption | apply ite_kept) | dsimp only
    | (with_reducible first | apply State.setF_kept | apply State.post_kept | apply State.postOwner_kept | apply State.bump16_kept | apply State.endCmd_kept | apply State.failCmd_kept | apply State.skewReplay_kept)
    | split

theorem State.finishOp_kept (m : Met) (furrow : List Nat) (r : OpResult) (hk : r.1.Kept Q) : State.Kept Q
    (State.finishOp m furrow r) := by
  obtain ⟨s, r⟩ := r
  unfold State.finishOp
  split
  · rename_i e
    cases e
    exact State.startRun_kept _ _ _ hk
  · rename_i e
    cases e
    exact State.groupFault_kept _ _ _ _ hk

theorem runGroups_kept (f : State → Nat → OpResult) (hf : ∀ s i, State.Kept Q s → (f s i).1.Kept Q) (s : State)
    (i n : Nat)
    (hk : State.Kept Q s) : (runGroups f s i n).1.Kept Q := by
  induction n generalizing s i with
  | zero => exact hk
  | succ n ih =>
    unfold runGroups
    have h1 := hf s i hk
    split
    · rename_i e
      rw [e] at h1
      exact ih _ _ h1
    · exact h1

theorem State.withStep_kept (s : State) (m : Met) (f : State → State) (hk : State.Kept Q s)
    (hf : ∀ x0, State.Kept Q x0 → (f x0).Kept Q) :
    State.Kept Q (State.withStep s m f) := by
  unfold State.withStep
  repeat' first | (with_reducible first | assumption | apply hf | apply ite_kept | apply State.endJob_kept)

/-! ### Matrix -/

theorem State.elementwise_kept (s : State) (v : Env) (sw : MatS) (y : MatY) (batch : Nat)
    (acc : Nat → Nat → Nat → Int) (mul : Nat → Nat → ChanRec → Dy) (hk : State.Kept Q s) :
    State.Kept Q (State.elementwise s v sw y batch acc mul).1 := by
  unfold State.elementwise
  repeat' first
    | intro _ | with_reducible assumption | dsimp only
    | (with_reducible first | apply State.putRow_kept | apply State.emitRow_kept | apply runGroups_kept | apply foldl_kept)
    | split

theorem State.runMatrix_kept (s : State) (m : Met) (mask units : Nat) (f : State → OpResult) (hk : State.Kept Q s)
    (hf : ∀ x0, State.Kept Q x0 → (f x0).1.Kept Q) :
    State.Kept Q (State.runMatrix s m mask units f) := by
  unfold State.runMatrix
  repeat' first
    | intro _
    | (with_reducible first | assumption | apply hf | apply State.engChecks_kept | (apply State.readRanges_kept; assumption) | (apply State.readRanges_some; assumption) | apply State.finishOp_kept | apply State.withStep_kept)
    | split

theorem State.gateWork_kept (s : State) (v : Env) (w : List Nat) (hk : State.Kept Q s) :
    State.Kept Q (State.gateWork s v w).1 := by
  unfold State.gateWork
  repeat' first | with_reducible assumption | dsimp only | with_reducible apply State.elementwise_kept

theorem State.addWork_kept (s : State) (v : Env) (w : List Nat) (hk : State.Kept Q s) :
    State.Kept Q (State.addWork s v w).1 := by
  unfold State.addWork
  repeat' first | with_reducible assumption | dsimp only | with_reducible apply State.elementwise_kept

theorem State.sumqWork_kept (s : State) (v : Env) (w : List Nat) (hk : State.Kept Q s) :
    State.Kept Q (State.sumqWork s v w).1 := by
  unfold State.sumqWork
  repeat' first | with_reducible assumption | dsimp only | with_reducible apply State.elementwise_kept

theorem State.rmsnormWork_kept (s : State) (v : Env) (w : List Nat) (hk : State.Kept Q s) :
    State.Kept Q (State.rmsnormWork s v w).1 := by
  unfold State.rmsnormWork
  repeat' first | with_reducible assumption | dsimp only | with_reducible apply State.elementwise_kept

theorem State.projGroup_kept (s : State) (v : Env) (p : Proj) (bytes : List Byte) (i : Nat) (hk : State.Kept Q s) :
    State.Kept Q (State.projGroup s v p bytes i).1 := by
  unfold State.projGroup
  repeat' first
    | intro _ | (with_reducible first | assumption | apply ite_kept) | dsimp only
    | (with_reducible first | apply State.write_kept | apply State.bump16_kept | apply State.putRow_kept | apply State.emitRow_kept | apply foldl_kept)
    | split

theorem State.projGroups_kept (s : State) (v : Env) (p : Proj) (hk : State.Kept Q s) :
    State.Kept Q (State.projGroups s v p).1 := by
  unfold State.projGroups
  repeat' first | intro _ | (with_reducible first | assumption | apply runGroups_kept | apply State.projGroup_kept)

theorem State.report_kept (s : State) (c : Nat) (segs : List Nat) (hk : State.Kept Q s) :
    State.Kept Q (State.report s c segs) := by
  unfold State.report
  repeat' first
    | intro _ | (with_reducible first | assumption | apply ite_kept | apply State.consume_kept | apply foldl_kept)
    | split

theorem State.projRead_both (s : State) (m : Met) (later : List (Nat × Nat)) (got : List Byte) (l : List (Nat × Nat))
    (hk : State.Kept Q s) :
    (s.projRead m later got l).1.Kept Q ∧ OptKept Q (fun t => t) (s.projRead m later got l).2.1 := by
  induction l generalizing s got with
  | nil => exact ⟨hk, optKept_none⟩
  | cons q rest ih =>
    unfold State.projRead
    dsimp only
    split
    · exact ⟨hk, optKept_none⟩
    · have h := State.readRanges_both s m (s.furrowRanges q.1 q.2) hk
      split
      · rename_i e
        rw [e] at h
        exact ⟨hk, h.1⟩
      · rename_i e
        rw [e] at h
        exact ih _ _ (ite_kept h.2 (State.report_kept _ _ _ h.2))

theorem State.projRead_kept {s t : State} {m : Met} {later l : List (Nat × Nat)} {got g : List Byte} {x : Option State}
    {b : Bool} (e : s.projRead m later got l = (t, x, g, b)) (hk : State.Kept Q s) : State.Kept Q t := by
  have := (State.projRead_both s m later got l hk).1
  rwa [e] at this

theorem State.projRead_some {s t u : State} {m : Met} {later l : List (Nat × Nat)} {got g : List Byte}
    {b : Bool} (e : s.projRead m later got l = (u, some t, g, b)) (hk : State.Kept Q s) : State.Kept Q t :=
  (State.projRead_both s m later got l hk).2.use t (by rw [e])

theorem State.projFeed_both (s : State) (m : Met) (p : Proj) (i : Nat) (got : List Byte) (n : Nat)
    (hk : State.Kept Q s) :
    (s.projFeed m p i got n).1.Kept Q ∧ ∀ t, (s.projFeed m p i got n).2 = .ended t → State.Kept Q t := by
  induction n generalizing s i got with
  | zero => exact ⟨hk, fun t e => by cases e⟩
  | succ n ih =>
    unfold State.projFeed
    dsimp only
    split
    · rename_i e
      exact ⟨State.projRead_kept e hk, fun t h => by cases h; exact State.projRead_some e hk⟩
    · rename_i e
      exact ⟨State.projRead_kept e hk, fun t h => by cases h⟩
    · rename_i e
      have h := State.projRead_kept e hk
      split
      · rename_i e'
        exact ⟨fst_kept e' (State.projGroup_kept _ _ _ _ _ h), fun t h => by cases h⟩
      · rename_i e'
        exact ih _ _ _ (fst_kept e' (State.projGroup_kept _ _ _ _ _ h))

theorem State.projFeed_kept {s t : State} {m : Met} {p : Proj} {i n : Nat} {got : List Byte} {x : ProjStop}
    (e : s.projFeed m p i got n = (t, x)) (hk : State.Kept Q s) : State.Kept Q t := by
  have := (State.projFeed_both s m p i got n hk).1
  rwa [e] at this

theorem State.projFeed_some {s t u : State} {m : Met} {p : Proj} {i n : Nat} {got : List Byte}
    (e : s.projFeed m p i got n = (u, .ended t)) (hk : State.Kept Q s) : State.Kept Q t :=
  (State.projFeed_both s m p i got n hk).2 t (by rw [e])

theorem State.projOn_kept (s : State) (m : Met) (p : Proj) (r : Running) (hk : State.Kept Q s) :
    State.Kept Q (State.projOn s m p r) := by
  unfold State.projOn
  repeat' first
    | (with_reducible first | assumption | apply State.updRunning_kept | apply State.groupFault_kept | (apply State.projFeed_kept; assumption) | (apply State.projFeed_some; assumption))
    | split

theorem State.outerRows_kept (s : State) (v : Env) (x dy : MatX) (y : MatY) (hk : State.Kept Q s) :
    State.Kept Q (State.outerRows s v x dy y) := by
  unfold State.outerRows
  repeat' first
    | intro _ | with_reducible assumption | dsimp only
    | (with_reducible first | apply State.write_kept | apply foldl_kept)

theorem State.updateRows_kept (s : State) (v : Env) (w : MatY) (g : MatG) (sw : MatS) (y : MatY) (hk : State.Kept Q s) :
    State.Kept Q (State.updateRows s v w g sw y).1 := by
  unfold State.updateRows
  repeat' first
    | intro _ | with_reducible assumption | dsimp only
    | (with_reducible first | apply State.putRow_kept | apply State.emit_kept | apply runGroups_kept | apply foldl_kept | apply foldl_fst_kept)
    | split

theorem State.expelSlot_kept (s : State) (n j : Nat) (hk : State.Kept Q s) :
    State.Kept Q (State.expelSlot s n j) := by
  unfold State.expelSlot
  repeat' first | with_reducible assumption | dsimp only | with_reducible apply State.setReg_kept

theorem State.digestDone_kept (s : State) (w : DigestWait) (hk : State.Kept Q s) :
    State.Kept Q (State.digestDone s w) := by
  unfold State.digestDone
  repeat' first
    | with_reducible assumption | dsimp only
    | (with_reducible first | apply State.bump32_kept | apply State.boundary_kept | apply State.unblock_kept | apply State.endDigest_kept | apply State.pass_kept)
    | split

/-! ### Message -/

theorem State.takeRequest_kept (s : State) (r : Role) (rid typ : Nat) (hk : State.Kept Q s) :
    State.Kept Q (State.takeRequest s r rid typ) := by
  unfold State.takeRequest
  repeat' first | with_reducible assumption | dsimp only | simp only [mk_kept]

theorem State.message_kept (s : State) (r : Role) (rid typ n : Nat) (f : State → State × Nat × List Byte)
    (hk : State.Kept Q s) (hf : ∀ x0, State.Kept Q x0 → (f x0).1.Kept Q) :
    State.Kept Q (State.message s r rid typ n f) := by
  unfold State.message
  repeat' first
    | (with_reducible first | assumption | apply hf | apply ite_kept) | dsimp only
    | (with_reducible first | apply State.reply_kept | apply State.takeRequest_kept) | split

theorem State.messageLater_kept (s : State) (r : Role) (rid typ n : Nat) (f : State → State) (hk : State.Kept Q s)
    (hf : ∀ x0, State.Kept Q x0 → (f x0).Kept Q) :
    State.Kept Q (State.messageLater s r rid typ n f) := by
  unfold State.messageLater
  repeat' first
    | (with_reducible first | assumption | apply hf | apply ite_kept) | dsimp only
    | (with_reducible first | apply State.reply_kept | apply State.takeRequest_kept) | split

theorem State.eraseStore_kept (s : State) (hk : State.Kept Q s) :
    State.Kept Q (State.eraseStore s) := by
  unfold State.eraseStore
  repeat' first | with_reducible assumption | dsimp only | simp only [mk_kept_sx]

theorem State.keyCheck_kept (s : State) (hk : State.Kept Q s) :
    State.Kept Q (State.keyCheck s) := by
  unfold State.keyCheck
  repeat' first
    | (with_reducible first | assumption | apply ite_kept | apply State.check_kept | apply State.eraseStore_kept)

theorem State.sxChecks_kept (s : State) (hk : State.Kept Q s) :
    State.Kept Q (State.sxChecks s) := by
  unfold State.sxChecks
  repeat' first | (with_reducible first | assumption | apply State.check_kept | apply State.keyCheck_kept)

/-! ### Kv -/

theorem State.setDesc_kept (s : State) (fr : Nat) (d : FrameDesc) (hk : State.Kept Q s) :
    State.Kept Q (State.setDesc s fr d) := by
  unfold State.setDesc
  repeat' first | with_reducible assumption | dsimp only | simp only [mk_kept]

theorem State.updDesc_kept (s : State) (fr : Nat) (g : FrameDesc → FrameDesc) (hk : State.Kept Q s) :
    State.Kept Q (State.updDesc s fr g) := by
  unfold State.updDesc
  repeat' first | (with_reducible first | assumption | apply State.setDesc_kept)

theorem State.kmCheck_kept (s : State) (k : Nat) (hk : State.Kept Q s) :
    State.Kept Q (State.kmCheck s k) := by
  unfold State.kmCheck
  repeat' first | (with_reducible first | assumption | apply State.check_kept)

theorem State.takeFrame_opt (s : State) (f : Nat) (hk : State.Kept Q s) : OptKept Q Prod.snd (State.takeFrame s f) := by
  unfold State.takeFrame
  repeat' first
    | with_reducible assumption | dsimp only | simp only [mk_kept]
    | (with_reducible first | exact optKept_none | apply optKept_some | apply optKept_ite | (apply State.mapSystem_kept; assumption) | apply State.setDesc_kept | apply State.kmCheck_kept)
    | split

theorem State.takeFrame_kept (s : State) (f : Nat) {t : State} {n : Nat} (e : (State.takeFrame s f) = some (n, t))
    (hk : State.Kept Q s) : State.Kept Q t :=
  (State.takeFrame_opt s f hk).use _ e

theorem State.releaseFrame_kept (s : State) (fr : Nat) (hk : State.Kept Q s) :
    State.Kept Q (State.releaseFrame s fr) := by
  unfold State.releaseFrame
  repeat' first
    | with_reducible assumption | dsimp only | simp only [mk_kept]
    | (with_reducible first | apply State.dropPages_kept | apply State.setDesc_kept | apply State.kmCheck_kept)

theorem State.updKv_kept (s : State) (c : Nat) (g : KvRec → KvRec) (hk : State.Kept Q s) :
    State.Kept Q (State.updKv s c g) := by
  unfold State.updKv
  repeat' first | with_reducible assumption | dsimp only | simp only [mk_kept]

theorem State.putEntry_kept (s : State) (c k : Nat) (e : Option Nat) (hk : State.Kept Q s) :
    State.Kept Q (State.putEntry s c k e).1 := by
  unfold State.putEntry
  repeat' first
    | with_reducible assumption | dsimp only | simp only [mk_kept]
    | (with_reducible first | apply State.tuWrite_kept | (apply State.mapSystem_kept; assumption) | (apply fst_kept; assumption))
    | split

theorem State.clearEntry_kept (s : State) (c k : Nat) (hk : State.Kept Q s) :
    State.Kept Q (State.clearEntry s c k) := by
  unfold State.clearEntry
  repeat' first
    | with_reducible assumption | dsimp only | simp only [mk_kept] | with_reducible apply State.putEntry_kept

theorem State.unlinkNode_kept (s : State) (ix : Nat) (n : Node) (hk : State.Kept Q s) :
    State.Kept Q (State.unlinkNode s ix n) := by
  unfold State.unlinkNode
  repeat' first
    | with_reducible assumption | dsimp only | simp only [mk_kept] | with_reducible apply State.kmCheck_kept

theorem State.reclaimFrame_opt (s : State) (f : Nat) (hk : State.Kept Q s) : OptKept Q Prod.snd
    (State.reclaimFrame s f) := by
  unfold State.reclaimFrame
  repeat' first
    | with_reducible assumption | dsimp only
    | (with_reducible first | exact optKept_none | apply optKept_some | apply State.bump_kept | (apply State.mapSystem_kept; assumption) | apply State.dropPages_kept | apply State.setDesc_kept | apply State.kmCheck_kept | apply State.unlinkNode_kept)
    | split

theorem State.reclaimFrame_kept (s : State) (f : Nat) {t : State} {n : Nat}
    (e : (State.reclaimFrame s f) = some (n, t)) (hk : State.Kept Q s) : State.Kept Q t :=
  (State.reclaimFrame_opt s f hk).use _ e

theorem State.queueFlush_kept (s : State) (c fr : Nat) (hk : State.Kept Q s) :
    State.Kept Q (State.queueFlush s c fr) := by
  unfold State.queueFlush
  repeat' first | with_reducible assumption | dsimp only | simp only [mk_kept]

theorem State.grantFrame_kept (s : State) (c f fr : Nat) (hk : State.Kept Q s) :
    State.Kept Q (State.grantFrame s c f fr) := by
  unfold State.grantFrame
  repeat' first
    | with_reducible assumption | dsimp only | simp only [mk_kept]
    | (with_reducible first | apply State.post_kept | apply State.postOwner_kept | apply State.observe_kept | apply State.updKv_kept | apply State.queueFlush_kept)

theorem State.offerFrame_kept (s : State) (own : Nat) (y0 : List Nat) (hk : State.Kept Q s) :
    State.Kept Q (State.offerFrame s own y0) := by
  induction y0 generalizing s own with
  | nil =>
    unfold State.offerFrame
    exact hk
  | cons a l ih =>
    unfold State.offerFrame
    repeat' first
      | intro _
      | (with_reducible first | assumption | apply ih | exact optKept_none | apply optKept_ite | apply optKept_or | (apply optKept_mono; apply State.takeFrame_opt) | (apply optKept_mono; apply State.reclaimFrame_opt) | apply State.grantFrame_kept | (apply optUse_snd; assumption))
      | split

theorem State.freeFrame_kept (s : State) (fr : Nat) (hk : State.Kept Q s) :
    State.Kept Q (State.freeFrame s fr) := by
  unfold State.freeFrame
  repeat' first
    | with_reducible assumption | dsimp only
    | (with_reducible first | apply State.releaseFrame_kept | apply State.offerFrame_kept)

theorem State.unref_kept (s : State) (fr : Nat) (hk : State.Kept Q s) :
    State.Kept Q (State.unref s fr) := by
  unfold State.unref
  repeat' first
    | (with_reducible first | assumption | apply ite_kept | apply State.setDesc_kept | apply State.kmCheck_kept | apply State.freeFrame_kept)

theorem State.removeNode_kept (s : State) (ix : Nat) (hk : State.Kept Q s) :
    State.Kept Q (State.removeNode s ix) := by
  unfold State.removeNode
  repeat' first
    | (with_reducible first | assumption | apply State.updDesc_kept | apply State.unlinkNode_kept | apply State.unref_kept)
    | split

theorem State.starve_kept (s : State) (c f : Nat) (hk : State.Kept Q s) :
    State.Kept Q (State.starve s c f) := by
  unfold State.starve
  repeat' first
    | with_reducible assumption | dsimp only | simp only [mk_kept]
    | (with_reducible first | apply State.post_kept | apply State.postOwner_kept | apply State.bump_kept | apply State.observe_kept | apply State.updKv_kept)

theorem State.startFlush_kept (s : State) (c : Nat) (hk : State.Kept Q s) :
    State.Kept Q (State.startFlush s c) := by
  unfold State.startFlush
  repeat' first
    | intro _
    | (with_reducible first | assumption | apply optKept_or | (apply optKept_mono; apply State.takeFrame_opt) | (apply optKept_mono; apply State.reclaimFrame_opt) | apply State.queueFlush_kept | apply State.starve_kept | (apply optUse_snd; assumption))
    | split

theorem State.refuseFlush_kept (s : State) (c f fr : Nat) (hk : State.Kept Q s) :
    State.Kept Q (State.refuseFlush s c f fr) := by
  unfold State.refuseFlush
  repeat' first
    | with_reducible assumption | dsimp only
    | (with_reducible first | (apply State.reclaimFrame_kept; assumption) | apply State.queueFlush_kept | apply State.freeFrame_kept | apply State.starve_kept)
    | split

theorem State.applyEdit_kept (s : State) (c fr : Nat) (hk : State.Kept Q s) :
    State.Kept Q (State.applyEdit s c fr) := by
  unfold State.applyEdit
  repeat' first
    | (with_reducible first | assumption | apply ite_kept) | dsimp only
    | (with_reducible first | apply State.kmCheck_kept | apply State.updKv_kept | apply State.putEntry_kept | apply State.startFlush_kept | apply State.refuseFlush_kept | (apply fst_kept; assumption))
    | split

theorem State.flushCopy_kept (s : State) (c f fr : Nat) (hk : State.Kept Q s) :
    State.Kept Q (State.flushCopy s c f fr).1 := by
  unfold State.flushCopy
  repeat' first | with_reducible assumption | dsimp only | with_reducible apply State.move_kept

theorem State.stageTokens_kept (s : State) (r : KvRec) (layer t : Nat) (bs : List Byte) (y0 : Nat)
    (hk : State.Kept Q s) :
    State.Kept Q (State.stageTokens s r layer t bs y0) := by
  induction y0 generalizing s r layer t bs with
  | zero =>
    unfold State.stageTokens
    exact hk
  | succ n ih =>
    unfold State.stageTokens
    repeat' first | (with_reducible first | assumption | apply ih | apply State.write_kept)

theorem State.commitTokens_kept (s : State) (c n : Nat) (layers : List Nat) (hk : State.Kept Q s) :
    State.Kept Q (State.commitTokens s c n layers) := by
  unfold State.commitTokens
  repeat' first
    | intro _
    | (with_reducible first | assumption | apply ite_kept | apply State.kmCheck_kept | apply State.updKv_kept | apply State.startFlush_kept | apply State.stageTokens_kept | apply foldl_kept)

theorem State.openWalk_kept (s : State) (c sid : Nat) (hk : State.Kept Q s) :
    State.Kept Q (State.openWalk s c sid) := by
  unfold State.openWalk
  repeat' first
    | (with_reducible first | assumption | apply ite_kept) | dsimp only | simp only [mk_kept]
    | (with_reducible first | apply State.kmCheck_kept | apply State.updKv_kept)

theorem State.clearFrom_kept (s : State) (c k : Nat) (hk : State.Kept Q s) :
    State.Kept Q (State.clearFrom s c k) := by
  unfold State.clearFrom
  repeat' first
    | intro _ | with_reducible assumption | dsimp only
    | (with_reducible first | apply State.clearEntry_kept | apply State.unref_kept | apply foldl_kept)

theorem State.freeKv_kept (s : State) (c : Nat) (hk : State.Kept Q s) :
    State.Kept Q (State.freeKv s c) := by
  unfold State.freeKv
  repeat' first
    | with_reducible assumption | dsimp only | simp only [mk_kept]
    | (with_reducible first | apply State.observe_kept | apply State.updKv_kept | apply State.clearFrom_kept)

theorem State.loseFrame_kept (s : State) (fr : Nat) (hk : State.Kept Q s) :
    State.Kept Q (State.loseFrame s fr) := by
  unfold State.loseFrame
  repeat' first
    | intro _ | with_reducible assumption | dsimp only
    | (with_reducible first | apply State.updDesc_kept | apply State.kmCheck_kept | apply State.removeNode_kept | apply foldl_kept)
    | split

theorem State.tryPlaces_kept (s : State) (l : List (Place × Nat)) (hk : State.Kept Q s) :
    State.Kept Q (State.tryPlaces s l) := by
  unfold State.tryPlaces
  repeat' first
    | intro _ | (with_reducible first | assumption | apply ite_kept | apply ite_fst_kept) | dsimp only
    | (with_reducible first | apply State.fetchAll_kept | apply State.readPlace_kept | apply foldl_fst_kept | (apply fst_kept; assumption))
    | split

/-- What an operation comes to is kept: the state it answers in, and what a wait makes of a kept state. -/
def KvEnd.Kept (Q : Mark) : KvEnd → Prop
  | .answer s _ _ => s.Kept Q
  | .copy s _ => s.Kept Q
  | .wait f => ∀ s, State.Kept Q s → (f s).Kept Q

theorem kvEnd_ite {c : Prop} [Decidable c] {x y : KvEnd} (h1 : x.Kept Q) (h2 : y.Kept Q) :
    KvEnd.Kept Q (if c then x else y) := by
  split
  · exact h1
  · exact h2

theorem State.kvOp_kept (s : State) (r : Role) (rid : Nat) (cs : List Nat) (free publish : Bool) (mode : Option Bool)
    (f : State → Nat → KvEnd) (hk : State.Kept Q s) (hf : ∀ s n, State.Kept Q s → (f s n).Kept Q) :
    State.Kept Q (s.kvOp r rid cs free publish mode f) := by
  unfold State.kvOp
  dsimp only
  split
  · exact hk
  · apply State.messageLater_kept _ _ _ _ _ _ hk
    intro x hx
    repeat' with_reducible first | apply ite_kept | exact State.reply_kept _ _ _ _ _ _ hx
    split
    · exact State.reply_kept _ _ _ _ _ _ hx
    · rename_i g _
      have h := hf (x.kmCheck 2) g (State.kmCheck_kept _ _ hx)
      split
      · rename_i e
        rw [e] at h
        exact h _ hk
      · rename_i e
        rw [e] at h
        exact mk_kept.mpr h
      · rename_i e
        rw [e] at h
        exact State.reply_kept _ _ _ _ _ _ h

theorem kvDone_kept (s : State) (c : Nat) (res : List Byte) (hk : State.Kept Q s) : (kvDone s c res).Kept Q := hk

theorem kvEnd_kept (s : State) (res : List Byte) (copied : Bool) (hk : State.Kept Q s) : (kvEnd s res copied).Kept
    Q := by
  unfold kvEnd
  split
  · exact hk
  · exact hk

theorem kvCopy_kept (s : State) (res : List Byte) (hk : State.Kept Q s) : (KvEnd.copy s res).Kept Q := hk

theorem kvWait_kept (f : State → State) (h : ∀ s, State.Kept Q s → (f s).Kept Q) : (KvEnd.wait f).Kept Q := h

theorem kvUndo_kept (s t : State) (c : Nat) (hs : State.Kept Q s) (ht : State.Kept Q t) : (kvUndo s t c).Kept Q :=
  ⟨hs.queue, hs.mem, ht.owners, ht.used, ht.burnt⟩

theorem State.useKm_kept (s : State) (f : Nat) (hk : State.Kept Q s) :
    State.Kept Q (State.useKm s f) := by
  unfold State.useKm
  repeat' first | with_reducible assumption | dsimp only | simp only [mk_kept]

theorem State.markUse_kept (s : State) (ix f : Nat) (hk : State.Kept Q s) :
    State.Kept Q (State.markUse s ix f) := by
  unfold State.markUse
  repeat' first | with_reducible assumption | dsimp only | simp only [mk_kept]

theorem State.nameFrame_kept {s t : State} {f fr n : Nat} {b : Bool} (e : s.nameFrame f fr = .named t n b)
    (hk : State.Kept Q s) : State.Kept Q t := by
  unfold State.nameFrame at e
  dsimp only at e
  have h0 := State.kmCheck_kept s 0 hk
  split at e
  · cases e
    exact State.updDesc_kept _ _ _ h0
  · split at e
    · cases e
    · rename_i h
      have h1 := State.takeFrame_kept _ _ h h0
      split at e
      · rename_i h2
        cases e
        exact State.bump_kept _ _ _ _ _ _ _ (fst_kept h2 (State.move_kept _ _ h1))
      · cases e
      · cases e

theorem State.adoptBlocks_kept {s t : State} {c f tok tag parent hash k n m : Nat} {copied b : Bool}
    (e : s.adoptBlocks c f tok tag parent hash k copied n = .ok (t, m, b)) (hk : State.Kept Q s) : State.Kept Q t := by
  induction n generalizing s parent hash k copied with
  | zero => cases e; exact hk
  | succ n ih =>
    unfold State.adoptBlocks at e
    dsimp only at e
    have h0 := State.kmCheck_kept s 1 hk
    split at e
    · cases e; exact h0
    · split at e
      · cases e; exact h0
      · cases e
      · rename_i h1
        have h2 := State.nameFrame_kept h1 h0
        split at e
        · rename_i h3
          exact ih e (fst_kept h3 (State.putEntry_kept _ _ _ _ (State.markUse_kept _ _ _ h2)))
        · cases e; exact h0

theorem State.tokensRead_kept (s : State) (tok n : Nat) (hk : State.Kept Q s) :
    State.Kept Q (State.tokensRead s tok n).1 := by
  unfold State.tokensRead
  repeat' first
    | (with_reducible first | assumption | apply ite_fst_kept) | dsimp only
    | (with_reducible first | apply State.cmRead_kept | (apply fst_kept; assumption)) | split

theorem State.roomForNode_opt (s : State) (f parent : Nat) (hk : State.Kept Q s) : OptKept Q (fun t => t)
    (State.roomForNode s f parent) := by
  unfold State.roomForNode
  repeat' first
    | with_reducible assumption | dsimp only | simp only [mk_kept]
    | (with_reducible first | exact optKept_none | apply optKept_some | apply optKept_ite | apply State.bump_kept | apply State.removeNode_kept)
    | split

theorem State.roomForNode_kept (s : State) (f parent : Nat) {t : State} 
    (e : (State.roomForNode s f parent) = some t) (hk : State.Kept Q s) : State.Kept Q t :=
  (State.roomForNode_opt s f parent hk).use _ e

theorem State.publishBlock_kept (s : State) (c f tag parent hash k : Nat) (hk : State.Kept Q s) :
    State.Kept Q (State.publishBlock s c f tag parent hash k).1 := by
  unfold State.publishBlock
  repeat' first
    | (with_reducible first | assumption | apply ite_fst_kept) | dsimp only | simp only [mk_kept]
    | (with_reducible first | apply State.updDesc_kept | apply State.kmCheck_kept | apply State.markUse_kept | (apply State.nameFrame_kept; assumption) | (apply State.roomForNode_kept; assumption))
    | split

theorem State.publishBlocks_kept {s t : State} {c f tok tag parent hash k n m code : Nat} {copied b : Bool}
    (e : s.publishBlocks c f tok tag parent hash k copied n = .ok (t, m, code, b)) (hk : State.Kept Q s) : State.Kept Q t := by
  induction n generalizing s parent hash k copied with
  | zero => cases e; exact hk
  | succ n ih =>
    unfold State.publishBlocks at e
    dsimp only at e
    have h0 := State.publishBlock_kept s c f tag parent (s.blockHash f hash tag k tok) k hk
    split at e
    · rename_i h1
      cases e
      exact fst_kept h1 h0
    · cases e
    · rename_i h1
      exact ih e (fst_kept h1 h0)

theorem State.copyTokens_kept (s : State) (c n : Nat) (src : Nat → Place) (hk : State.Kept Q s) :
    State.Kept Q (State.copyTokens s c n src).1 := by
  unfold State.copyTokens
  repeat' first
    | intro _
    | (with_reducible first | assumption | apply ite_fst_kept | apply State.move_kept | apply foldl_fst_kept) | split

theorem State.pruneNodes_kept (s : State) (f n : Nat) (y0 : Nat) (hk : State.Kept Q s) :
    State.Kept Q (State.pruneNodes s f n y0).1 := by
  induction y0 generalizing s f n with
  | zero =>
    unfold State.pruneNodes
    exact hk
  | succ n ih =>
    unfold State.pruneNodes
    repeat' first | (with_reducible first | assumption | apply ih | apply State.removeNode_kept) | split

theorem State.forkBlocks_kept {s t : State} {src dst f k n : Nat} {copied b : Bool}
    (e : s.forkBlocks src dst f k copied n = .done t b) (hk : State.Kept Q s) : State.Kept Q t := by
  induction n generalizing s k copied with
  | zero => cases e; exact hk
  | succ n ih =>
    unfold State.forkBlocks at e
    split at e
    · exact ih e hk
    · split at e
      · cases e
      · cases e
      · rename_i h1
        have h2 := State.nameFrame_kept h1 hk
        split at e
        · rename_i h3
          exact ih e (fst_kept h3 (State.putEntry_kept _ _ _ _ h2))
        · cases e
        · cases e

theorem State.writeKmCtl_kept (s : State) (v : W32) (hk : State.Kept Q s) :
    State.Kept Q (State.writeKmCtl s v) := by
  unfold State.writeKmCtl
  repeat' first
    | (with_reducible first | assumption | apply ite_kept) | dsimp only | simp only [mk_kept]
    | with_reducible apply State.setF_kept

/-! ### Attention -/

theorem State.attPair_kept (s : State) (v : Env) (a : Attend) (hk : State.Kept Q s) :
    State.Kept Q (State.attPair s v a).1 := by
  unfold State.attPair
  repeat' first | intro _ | (with_reducible first | assumption | apply runGroups_kept) | split

theorem State.attOutputs_kept (s : State) (v : Env) (a : Attend) (tc : Nat) (kv : List Byte) (hk : State.Kept Q s) :
    State.Kept Q (State.attOutputs s v a tc kv) := by
  unfold State.attOutputs
  repeat' first
    | intro _ | (with_reducible first | assumption | apply ite_kept) | dsimp only | simp only [mk_kept]
    | (with_reducible first | apply State.bump16_kept | apply State.putRow_kept | apply State.emitRow_kept | apply foldl_kept)

theorem State.markPoison_kept (s : State) (f ua n c : Nat) (step : W32) (hk : State.Kept Q s) :
    State.Kept Q (State.markPoison s f ua n c step) := by
  unfold State.markPoison
  repeat' first | with_reducible assumption | dsimp only | simp only [mk_kept]

theorem State.grantLease_kept (s : State) (f ua c sid : Nat) (hk : State.Kept Q s) :
    State.Kept Q (State.grantLease s f ua c sid) := by
  unfold State.grantLease
  repeat' first | (with_reducible first | assumption | apply ite_kept) | dsimp only | simp only [mk_kept] | split

theorem State.attSupply_kept (s : State) (m : Met) (n : Nat) (bs : List Byte) (hk : State.Kept Q s) :
    State.Kept Q (State.attSupply s m n bs) := by
  unfold State.attSupply
  repeat' first
    | (with_reducible first | assumption | apply ite_kept | apply State.updRunning_kept | apply State.attOutputs_kept)

theorem State.attCommons_kept (s : State) (m : Met) (n x len : Nat) (hk : State.Kept Q s) :
    State.Kept Q (State.attCommons s m n x len) := by
  unfold State.attCommons
  repeat' first
    | (with_reducible first | assumption | apply State.cmRead_kept | apply State.failCmd_kept | apply State.attSupply_kept | (apply fst_kept; assumption))
    | split

theorem State.attUnified_kept (s : State) (m : Met) (n f ua len : Nat) (hk : State.Kept Q s) :
    State.Kept Q (State.attUnified s m n f ua len) := by
  unfold State.attUnified
  repeat' first
    | (with_reducible first | assumption | apply State.cmRead_kept | apply State.poisonBlk_kept | apply State.tuRead_kept | apply State.failCmd_kept | apply State.markPoison_kept | apply State.grantLease_kept | apply State.attSupply_kept | (apply fst_kept; assumption))
    | split

/-! ### StateEngine -/

theorem State.fillSlots_kept (s : State) (saved : List Byte) (zero : Bool) (y0 : List Nat) (hk : State.Kept Q s) :
    State.Kept Q (State.fillSlots s saved zero y0) := by
  induction y0 generalizing s saved zero with
  | nil =>
    unfold State.fillSlots
    exact hk
  | cons a l ih =>
    unfold State.fillSlots
    repeat' first | (with_reducible first | assumption | apply ih | apply State.write_kept)

theorem State.clamped_kept (s : State) (n f : Nat) (hk : State.Kept Q s) :
    State.Kept Q (State.clamped s n f) := by
  unfold State.clamped
  repeat' first
    | (with_reducible first | assumption | apply ite_kept | apply State.bumpQuiet_kept | apply State.post_kept | apply State.postOwner_kept | (apply fst_kept; assumption))
    | split

theorem State.scanLoad_kept (s : State) (v : Env) (c : Scan) (i : Nat) (y0 : List ScanLayer) (hk : State.Kept Q s) :
    State.Kept Q (State.scanLoad s v c i y0).1 := by
  induction y0 generalizing s v c i with
  | nil =>
    unfold State.scanLoad
    exact hk
  | cons a l ih =>
    unfold State.scanLoad
    repeat' first
      | intro _ | (with_reducible first | assumption | apply ih | apply ite_fst_kept) | dsimp only
      | simp only [mk_kept] | (with_reducible first | apply runGroups_kept | (apply fst_kept; assumption)) | split

theorem State.scanStep_kept (s : State) (v : Env) (c : Scan) (y : ScanLayer) (g : SeStage) (bs : List Block)
    (t : Nat) (marked : Bool) (x : List Int) (hk : State.Kept Q s) :
    State.Kept Q (State.scanStep s v c y g bs t marked x).1 := by
  unfold State.scanStep
  repeat' first
    | intro _ | (with_reducible first | assumption | apply ite_kept) | dsimp only
    | (with_reducible first | apply State.emitRow_kept | apply State.clamped_kept | apply foldl_fst_kept)

theorem State.scanLayer_kept (s : State) (v : Env) (c : Scan) (slots : List Nat) (marks : Nat → Bool)
    (renorm last : Bool) (y : ScanLayer) (xs : List (List Int)) (hk : State.Kept Q s) :
    State.Kept Q (State.scanLayer s v c slots marks renorm last y xs).1 := by
  unfold State.scanLayer
  repeat' first
    | intro _ | (with_reducible first | assumption | apply ite_kept) | dsimp only
    | (with_reducible first | apply State.putBlock_kept | apply State.putRow_kept | apply State.scanStep_kept | apply foldl_kept | apply foldl_fst_kept)
    | split

theorem State.scanRun_kept (s : State) (v : Env) (c : Scan) (slots : List Nat) (ls : List ScanLayer)
    (hk : State.Kept Q s) :
    State.Kept Q (State.scanRun s v c slots ls) := by
  unfold State.scanRun
  repeat' first
    | intro _ | with_reducible assumption | dsimp only
    | (with_reducible first | apply State.scanLayer_kept | apply foldl_fst_kept)

theorem State.withStream_kept (s : State) (m : Met) (f : State → StreamRec → State) (hk : State.Kept Q s)
    (hf : ∀ x0 x1, State.Kept Q x0 → (f x0 x1).Kept Q) :
    State.Kept Q (State.withStream s m f) := by
  unfold State.withStream
  repeat' first
    | intro _ | (with_reducible first | assumption | apply hf | apply ite_kept) | dsimp only
    | (with_reducible first | apply State.slotCheck_kept | apply State.ensureStream_kept | apply State.block_kept | apply State.failCmd_kept | apply State.withStep_kept)
    | split

theorem State.holdRun_kept (s : State) (x : StX) (h : StH) (y : RowY) (slots : List Nat) (nblk : Nat)
    (hk : State.Kept Q s) :
    State.Kept Q (State.holdRun s x h y slots nblk) := by
  unfold State.holdRun
  repeat' first
    | intro _ | with_reducible assumption | dsimp only
    | (with_reducible first | apply State.putBlock_kept | apply State.putRow_kept | apply foldl_kept)

theorem State.stOp_kept (s : State) (r : Role) (rid ctx : Nat) (f : State → StreamRec → State)
    (hk : State.Kept Q s) (hf : ∀ x0 x1, State.Kept Q x0 → (f x0 x1).Kept Q) :
    State.Kept Q (State.stOp s r rid ctx f) := by
  unfold State.stOp
  repeat' first
    | intro _ | (with_reducible first | assumption | apply hf | apply ite_fst_kept) | dsimp only
    | (with_reducible first | apply State.slotCheck_kept | apply State.message_kept) | split

/-! ### Window -/

theorem State.putOut_kept (s : State) (w : WinCmd) (oy ox n code : Nat) (hk : State.Kept Q s) :
    State.Kept Q (State.putOut s w oy ox n code) := by
  unfold State.putOut
  repeat' first
    | (with_reducible first | assumption | apply ite_kept | apply State.write_kept | apply State.putNibble_kept)

theorem State.winBlock_kept (s : State) (v : Env) (w : WinCmd) (map : List (List Byte)) (gs : List WinGroup)
    (b : Nat) (hk : State.Kept Q s) :
    State.Kept Q (State.winBlock s v w map gs b) := by
  unfold State.winBlock
  repeat' first
    | intro _ | with_reducible assumption | dsimp only
    | (with_reducible first | apply State.emit_kept | apply State.putOut_kept | apply foldl_kept)

theorem State.winRun_kept (s : State) (v : Env) (w : WinCmd) (b n : Nat) (hk : State.Kept Q s) :
    State.Kept Q (State.winRun s v w b n).1 := by
  unfold State.winRun
  repeat' first
    | intro _ | with_reducible assumption | dsimp only
    | (with_reducible first | apply State.winBlock_kept | apply foldl_kept) | split

theorem State.recordHalo_kept (s : State) (m : Met) (w : WinCmd) (hk : State.Kept Q s) :
    State.Kept Q (State.recordHalo s m w) := by
  unfold State.recordHalo
  repeat' first | with_reducible assumption | dsimp only | with_reducible apply State.updRun_kept | split

theorem State.runWindow_kept (s : State) (m : Met) (hk : State.Kept Q s) :
    State.Kept Q (State.runWindow s m) := by
  unfold State.runWindow
  repeat' first
    | intro _ | (with_reducible first | assumption | apply ite_kept) | dsimp only
    | (with_reducible first | apply State.setF_kept | apply State.bump16_kept | apply State.startRun_kept | apply State.engChecks_kept | (apply State.readRanges_kept; assumption) | (apply State.readRanges_some; assumption) | apply State.finishOp_kept | apply State.withStep_kept | apply State.winRun_kept | apply State.recordHalo_kept)
    | split

theorem State.winRow_kept (s : State) (m : Met) (w : WinCmd) (q : Nat) (hk : State.Kept Q s) :
    State.Kept Q (State.winRow s m w q).1 := by
  unfold State.winRow
  repeat' first
    | (with_reducible first | assumption | apply ite_fst_kept) | dsimp only
    | (with_reducible first | (apply State.readRanges_kept; assumption) | (apply State.readRanges_some; assumption) | apply State.groupFault_kept | apply State.winRun_kept | (apply fst_kept; assumption))
    | split

theorem State.remoteRaise_opt (s : State) (f d i : Nat) (v : W32) (hk : State.Kept Q s) : OptKept Q (fun t => t)
    (State.remoteRaise s f d i v) := by
  unfold State.remoteRaise
  repeat' first
    | (with_reducible first | assumption | exact optKept_none | apply optKept_some | apply optKept_ite | apply State.raiseShared_kept | apply State.sendMsg_kept)

theorem State.remoteRaise_kept (s : State) (f d i : Nat) (v : W32) {t : State} 
    (e : (State.remoteRaise s f d i v) = some t) (hk : State.Kept Q s) : State.Kept Q t :=
  (State.remoteRaise_opt s f d i v hk).use _ e

theorem State.sendWrites_opt (s : State) (f : Nat) (own : Bool) (d a : Nat) (use : TagUse)
    (l : List (Nat × List Byte)) (hk : State.Kept Q s) : OptKept Q (fun t => t) (State.sendWrites s f own d a use l) := by
  unfold State.sendWrites
  repeat' first
    | intro _
    | (with_reducible first | assumption | apply optKept_some | apply optKept_bindS | apply optKept_foldl | (apply optKept_mono; apply State.request_opt))

theorem State.sendWrites_kept (s : State) (f : Nat) (own : Bool) (d a : Nat) (use : TagUse)
    (l : List (Nat × List Byte)) {t : State}  (e : (State.sendWrites s f own d a use l) = some t) (hk : State.Kept Q s) : State.Kept Q t :=
  (State.sendWrites_opt s f own d a use l hk).use _ e

/-! ### Queue -/

theorem State.dxCheck_kept (s : State) (k : Nat) (hk : State.Kept Q s) :
    State.Kept Q (State.dxCheck s k) := by
  unfold State.dxCheck
  repeat' first | (with_reducible first | assumption | apply State.check_kept)

theorem State.queueJob_kept (s : State) (c entry : Nat) (hail gate : Option Nat) (hk : State.Kept Q s) :
    State.Kept Q (State.queueJob s c entry hail gate) := by
  unfold State.queueJob
  repeat' first
    | with_reducible assumption | dsimp only
    | (with_reducible first | apply State.bump32_kept | apply State.setCtx_kept | apply State.dxCheck_kept) | split

theorem State.settleEngines_kept (s : State) (hk : State.Kept Q s) :
    State.Kept Q (State.settleEngines s) := by
  unfold State.settleEngines
  repeat' first
    | intro _ | (with_reducible first | assumption | apply ite_kept) | dsimp only | simp only [mk_kept]
    | (with_reducible first | apply State.updEngine_kept | apply foldl_kept)

end Sys2Proof.Machine
end

