-- ==== Sys2Proof/Laws/KeptBlocks.lean ====
section
/-!
SUPPORT. State.Kept for the operations of the other blocks: island, claims, strands, dispatcher, power, TU and DM's host side,
links, image, Sextant, faults, soundings, registers and host port.
-/
namespace Sys2Proof.Machine

variable {Q : Mark}

/-! ### Acoustic -/

theorem State.stopAf_kept (s : State) (hk : State.Kept Q s) :
    State.Kept Q (State.stopAf s) := by
  unfold State.stopAf
  repeat' first | with_reducible assumption | dsimp only | simp only [mk_kept]

theorem State.startAf_kept (s : State) (hk : State.Kept Q s) :
    State.Kept Q (State.startAf s) := by
  unfold State.startAf
  repeat' first
    | with_reducible assumption | dsimp only | simp only [mk_kept] | with_reducible apply State.stopAf_kept

theorem State.stopArray_kept (s : State) (hk : State.Kept Q s) :
    State.Kept Q (State.stopArray s) := by
  unfold State.stopArray
  repeat' first | with_reducible assumption | dsimp only | simp only [mk_kept]

theorem State.settleArray_kept (s : State) (hk : State.Kept Q s) :
    State.Kept Q (State.settleArray s) := by
  unfold State.settleArray
  repeat' first
    | (with_reducible first | assumption | apply ite_kept) | dsimp only | simp only [mk_kept]
    | (with_reducible first | apply State.setF_kept | apply State.pick_kept | apply State.stopArray_kept) | split

theorem State.marker_kept (s : State) (t : Stream) (kind index short : Nat) (hk : State.Kept Q s) :
    State.Kept Q (State.marker s t kind index short) := by
  unfold State.marker
  repeat' first | with_reducible assumption | dsimp only | simp only [mk_kept] | with_reducible apply State.write_kept

theorem State.feed_kept (s : State) (t : Stream) (n : Nat) (hk : State.Kept Q s) :
    State.Kept Q (State.feed s t n).1 := by
  unfold State.feed
  repeat' first
    | (with_reducible first | assumption | apply ite_kept) | dsimp only | simp only [mk_kept]
    | (with_reducible first | apply State.write_kept | apply State.raiseShared_kept | apply State.marker_kept) | split

theorem State.feedAll_kept (s : State) (t : Stream) (y0 : Nat) (hk : State.Kept Q s) :
    State.Kept Q (State.feedAll s t y0).1 := by
  induction y0 generalizing s t with
  | zero =>
    unfold State.feedAll
    exact hk
  | succ n ih =>
    unfold State.feedAll
    repeat' first | (with_reducible first | assumption | apply ih | apply ite_fst_kept | apply State.feed_kept)

theorem State.closeStreams_kept (s : State) (p : Stream → Bool) (hk : State.Kept Q s) :
    State.Kept Q (State.closeStreams s p) := by
  unfold State.closeStreams
  repeat' first
    | intro _ | with_reducible assumption | dsimp only | simp only [mk_kept]
    | (with_reducible first | apply State.marker_kept | apply foldl_kept)

theorem State.ringChecks_kept (s : State) (hk : State.Kept Q s) :
    State.Kept Q (State.ringChecks s) := by
  unfold State.ringChecks
  repeat' first | (with_reducible first | assumption | apply ite_kept | apply State.check_kept)

theorem State.openStream_kept (s : State) (h c anchor lookback : Nat) (hk : State.Kept Q s) :
    State.Kept Q (State.openStream s h c anchor lookback) := by
  unfold State.openStream
  repeat' first
    | (with_reducible first | assumption | apply ite_kept) | dsimp only | simp only [mk_kept]
    | (with_reducible first | apply State.wake_kept | apply State.marker_kept | apply State.feedAll_kept | apply State.closeStreams_kept | apply State.ringChecks_kept)
    | split

theorem State.commitBeam_kept (s : State) (hk : State.Kept Q s) :
    State.Kept Q (State.commitBeam s) := by
  unfold State.commitBeam
  repeat' first | with_reducible assumption | dsimp only | simp only [mk_kept]

theorem State.loChecks_kept (s : State) (hk : State.Kept Q s) :
    State.Kept Q (State.loChecks s) := by
  unfold State.loChecks
  repeat' first | (with_reducible first | assumption | apply State.check_kept)

theorem State.openSession_kept (s : State) (hk : State.Kept Q s) :
    State.Kept Q (State.openSession s) := by
  unfold State.openSession
  repeat' first | with_reducible assumption | dsimp only | simp only [mk_kept] | split

/-! ### Camera -/

theorem State.updCamera_kept (s : State) (p : Nat) (f : IpPort → IpPort) (hk : State.Kept Q s) :
    State.Kept Q (State.updCamera s p f) := by
  unfold State.updCamera
  repeat' first | with_reducible assumption | dsimp only | simp only [mk_kept]

theorem State.takeGate_kept (s : State) (hk : State.Kept Q s) :
    State.Kept Q (State.takeGate s) := by
  unfold State.takeGate
  repeat' first | (with_reducible first | assumption | apply ite_kept) | dsimp only | simp only [mk_kept]

theorem State.settleCameras_kept (s : State) (hk : State.Kept Q s) :
    State.Kept Q (State.settleCameras s) := by
  unfold State.settleCameras
  repeat' first
    | intro _ | (with_reducible first | assumption | apply ite_kept) | dsimp only
    | (with_reducible first | apply State.updCamera_kept | apply State.takeGate_kept | apply foldl_kept)

theorem State.writeRows_kept (s : State) (f : Frame) (o : OutRec) (done : Nat) (hk : State.Kept Q s) :
    State.Kept Q (State.writeRows s f o done) := by
  unfold State.writeRows
  repeat' first
    | intro _ | with_reducible assumption | dsimp only
    | (with_reducible first | apply State.write_kept | apply foldl_kept)

theorem State.nearRatio_kept (s : State) (r : Dy) (hk : State.Kept Q s) :
    State.Kept Q (State.nearRatio s r).1 := by
  unfold State.nearRatio
  repeat' first
    | (with_reducible first | assumption | apply ite_fst_kept) | dsimp only | with_reducible apply State.pick_kept

theorem State.endOutputs_kept (s : State) (port : Nat) (f : Frame) (status linep r100 r120 verdict : Nat)
    (hk : State.Kept Q s) :
    State.Kept Q (State.endOutputs s port f status linep r100 r120 verdict) := by
  unfold State.endOutputs
  repeat' first
    | intro _ | (with_reducible first | assumption | apply ite_kept) | dsimp only
    | (with_reducible first | apply State.write_kept | apply State.post_kept | apply State.postOwner_kept | apply State.raiseShared_kept | apply State.wake_kept | apply foldl_kept)

theorem State.gateMiss_kept (s : State) (hk : State.Kept Q s) :
    State.Kept Q (State.gateMiss s) := by
  unfold State.gateMiss
  repeat' first | (with_reducible first | assumption | apply State.bump_kept)

theorem State.submitGate_kept (s : State) (serial : W32) (hk : State.Kept Q s) :
    State.Kept Q (State.submitGate s serial) := by
  unfold State.submitGate
  repeat' first
    | (with_reducible first | assumption | apply ite_kept | apply State.bump_kept | apply State.queueJob_kept | apply State.settleEngines_kept | apply State.gateMiss_kept)

theorem State.noFlicker_kept (s : State) (hk : State.Kept Q s) :
    State.Kept Q (State.noFlicker s).1 := by
  unfold State.noFlicker
  repeat' first | with_reducible assumption | dsimp only | with_reducible apply State.draw_kept

theorem State.cutFrame_kept (s : State) (p status : Nat) (hk : State.Kept Q s) :
    State.Kept Q (State.cutFrame s p status) := by
  unfold State.cutFrame
  repeat' first
    | (with_reducible first | assumption | apply ite_kept) | dsimp only
    | (with_reducible first | apply State.bump_kept | apply State.updCamera_kept | apply State.settleCameras_kept | apply State.endOutputs_kept | apply State.gateMiss_kept | apply State.noFlicker_kept)
    | split

theorem State.ipRead_kept (s : State) (a n : Nat) (hk : State.Kept Q s) :
    State.Kept Q (State.ipRead s a n).1 := by
  unfold State.ipRead
  repeat' first
    | (with_reducible first | assumption | apply ite_fst_kept) | dsimp only
    | (with_reducible first | apply State.cmRead_kept | (apply fst_kept; assumption)) | split

theorem State.flicker_kept (s : State) (port linep : Nat) (f : Frame) (hk : State.Kept Q s) :
    State.Kept Q (State.flicker s port linep f).1 := by
  rw [State.flicker.eq_1]
  split
  · exact pair_kept (State.noFlicker_kept _ hk)
  · exact pair_kept (State.nearRatio_kept _ _ (State.nearRatio_kept _ _ hk))

theorem State.gateVerdict_kept (s : State) (hk : State.Kept Q s) :
    State.Kept Q (State.gateVerdict s) := by
  unfold State.gateVerdict
  repeat' first
    | (with_reducible first | assumption | apply ite_kept) | dsimp only | simp only [mk_kept]
    | (with_reducible first | apply State.raiseHail_kept | apply State.ipRead_kept | (apply fst_kept; assumption))
    | split

theorem State.writeIpGate_kept (s : State) (a : Nat) (hi : Bool) (v : W32) (hk : State.Kept Q s) :
    State.Kept Q (State.writeIpGate s a hi v) := by
  unfold State.writeIpGate
  repeat' first
    | with_reducible assumption | dsimp only | simp only [mk_kept]
    | (with_reducible first | apply State.putWord_kept | apply State.settleCameras_kept)

/-! ### Claims -/

theorem State.settle_kept (s : State) (hk : State.Kept Q s) :
    State.Kept Q (State.settle s) := by
  unfold State.settle
  repeat' first
    | (with_reducible first | assumption | apply State.settleEngines_kept | apply State.settleArray_kept | apply State.settleCameras_kept)

theorem State.dropClaim_kept (s : State) (h : Nat) (hk : State.Kept Q s) :
    State.Kept Q (State.dropClaim s h) := by
  unfold State.dropClaim
  repeat' first
    | (with_reducible first | assumption | apply ite_kept) | dsimp only | simp only [mk_kept]
    | with_reducible apply State.closeStreams_kept

theorem State.clearClaim_kept (s : State) (h : Nat) (hk : State.Kept Q s) :
    State.Kept Q (State.clearClaim s h) := by
  unfold State.clearClaim
  repeat' first
    | (with_reducible first | assumption | apply ite_kept | apply State.settle_kept | apply State.dropClaim_kept)

theorem State.releaseHail_kept (s : State) (h : Nat) (hk : State.Kept Q s) :
    State.Kept Q (State.releaseHail s h) := by
  unfold State.releaseHail
  repeat' first
    | (with_reducible first | assumption | apply ite_kept) | dsimp only
    | (with_reducible first | apply State.raiseHail_kept | apply State.clearClaim_kept) | split

theorem State.launchRefused_kept (s : State) (h code : Nat) (hk : State.Kept Q s) :
    State.Kept Q (State.launchRefused s h code) := by
  unfold State.launchRefused
  repeat' first | (with_reducible first | assumption | apply State.postPw_kept)

theorem State.launch_kept (s : State) (h : Nat) (e : HailEntry) (anchor : Nat) (hk : State.Kept Q s) :
    State.Kept Q (State.launch s h e anchor) := by
  unfold State.launch
  repeat' first
    | (with_reducible first | assumption | apply ite_kept) | dsimp only
    | (with_reducible first | apply State.queueJob_kept | apply State.settleEngines_kept | apply State.openStream_kept | apply State.launchRefused_kept)
    | split

theorem State.standClaim_kept (s : State) (c : Claim) (hk : State.Kept Q s) :
    State.Kept Q (State.standClaim s c) := by
  unfold State.standClaim
  repeat' first
    | (with_reducible first | assumption | apply ite_kept) | dsimp only | simp only [mk_kept]
    | (with_reducible first | apply State.postPw_kept | apply State.launch_kept) | split

theorem State.standClaims_kept (s : State) (hk : State.Kept Q s) :
    State.Kept Q (State.standClaims s) := by
  unfold State.standClaims
  repeat' first | intro _ | (with_reducible first | assumption | apply State.standClaim_kept | apply foldl_kept)

theorem State.serve_kept (s : State) (r : Raised) (e : HailEntry) (hk : State.Kept Q s) :
    State.Kept Q (State.serve s r e) := by
  unfold State.serve
  repeat' first
    | (with_reducible first | assumption | apply ite_kept) | dsimp only | simp only [mk_kept]
    | (with_reducible first | apply State.openSession_kept | apply State.settle_kept | apply State.dropClaim_kept | apply State.standClaim_kept)
    | split

theorem State.raiseHost_kept (s : State) (hk : State.Kept Q s) :
    State.Kept Q (State.raiseHost s) := by
  unfold State.raiseHost
  repeat' first | (with_reducible first | assumption | apply ite_kept | apply State.raiseHail_kept)

theorem State.sampleLatch_kept (s : State) (hk : State.Kept Q s) :
    State.Kept Q (State.sampleLatch s) := by
  unfold State.sampleLatch
  repeat' first
    | (with_reducible first | assumption | apply ite_kept) | dsimp only | simp only [mk_kept]
    | with_reducible apply State.raiseHost_kept

/-! ### Strands -/

theorem State.fillFree_kept (s : State) (a n : Nat) (hk : State.Kept Q s) :
    State.Kept Q (State.fillFree s a n) := by
  unfold State.fillFree
  repeat' first | with_reducible assumption | dsimp only | simp only [mk_kept] | with_reducible apply State.write_kept

theorem State.waitOn_kept (s : State) (c : Nat) (t : Strand) (w : Wait) (hk : State.Kept Q s) :
    State.Kept Q (State.waitOn s c t w) := by
  unfold State.waitOn
  repeat' first | (with_reducible first | assumption | apply State.updStrand_kept | apply State.observe_kept)

theorem State.leaveEngine_kept (s : State) (c sid e : Nat) (held : Option Running) (wait : Option Wait)
    (hk : State.Kept Q s) :
    State.Kept Q (State.leaveEngine s c sid e held wait) := by
  unfold State.leaveEngine
  repeat' first
    | with_reducible assumption | dsimp only
    | (with_reducible first | apply State.stamp_kept | apply State.updStrand_kept | apply State.freeEngine_kept)

theorem State.inStep_kept (s : State) (c : Nat) (j : JobRun) (f : State → State) (hk : State.Kept Q s)
    (hf : ∀ x0, State.Kept Q x0 → (f x0).Kept Q) :
    State.Kept Q (State.inStep s c j f) := by
  unfold State.inStep
  repeat' first | (with_reducible first | assumption | apply hf | apply ite_kept | apply State.endJob_kept)

theorem State.askCommit_kept (s : State) (c : Nat) (t : Strand) (serial : W32) (hk : State.Kept Q s) :
    State.Kept Q (State.askCommit s c t serial) := by
  unfold State.askCommit
  repeat' first
    | with_reducible assumption | dsimp only | simp only [mk_kept] | with_reducible apply State.waitOn_kept

theorem State.settleCommit_kept (s : State) (c : Nat) (hk : State.Kept Q s) :
    State.Kept Q (State.settleCommit s c) := by
  unfold State.settleCommit
  repeat' first
    | (with_reducible first | assumption | apply ite_kept | apply State.ensureStream_kept | apply State.waitOn_kept | apply State.askCommit_kept)
    | split

theorem State.signal_kept (s : State) (c : Nat) (x : Ctx) (t : Strand) (h : Nat) (hk : State.Kept Q s) :
    State.Kept Q (State.signal s c x t h) := by
  unfold State.signal
  repeat' first
    | intro _ | with_reducible assumption | dsimp only
    | (with_reducible first | apply optKept_some | apply optKept_ite | apply State.updCtx_kept | apply State.setShared_kept | apply State.raiseCounter_kept | apply State.wake_kept | apply State.endJob_kept | apply State.pass_kept | (apply optKept_mono; apply State.remoteRaise_opt) | (apply optUse; assumption))
    | split

theorem State.runSignal_kept (s : State) (e : Nat) (oper : Bool) (hk : State.Kept Q s) :
    State.Kept Q (State.runSignal s e oper) := by
  unfold State.runSignal
  repeat' first
    | intro _
    | (with_reducible first | assumption | apply ite_kept | apply State.waitOn_kept | apply State.inStep_kept | apply State.signal_kept)
    | split

theorem State.record_kept (s : State) (e cls : Nat) (f : Nat → Effect) (hk : State.Kept Q s) :
    State.Kept Q (State.record s e cls f) := by
  unfold State.record
  repeat' first
    | intro _
    | (with_reducible first | assumption | apply State.updRun_kept | apply State.pass_kept | apply State.inStep_kept)
    | split

theorem State.spill_kept (s : State) (e : Nat) (hk : State.Kept Q s) :
    State.Kept Q (State.spill s e) := by
  unfold State.spill
  repeat' first | (with_reducible first | assumption | apply ite_kept | apply State.fillFree_kept) | split

theorem State.suspend_kept (s : State) (c sid e : Nat) (x : Ctx) (r : Running) (hk : State.Kept Q s) :
    State.Kept Q (State.suspend s c sid e x r) := by
  unfold State.suspend
  repeat' first
    | with_reducible assumption | dsimp only
    | (with_reducible first | apply State.leaveEngine_kept | apply State.spill_kept)

theorem State.abandonSounding_kept (s : State) (hk : State.Kept Q s) :
    State.Kept Q (State.abandonSounding s) := by
  unfold State.abandonSounding
  repeat' first
    | with_reducible assumption | dsimp only | simp only [mk_kept]
    | (with_reducible first | apply State.setReg_kept | apply State.bump_kept | apply State.retryStreams_kept | apply State.fillFree_kept)
    | split

theorem State.claimEngine_kept (s : State) (e : Nat) (hk : State.Kept Q s) :
    State.Kept Q (State.claimEngine s e) := by
  unfold State.claimEngine
  repeat' first | (with_reducible first | assumption | apply ite_kept | apply State.abandonSounding_kept)

theorem State.displace_kept (s : State) (e : Nat) (hk : State.Kept Q s) :
    State.Kept Q (State.displace s e) := by
  unfold State.displace
  repeat' first
    | (with_reducible first | assumption | apply State.updStrand_kept | apply State.freeEngine_kept | apply State.suspend_kept)
    | split

theorem State.place_kept (s : State) (c : Nat) (t : Strand) (e : Nat) (hk : State.Kept Q s) :
    State.Kept Q (State.place s c t e) := by
  unfold State.place
  repeat' first
    | with_reducible assumption | dsimp only
    | (with_reducible first | apply State.updStrand_kept | apply State.updEngine_kept | apply State.claimEngine_kept | apply State.displace_kept)

theorem State.popCommit_kept (s : State) (hk : State.Kept Q s) :
    State.Kept Q (State.popCommit s) := by
  unfold State.popCommit
  repeat' first
    | with_reducible assumption | dsimp only | simp only [mk_kept] | with_reducible apply State.dxCheck_kept

theorem State.takeEffect_kept (s : State) (c field : Nat) (step : W32) (y0 : Effect) (hk : State.Kept Q s) :
    State.Kept Q (State.takeEffect s c field step y0) := by
  unfold State.takeEffect
  repeat' first
    | (with_reducible first | assumption | apply State.post_kept | apply State.raiseHail_kept | apply State.releaseHail_kept)
    | split

theorem State.raiseHalo_kept (s : State) (field : Nat) (step : W32) (h : Nat × List Nat) (hk : State.Kept Q s) :
    State.Kept Q (State.raiseHalo s field step h) := by
  unfold State.raiseHalo
  repeat' first
    | intro _
    | (with_reducible first | assumption | apply getD_kept | apply State.raiseShared_kept | (apply optKept_mono; apply State.remoteRaise_opt) | apply foldl_kept)

theorem State.commitStep_kept (s : State) (c : Nat) (x : Ctx) (o : OpenStep) (hk : State.Kept Q s) :
    State.Kept Q (State.commitStep s c x o) := by
  unfold State.commitStep
  repeat' first
    | intro _ | with_reducible assumption | dsimp only
    | (with_reducible first | apply State.updCtx_kept | apply State.updRun_kept | apply State.wake_kept | apply State.unblock_kept | apply State.commitSlots_kept | apply State.pass_kept | apply State.commitTokens_kept | apply State.takeEffect_kept | apply State.raiseHalo_kept | apply foldl_kept)
    | split

theorem State.postEnd_kept (s : State) (c : Nat) (x : Ctx) (serial : W32) (code : Nat) (hk : State.Kept Q s) :
    State.Kept Q (State.postEnd s c x serial code) := by
  unfold State.postEnd
  repeat' first | (with_reducible first | assumption | apply State.post_kept)

theorem State.leaveSwitch_kept (s : State) (c : Nat) (hk : State.Kept Q s) :
    State.Kept Q (State.leaveSwitch s c) := by
  unfold State.leaveSwitch
  repeat' first | with_reducible assumption | dsimp only | simp only [mk_kept]

theorem State.abortQueued_kept (s : State) (c : Nat) (x : Ctx) (serial : W32) (hk : State.Kept Q s) :
    State.Kept Q (State.abortQueued s c x serial) := by
  unfold State.abortQueued
  repeat' first
    | (with_reducible first | assumption | apply ite_kept) | dsimp only
    | (with_reducible first | apply State.bump32_kept | apply State.updCtx_kept | apply State.postEnd_kept | apply State.leaveSwitch_kept)

/-! ### Dispatcher -/

theorem State.closeCtx_kept (s : State) (c : Nat) (hk : State.Kept Q s) :
    State.Kept Q (State.closeCtx s c) := by
  unfold State.closeCtx
  repeat' first
    | (with_reducible first | assumption | apply ite_kept) | dsimp only | simp only [mk_kept]
    | (with_reducible first | apply State.retryStreams_kept | apply State.freeStream_kept | apply State.freeKv_kept | apply State.leaveSwitch_kept)
    | split

theorem State.drain_kept (s : State) (c : Nat) (hk : State.Kept Q s) :
    State.Kept Q (State.drain s c) := by
  unfold State.drain
  repeat' first
    | intro _ | (with_reducible first | assumption | apply State.abortQueued_kept | apply foldl_kept) | split

theorem State.counterOp_kept (s : State) (r : Role) (rid scope id index : Nat) (write : Bool) (f : W32 → W32)
    (hk : State.Kept Q s) :
    State.Kept Q (State.counterOp s r rid scope id index write f) := by
  unfold State.counterOp
  repeat' first
    | intro _ | (with_reducible first | assumption | apply ite_kept | apply ite_fst_kept) | dsimp only
    | (with_reducible first | apply State.setShared_kept | apply State.wake_kept | apply State.message_kept) | split

theorem State.beginJob_kept (s : State) (c : Nat) (x : Ctx) (k : Job) (rest : List Job) (hk : State.Kept Q s) :
    State.Kept Q (State.beginJob s c x k rest) := by
  unfold State.beginJob
  repeat' first
    | (with_reducible first | assumption | apply ite_kept | apply State.setCtx_kept | apply State.stamp_kept | apply State.endJob_kept | apply State.fetchWord_kept | apply State.observe_kept | apply State.dxCheck_kept | apply State.leaveSwitch_kept)

theorem State.joinSwitch_kept (s : State) (c : Nat) (hk : State.Kept Q s) :
    State.Kept Q (State.joinSwitch s c) := by
  unfold State.joinSwitch
  repeat' first | (with_reducible first | assumption | apply ite_kept) | dsimp only | simp only [mk_kept]

theorem State.forget_kept (s : State) (c : Nat) (hk : State.Kept Q s) :
    State.Kept Q (State.forget s c) := by
  unfold State.forget
  repeat' first | with_reducible assumption | dsimp only | simp only [mk_kept]

theorem State.countDone_kept (s : State) (c : Nat) (x : Ctx) (hk : State.Kept Q s) :
    State.Kept Q (State.countDone s c x) := by
  unfold State.countDone
  repeat' first
    | (with_reducible first | assumption | apply ite_kept) | dsimp only
    | (with_reducible first | apply State.post_kept | apply State.postOwner_kept | apply State.updCtx_kept)

theorem State.abandon_kept (s : State) (e field : Nat) (hk : State.Kept Q s) :
    State.Kept Q (State.abandon s e field) := by
  unfold State.abandon
  repeat' first
    | with_reducible assumption | dsimp only
    | (with_reducible first | apply State.bump_kept | apply State.dropRun_kept | apply State.dropStrand_kept | apply State.endJob_kept)
    | split

/-! ### Power -/

theorem State.bumpPw_kept (s : State) (hi lo cap : Nat) (hk : State.Kept Q s) :
    State.Kept Q (State.bumpPw s hi lo cap) := by
  unfold State.bumpPw
  repeat' first
    | (with_reducible first | assumption | apply State.bumpQuiet_kept | apply State.postPw_kept | (apply fst_kept; assumption))
    | split

theorem State.lostState_kept (s : State) (f : Nat) (hk : State.Kept Q s) :
    State.Kept Q (State.lostState s f) := by
  unfold State.lostState
  repeat' first | (with_reducible first | assumption | apply ite_kept) | dsimp only | simp only [mk_kept]

theorem State.lostOf_kept (s : State) (c : Nat) (hk : State.Kept Q s) :
    State.Kept Q (State.lostOf s c) := by
  unfold State.lostOf
  repeat' first | (with_reducible first | assumption | apply State.lostState_kept) | split

theorem State.setLoss_kept (s : State) (k : Nat) (hk : State.Kept Q s) :
    State.Kept Q (State.setLoss s k) := by
  unfold State.setLoss
  repeat' first | with_reducible assumption | dsimp only | simp only [mk_kept]

theorem State.losePage_kept (s : State) (k : Nat) (p : Page) (hk : State.Kept Q s) :
    State.Kept Q (State.losePage s k p) := by
  unfold State.losePage
  repeat' first
    | (with_reducible first | assumption | apply ite_kept | apply State.setPage_kept | apply State.enterPoison_kept | apply State.lostState_kept)

theorem State.cutStaging_kept (s : State) (c : Nat) (r : KvRec) (hk : State.Kept Q s) :
    State.Kept Q (State.cutStaging s c r) := by
  unfold State.cutStaging
  repeat' first
    | with_reducible assumption | dsimp only | simp only [mk_kept]
    | (with_reducible first | apply State.zero_kept | apply State.updKv_kept | apply State.lostOf_kept)

theorem State.dropBanks_kept (s : State) (banks : List Nat) (hk : State.Kept Q s) :
    State.Kept Q (State.dropBanks s banks) := by
  unfold State.dropBanks
  repeat' first
    | intro _ | (with_reducible first | assumption | apply ite_kept) | dsimp only | simp only [mk_kept]
    | (with_reducible first | apply State.zero_kept | apply State.rewind_kept | apply State.loseStream_kept | apply State.lostOf_kept | apply State.setLoss_kept | apply State.losePage_kept | apply State.cutStaging_kept | apply foldl_kept)
    | split

theorem State.dropObjects_kept (s : State) (hk : State.Kept Q s) :
    State.Kept Q (State.dropObjects s) := by
  unfold State.dropObjects
  repeat' first
    | intro _ | with_reducible assumption | dsimp only
    | (with_reducible first | apply State.emptyTier_kept | apply State.lostState_kept | apply foldl_kept)

theorem State.loseSaved_kept (s : State) (hk : State.Kept Q s) :
    State.Kept Q (State.loseSaved s) := by
  unfold State.loseSaved
  repeat' first
    | intro _
    | (with_reducible first | assumption | apply State.loseStream_kept | apply State.lostOf_kept | apply foldl_kept)

theorem State.dropDram_kept (s : State) (hk : State.Kept Q s) :
    State.Kept Q (State.dropDram s) := by
  unfold State.dropDram
  repeat' first
    | intro _ | (with_reducible first | assumption | apply ite_kept) | dsimp only
    | (with_reducible first | apply State.freeKv_kept | apply State.lostOf_kept | apply State.setLoss_kept | apply State.dropObjects_kept | apply State.loseSaved_kept | apply foldl_kept)

theorem State.lapseDram_kept (s : State) (hk : State.Kept Q s) :
    State.Kept Q (State.lapseDram s) := by
  unfold State.lapseDram
  repeat' first
    | intro _ | with_reducible assumption | dsimp only | simp only [mk_kept]
    | (with_reducible first | apply State.write_kept | apply foldl_kept)

theorem State.lowerDramEn_kept (s : State) (hk : State.Kept Q s) :
    State.Kept Q (State.lowerDramEn s) := by
  unfold State.lowerDramEn
  repeat' first
    | with_reducible assumption | dsimp only | simp only [mk_kept]
    | (with_reducible first | apply State.zero_kept | apply State.setReg_kept | apply State.dropDram_kept)

theorem State.dropContexts_kept (s : State) (hk : State.Kept Q s) :
    State.Kept Q (State.dropContexts s) := by
  unfold State.dropContexts
  repeat' first
    | intro _ | with_reducible assumption | dsimp only | simp only [mk_kept]
    | (with_reducible first | apply State.freeKv_kept | apply State.lostState_kept | apply foldl_kept)

theorem State.dropSystem_kept (s : State) (hk : State.Kept Q s) :
    State.Kept Q (State.dropSystem s) := by
  unfold State.dropSystem
  repeat' first
    | intro _ | (with_reducible first | assumption | apply ite_kept | apply State.dropPages_kept | apply foldl_kept)

theorem State.resetKm_kept (s : State) (hk : State.Kept Q s) :
    State.Kept Q (State.resetKm s) := by
  unfold State.resetKm
  repeat' first
    | with_reducible assumption | dsimp only | simp only [mk_kept]
    | (with_reducible first | apply State.resetRegs_kept | apply State.dropSystem_kept)

theorem State.dropKept_kept (s : State) (keep : Nat) (hk : State.Kept Q s) :
    State.Kept Q (State.dropKept s keep) := by
  unfold State.dropKept
  repeat' first
    | intro _
    | (with_reducible first | assumption | apply ite_kept | apply State.lostOf_kept | apply State.setLoss_kept | apply State.dropObjects_kept | apply State.lowerDramEn_kept | apply State.dropContexts_kept | apply State.resetKm_kept | apply foldl_kept)

theorem State.dropStores_kept (s : State) (r : Rung) (hk : State.Kept Q s) :
    State.Kept Q (State.dropStores s r) := by
  unfold State.dropStores
  repeat' first | (with_reducible first | assumption | apply State.dropBanks_kept | apply State.dropKept_kept) | split

theorem State.napSave_kept (s : State) (hk : State.Kept Q s) :
    State.Kept Q (State.napSave s) := by
  unfold State.napSave
  repeat' first
    | intro _ | (with_reducible first | assumption | apply ite_kept) | dsimp only
    | (with_reducible first | apply State.requestMove_kept | apply State.requestOut_kept | apply foldl_kept) | split

theorem State.intoFallow_kept (s : State) (hk : State.Kept Q s) :
    State.Kept Q (State.intoFallow s) := by
  unfold State.intoFallow
  repeat' first | exact ⟨hk.queue, rfl, hk.owners, hk.used, hk.burnt⟩

theorem State.enter_kept (s : State) (r : Rung) (hk : State.Kept Q s) :
    State.Kept Q (State.enter s r) := by
  unfold State.enter
  repeat' first
    | intro _ | with_reducible assumption | dsimp only | simp only [mk_kept]
    | (with_reducible first | apply State.portBye_kept | apply State.settle_kept | apply State.bumpPw_kept | apply State.dropStores_kept | apply State.intoFallow_kept | apply foldl_kept)
    | split

theorem State.serviceEvent_kept (s : State) (f : Nat) (hk : State.Kept Q s) :
    State.Kept Q (State.serviceEvent s f) := by
  unfold State.serviceEvent
  repeat' first | (with_reducible first | assumption | apply State.post_kept) | split

theorem State.postHeld_kept (s : State) (hk : State.Kept Q s) :
    State.Kept Q (State.postHeld s) := by
  unfold State.postHeld
  repeat' first
    | intro _ | with_reducible assumption | dsimp only | simp only [mk_kept]
    | (with_reducible first | apply State.postOwner_kept | apply foldl_kept)

theorem State.restartRound_kept (s : State) (hk : State.Kept Q s) :
    State.Kept Q (State.restartRound s) := by
  unfold State.restartRound
  repeat' first | with_reducible assumption | dsimp only | simp only [mk_kept]

theorem State.raiseDramEn_kept (s : State) (hk : State.Kept Q s) :
    State.Kept Q (State.raiseDramEn s) := by
  unfold State.raiseDramEn
  repeat' first
    | (with_reducible first | assumption | apply ite_kept) | dsimp only | simp only [mk_kept]
    | with_reducible apply State.setReg_kept

theorem State.returnToRun_kept (s : State) (hk : State.Kept Q s) :
    State.Kept Q (State.returnToRun s) := by
  unfold State.returnToRun
  repeat' first
    | intro _ | (with_reducible first | assumption | apply ite_kept) | dsimp only | simp only [mk_kept]
    | (with_reducible first | apply State.setF_kept | apply State.postOwner_kept | apply State.serviceEvent_kept | apply foldl_kept)

theorem State.climbTo_kept (s : State) (r : Rung) (hk : State.Kept Q s) :
    State.Kept Q (State.climbTo s r) := by
  unfold State.climbTo
  repeat' first
    | (with_reducible first | assumption | apply ite_kept) | dsimp only | simp only [mk_kept]
    | (with_reducible first | apply State.startAf_kept | apply State.settle_kept | apply State.postHeld_kept | apply State.restartRound_kept | apply State.raiseDramEn_kept | apply State.returnToRun_kept)
    | split

theorem State.boot_kept (s : State) (hk : State.Kept Q s) :
    State.Kept Q (State.boot s) := by
  unfold State.boot
  repeat' first | exact ⟨hk.queue, rfl, hk.owners, hk.used, hk.burnt⟩

theorem State.stopClocks_kept (s : State) (hk : State.Kept Q s) :
    State.Kept Q (State.stopClocks s) := by
  unfold State.stopClocks
  repeat' first
    | intro _ | (with_reducible first | assumption | apply ite_kept) | dsimp only | simp only [mk_kept]
    | (with_reducible first | apply State.goDown_kept | apply State.cutFrame_kept | apply foldl_kept)

theorem State.loseClock_kept (s : State) (check : Nat) (hk : State.Kept Q s) :
    State.Kept Q (State.loseClock s check) := by
  unfold State.loseClock
  repeat' first
    | (with_reducible first | assumption | apply ite_kept | apply State.setF_kept | apply State.pulse_kept | apply State.stopAf_kept | apply State.stopClocks_kept)

/-! ### TierHost -/

theorem State.tuOp_kept (s : State) (r : Role) (rid field : Nat) (f : State → State × Nat) (hk : State.Kept Q s)
    (hf : ∀ x0, State.Kept Q x0 → (f x0).1.Kept Q) :
    State.Kept Q (State.tuOp s r rid field f) := by
  unfold State.tuOp
  repeat' first
    | intro _ | (with_reducible first | assumption | apply hf | apply ite_kept | apply ite_fst_kept) | dsimp only
    | (with_reducible first | apply State.check_kept | apply State.message_kept)

theorem State.needLeaves_opt (s : State) (f ua pages : Nat) (hk : State.Kept Q s) : OptKept Q (fun t => t)
    (State.needLeaves s f ua pages) := by
  unfold State.needLeaves
  repeat' first
    | intro _ | with_reducible assumption | dsimp only
    | (with_reducible first | apply optKept_some | apply optKept_bindS | apply optKept_foldl | apply State.check_kept | (apply optKept_mono; apply State.needLeaf_opt))

theorem State.needLeaves_kept (s : State) (f ua pages : Nat) {t : State} 
    (e : (State.needLeaves s f ua pages) = some t) (hk : State.Kept Q s) : State.Kept Q t :=
  (State.needLeaves_opt s f ua pages hk).use _ e

theorem State.unmap_kept (s : State) (f obj : Nat) (o : Obj) (hk : State.Kept Q s) :
    State.Kept Q (State.unmap s f obj o) := by
  unfold State.unmap
  repeat' first
    | with_reducible assumption | dsimp only | simp only [mk_kept]
    | (with_reducible first | apply State.trimLeaves_kept | apply State.dropPages_kept)

theorem State.tuWait_kept (s : State) (r : Role) (rid : Nat) (w : TuWait) (hk : State.Kept Q s) :
    State.Kept Q (State.tuWait s r rid w) := by
  unfold State.tuWait
  repeat' first | with_reducible assumption | dsimp only | simp only [mk_kept]

theorem State.pinPages_kept (s : State) (field ua pages : Nat) (hk : State.Kept Q s) :
    State.Kept Q (State.pinPages s field ua pages).1 := by
  unfold State.pinPages
  repeat' first
    | intro _ | (with_reducible first | assumption | apply ite_fst_kept) | dsimp only
    | (with_reducible first | apply State.setPage_kept | apply foldl_kept)

theorem State.dropShadows_kept (s : State) (n : Nat) (hk : State.Kept Q s) :
    State.Kept Q (State.dropShadows s n) := by
  unfold State.dropShadows
  repeat' first | with_reducible assumption | dsimp only | simp only [mk_kept]

theorem State.failEvacuation_kept (s : State) (hk : State.Kept Q s) :
    State.Kept Q (State.failEvacuation s) := by
  unfold State.failEvacuation
  repeat' first
    | with_reducible assumption | dsimp only | simp only [mk_kept] | with_reducible apply State.reply_kept | split

theorem State.settleTu_kept (s : State) (hk : State.Kept Q s) :
    State.Kept Q (State.settleTu s) := by
  unfold State.settleTu
  repeat' first
    | (with_reducible first | assumption | apply ite_kept) | dsimp only | simp only [mk_kept]
    | (with_reducible first | apply State.reply_kept | apply State.unmap_kept | apply State.pinPages_kept) | split

theorem State.blameBlock_kept (s : State) (p : Page) (hk : State.Kept Q s) :
    State.Kept Q (State.blameBlock s p) := by
  unfold State.blameBlock
  repeat' first
    | (with_reducible first | assumption | apply ite_kept | apply State.pick_kept | apply State.detect_kept | apply State.mcPair_kept | apply State.mcRetry_kept)

theorem State.blockLost_kept (s : State) (b : PoisonBlk) (hk : State.Kept Q s) :
    State.Kept Q (State.blockLost s b) := by
  unfold State.blockLost
  repeat' first
    | intro _ | (with_reducible first | assumption | apply ite_kept) | dsimp only | simp only [mk_kept]
    | (with_reducible first | apply State.endJob_kept | apply State.settlePage_kept | apply State.loseFrame_kept | apply foldl_kept)
    | split

theorem State.farReadFailed_kept (s : State) (f ua : Nat) (hk : State.Kept Q s) :
    State.Kept Q (State.farReadFailed s f ua) := by
  unfold State.farReadFailed
  repeat' first
    | intro _
    | (with_reducible first | assumption | apply ite_kept | apply State.setPage_kept | apply State.startRefetch_kept | apply State.poisonBlk_kept | apply foldl_kept)
    | split

theorem State.tierFailed_kept (s : State) (u : TagUse) (hk : State.Kept Q s) :
    State.Kept Q (State.tierFailed s u) := by
  unfold State.tierFailed
  repeat' first
    | (with_reducible first | assumption | apply ite_kept | apply State.farWriteFailed_kept | apply State.settleTu_kept | apply State.blockLost_kept | apply State.farReadFailed_kept)
    | split

theorem State.farCame_kept (s : State) (f ua : Nat) (stored : List Byte) (hk : State.Kept Q s) :
    State.Kept Q (State.farCame s f ua stored) := by
  unfold State.farCame
  repeat' first
    | (with_reducible first | assumption | apply ite_kept) | dsimp only
    | (with_reducible first | apply State.openBlocks_kept | apply State.putFetched_kept | apply State.applyHeld_kept | apply State.settleTu_kept)
    | split

theorem State.refetched_kept (s : State) (f ua : Nat) (stored : List Byte) (hk : State.Kept Q s) :
    State.Kept Q (State.refetched s f ua stored) := by
  unfold State.refetched
  repeat' first
    | (with_reducible first | assumption | apply ite_kept) | dsimp only
    | (with_reducible first | apply State.openBlocks_kept | apply State.cleanBytes_kept | apply State.settleTu_kept)
    | split

theorem State.writeNbr_kept (s : State) (n : Nat) (hi : Bool) (v : W32) (hk : State.Kept Q s) :
    State.Kept Q (State.writeNbr s n hi v) := by
  unfold State.writeNbr
  repeat' first
    | (with_reducible first | assumption | apply ite_kept | apply State.putWord_kept | apply State.dropShadows_kept)

theorem State.writeLend_kept (s : State) (v : W32) (hk : State.Kept Q s) :
    State.Kept Q (State.writeLend s v) := by
  unfold State.writeLend
  repeat' first | with_reducible assumption | dsimp only | with_reducible apply State.putWord_kept

theorem State.startUp_kept (s : State) (stage : Nat) (full : Bool) (hk : State.Kept Q s) :
    State.Kept Q (State.startUp s stage full) := by
  unfold State.startUp
  repeat' first
    | (with_reducible first | assumption | apply ite_kept) | dsimp only | simp only [mk_kept]
    | (with_reducible first | apply State.setReg_kept | apply State.setF_kept)

theorem State.failChannels_kept (s : State) (mask : Nat) (hk : State.Kept Q s) :
    State.Kept Q (State.failChannels s mask) := by
  unfold State.failChannels
  repeat' first
    | intro _
    | (with_reducible first | assumption | apply ite_kept | apply State.setF_kept | apply State.pulse_kept | apply foldl_kept)

theorem State.memReady_kept (s : State) (usec : Nat) (hk : State.Kept Q s) :
    State.Kept Q (State.memReady s usec) := by
  unfold State.memReady
  repeat' first
    | with_reducible assumption | dsimp only | simp only [mk_kept]
    | (with_reducible first | apply State.setReg_kept | apply State.setF_kept | apply State.postOwner_kept)

/-! ### Access -/

theorem State.readHere_kept (s : State) (a n : Nat) (hk : State.Kept Q s) :
    State.Kept Q (State.readHere s a n).1 := by
  unfold State.readHere
  repeat' first | (with_reducible first | assumption | apply ite_fst_kept | apply State.cmRead_kept)

/-! ### Dma -/

theorem State.setDm_kept (s : State) (ch : Nat) (c : DmChan) (hk : State.Kept Q s) :
    State.Kept Q (State.setDm s ch c) := by
  unfold State.setDm
  repeat' first | with_reducible assumption | simp only [mk_kept]

theorem State.updDmRun_kept (s : State) (ch : Nat) (f : DmRun → DmRun) (hk : State.Kept Q s) :
    State.Kept Q (State.updDmRun s ch f) := by
  unfold State.updDmRun
  repeat' first | with_reducible assumption | dsimp only | with_reducible apply State.setDm_kept | split

theorem State.beginRun_kept (s : State) (ch : Nat) (hk : State.Kept Q s) :
    State.Kept Q (State.beginRun s ch) := by
  unfold State.beginRun
  repeat' first
    | with_reducible assumption | dsimp only | (with_reducible first | apply State.setF_kept | apply State.setDm_kept)

theorem State.dmStart_kept (s : State) (ch src : Nat) (ok : Bool) (hk : State.Kept Q s) :
    State.Kept Q (State.dmStart s ch src ok) := by
  unfold State.dmStart
  repeat' first
    | (with_reducible first | assumption | apply ite_kept | apply State.setF_kept | apply State.bump16_kept | apply State.beginRun_kept)

theorem State.dmListRead_kept (s : State) (ch : Nat) (r : DmRun) (hk : State.Kept Q s) :
    State.Kept Q (State.dmListRead s ch r).1 := by
  unfold State.dmListRead
  repeat' first | with_reducible assumption | dsimp only | with_reducible apply State.cmRead_kept | split

theorem State.dmFail_kept (s : State) (ch code : Nat) (hk : State.Kept Q s) :
    State.Kept Q (State.dmFail s ch code) := by
  unfold State.dmFail
  repeat' first | (with_reducible first | assumption | apply State.updDmRun_kept)

theorem State.dmReach_kept (s : State) (list : W64) (lens : List Nat) (at_ : Option DmPos) (hk : State.Kept Q s) :
    State.Kept Q (State.dmReach s list lens at_).1 := by
  unfold State.dmReach
  repeat' first
    | (with_reducible first | assumption | apply ite_fst_kept) | dsimp only
    | (with_reducible first | apply State.cmRead_kept | (apply fst_kept; assumption)) | split

theorem State.dmInjected_opt (s : State) (ch k : Nat) (hk : State.Kept Q s) : OptKept Q (fun t => t)
    (State.dmInjected s ch k) := by
  unfold State.dmInjected
  repeat' first
    | (with_reducible first | assumption | exact optKept_none | apply optKept_some | apply optKept_ite | apply State.check_kept | apply State.dmFail_kept)

theorem State.dmInjected_kept (s : State) (ch k : Nat) {t : State}  (e : (State.dmInjected s ch k) = some t)
    (hk : State.Kept Q s) : State.Kept Q t :=
  (State.dmInjected_opt s ch k hk).use _ e

theorem State.dmReadOne_kept (s : State) (ch : Nat) (r : DmRun) (hk : State.Kept Q s) :
    State.Kept Q (State.dmReadOne s ch r).1 := by
  unfold State.dmReadOne
  repeat' first
    | (with_reducible first | assumption | apply ite_fst_kept) | dsimp only
    | (with_reducible first | (apply State.request_kept; assumption) | apply State.tuRead_kept | apply State.readHere_kept | apply State.updDmRun_kept | apply State.dmReach_kept | (apply fst_kept; assumption))
    | split

theorem State.dmWriteOne_kept (s : State) (ch : Nat) (r : DmRun) (hk : State.Kept Q s) :
    State.Kept Q (State.dmWriteOne s ch r).1 := by
  unfold State.dmWriteOne
  repeat' first
    | (with_reducible first | assumption | apply ite_fst_kept) | dsimp only
    | (with_reducible first | apply State.write_kept | (apply State.request_kept; assumption) | apply State.tuWrite_kept | apply State.updDmRun_kept | apply State.dmReach_kept | (apply fst_kept; assumption))
    | split

theorem State.dmServeRead_opt (s : State) (ch : Nat) (hk : State.Kept Q s) : OptKept Q (fun t => t)
    (State.dmServeRead s ch) := by
  unfold State.dmServeRead
  repeat' first
    | with_reducible assumption | simp only [mk_kept]
    | (with_reducible first | exact optKept_none | apply optKept_some | apply optKept_ite | apply State.dmFail_kept | (apply State.dmInjected_kept; assumption) | apply State.dmReadOne_kept | (apply fst_kept; assumption))
    | split

theorem State.dmServeRead_kept (s : State) (ch : Nat) {t : State}  (e : (State.dmServeRead s ch) = some t)
    (hk : State.Kept Q s) : State.Kept Q t :=
  (State.dmServeRead_opt s ch hk).use _ e

theorem State.dmServeWrite_opt (s : State) (ch stop : Nat) (hk : State.Kept Q s) : OptKept Q (fun t => t)
    (State.dmServeWrite s ch stop) := by
  unfold State.dmServeWrite
  repeat' first
    | with_reducible assumption | simp only [mk_kept]
    | (with_reducible first | exact optKept_none | apply optKept_some | apply optKept_ite | apply State.dmFail_kept | (apply State.dmInjected_kept; assumption) | apply State.dmWriteOne_kept | (apply fst_kept; assumption))
    | split

theorem State.dmServeWrite_kept (s : State) (ch stop : Nat) {t : State} 
    (e : (State.dmServeWrite s ch stop) = some t) (hk : State.Kept Q s) : State.Kept Q t :=
  (State.dmServeWrite_opt s ch stop hk).use _ e

theorem State.dmAsk_kept (s : State) (ch : Nat) (hk : State.Kept Q s) :
    State.Kept Q (State.dmAsk s ch) := by
  unfold State.dmAsk
  repeat' first
    | (with_reducible first | assumption | apply ite_kept) | dsimp only
    | (with_reducible first | apply State.dmReadOne_kept | apply State.dmWriteOne_kept | (apply fst_kept; assumption))
    | split

theorem State.dmWork_kept (s : State) (ch stop : Nat) (y0 : Nat) (hk : State.Kept Q s) :
    State.Kept Q (State.dmWork s ch stop y0) := by
  induction y0 generalizing s ch stop with
  | zero =>
    unfold State.dmWork
    exact hk
  | succ n ih =>
    unfold State.dmWork
    repeat' first
      | intro _ | (with_reducible first | assumption | apply ih | apply ite_kept | apply getD_kept) | dsimp only
      | (with_reducible first | apply optKept_findSome | (apply optKept_mono; apply State.dmServeRead_opt) | (apply optKept_mono; apply State.dmServeWrite_opt) | apply State.dmAsk_kept | (apply optUse; assumption))
      | split

theorem State.dmFree_kept (s : State) (r : DmRun) (w n : Nat) (hk : State.Kept Q s) :
    State.Kept Q (State.dmFree s r w n) := by
  unfold State.dmFree
  repeat' first
    | intro _ | (with_reducible first | assumption | apply ite_kept) | dsimp only
    | (with_reducible first | apply State.write_kept | apply State.freeBytes_kept | apply State.tuWrite_kept | apply foldl_kept)
    | split

theorem State.dmOverlap_kept (s : State) (r : DmRun) (hk : State.Kept Q s) :
    State.Kept Q (State.dmOverlap s r) := by
  unfold State.dmOverlap
  repeat' first
    | intro _ | (with_reducible first | assumption | apply ite_kept) | dsimp only
    | (with_reducible first | apply State.dmFree_kept | apply foldl_kept)

theorem State.dmUndefine_kept (s : State) (ch : Nat) (r : DmRun) (hk : State.Kept Q s) :
    State.Kept Q (State.dmUndefine s ch r) := by
  unfold State.dmUndefine
  repeat' first
    | intro _ | (with_reducible first | assumption | apply ite_kept | apply State.dmFree_kept | apply foldl_kept)

theorem State.dmBack_kept (s : State) (ch : Nat) (r : DmRun) (hk : State.Kept Q s) :
    State.Kept Q (State.dmBack s ch r).1 := by
  unfold State.dmBack
  repeat' first
    | (with_reducible first | assumption | apply ite_fst_kept) | dsimp only
    | (with_reducible first | (apply State.request_kept; assumption) | apply State.readHere_kept | apply State.updDmRun_kept)
    | split

theorem State.dmPut_kept (s : State) (ch which : Nat) (hi : Bool) (v : W32) (hk : State.Kept Q s) :
    State.Kept Q (State.dmPut s ch which hi v) := by
  unfold State.dmPut
  repeat' first
    | (with_reducible first | assumption | apply ite_kept | apply State.setF_kept | apply State.putWord_kept)

theorem State.dmReport_kept (s : State) (ch code : Nat) (r : DmRun) (hk : State.Kept Q s) :
    State.Kept Q (State.dmReport s ch code r) := by
  unfold State.dmReport
  repeat' first
    | intro _ | (with_reducible first | assumption | apply ite_kept) | dsimp only | simp only [mk_kept]
    | (with_reducible first | apply State.setF_kept | apply State.post_kept | apply State.bump32_kept | apply State.setShared_kept | apply State.wake_kept | apply State.setDm_kept | apply State.beginRun_kept | apply State.dmStart_kept | apply State.dmPut_kept | apply foldl_kept)

theorem State.dmFinish_kept (s : State) (ch code : Nat) (r : DmRun) (hk : State.Kept Q s) :
    State.Kept Q (State.dmFinish s ch code r) := by
  unfold State.dmFinish
  repeat' first
    | (with_reducible first | assumption | apply ite_kept | apply State.dmOverlap_kept | apply State.dmReport_kept)

theorem State.dmAbort_kept (s : State) (ch : Nat) (who : Option (Role × Nat)) (hk : State.Kept Q s) :
    State.Kept Q (State.dmAbort s ch who).1 := by
  unfold State.dmAbort
  repeat' first
    | (with_reducible first | assumption | apply ite_fst_kept) | dsimp only
    | (with_reducible first | apply State.setF_kept | apply State.updDmRun_kept)

theorem State.dmRegWrite_kept (s : State) (ch which : Nat) (hi : Bool) (v : W32) (hk : State.Kept Q s) :
    State.Kept Q (State.dmRegWrite s ch which hi v) := by
  unfold State.dmRegWrite
  repeat' first
    | (with_reducible first | assumption | apply ite_kept) | dsimp only
    | (with_reducible first | apply State.setDm_kept | apply State.dmPut_kept)

theorem State.dmCtlWrite_kept (s : State) (ch : Nat) (v : W32) (hk : State.Kept Q s) :
    State.Kept Q (State.dmCtlWrite s ch v) := by
  unfold State.dmCtlWrite
  repeat' first
    | (with_reducible first | assumption | apply ite_kept | apply State.dmStart_kept | apply State.dmAbort_kept)

theorem State.dmStop_kept (s : State) (code : Nat) (hk : State.Kept Q s) :
    State.Kept Q (State.dmStop s code) := by
  unfold State.dmStop
  repeat' first
    | intro _ | with_reducible assumption | dsimp only | simp only [mk_kept]
    | (with_reducible first | apply State.setF_kept | apply State.reply_kept | apply State.dmUndefine_kept | apply foldl_kept)
    | split

/-! ### LinkRx -/

theorem State.deliver_kept (s : State) (p typ : Nat) (m : LinkMsg) (f : State → State) (hk : State.Kept Q s)
    (hf : ∀ x0, State.Kept Q x0 → (f x0).Kept Q) :
    State.Kept Q (State.deliver s p typ m f) := by
  unfold State.deliver
  repeat' first
    | (with_reducible first | assumption | apply hf | apply ite_kept | (apply State.takeMsg_kept; assumption)) | split

theorem State.linkRead_kept (s : State) (a n : Nat) (hk : State.Kept Q s) :
    State.Kept Q (State.linkRead s a n).1 := by
  unfold State.linkRead
  repeat' first
    | (with_reducible first | assumption | apply ite_fst_kept | apply State.cmRead_kept | apply State.lentRead_kept)

theorem State.linkWrite_kept (s : State) (a : Nat) (bs : List Byte) (hk : State.Kept Q s) :
    State.Kept Q (State.linkWrite s a bs).1 := by
  unfold State.linkWrite
  repeat' first
    | (with_reducible first | assumption | apply ite_fst_kept) | dsimp only
    | (with_reducible first | apply State.write_kept | apply State.lentWrite_kept)

theorem State.bufferDigest_kept (s : State) (n peer : Nat) (step : W32) (d : List Byte) (hk : State.Kept Q s) :
    State.Kept Q (State.bufferDigest s n peer step d) := by
  unfold State.bufferDigest
  repeat' first | (with_reducible first | assumption | apply ite_kept) | dsimp only | simp only [mk_kept]

theorem State.gatherPiece_kept (s : State) (g i status : Nat) (data : List Byte) (hk : State.Kept Q s) :
    State.Kept Q (State.gatherPiece s g i status data) := by
  unfold State.gatherPiece
  repeat' first
    | (with_reducible first | assumption | apply ite_kept) | dsimp only | simp only [mk_kept]
    | with_reducible apply State.reply_kept | split

theorem State.endRequest_kept (s : State) (tag : Nat) (f : State → State) (hk : State.Kept Q s)
    (hf : ∀ x0, State.Kept Q x0 → (f x0).Kept Q) :
    State.Kept Q (State.endRequest s tag f) := by
  unfold State.endRequest
  repeat' first
    | (with_reducible first | assumption | apply hf) | dsimp only | simp only [mk_kept]
    | with_reducible apply State.pumpFar_kept

theorem State.answer_kept (s : State) (p : Nat) (m : LinkMsg) (f : State → TagUse → State) (hk : State.Kept Q s)
    (hf : ∀ x0 x1, State.Kept Q x0 → (f x0 x1).Kept Q) :
    State.Kept Q (State.answer s p m f) := by
  unfold State.answer
  repeat' first
    | intro _ | (with_reducible first | assumption | apply hf | apply State.drop_kept | apply State.endRequest_kept)
    | split

theorem State.requestFailed_kept (s : State) (u : TagUse) (code : Nat) (hk : State.Kept Q s) :
    State.Kept Q (State.requestFailed s u code) := by
  unfold State.requestFailed
  repeat' first
    | (with_reducible first | assumption | apply State.endJob_kept | apply State.tierFailed_kept | apply State.dmFail_kept | apply State.gatherPiece_kept)
    | split

theorem State.writeLxCtl_kept (s : State) (p : Nat) (v : W32) (hk : State.Kept Q s) :
    State.Kept Q (State.writeLxCtl s p v) := by
  unfold State.writeLxCtl
  repeat' first
    | (with_reducible first | assumption | apply ite_kept | apply State.putWord_kept | apply State.updPort_kept | apply State.portTo_kept | apply State.portOff_kept)

theorem State.writeLxId_kept (s : State) (hi : Bool) (v : W32) (hk : State.Kept Q s) :
    State.Kept Q (State.writeLxId s hi v) := by
  unfold State.writeLxId
  repeat' first | (with_reducible first | assumption | apply ite_kept | apply State.putWord_kept)

/-! ### Image -/

theorem State.answerDx_kept (s : State) (code : Nat) (hk : State.Kept Q s) :
    State.Kept Q (State.answerDx s code) := by
  unfold State.answerDx
  repeat' first
    | intro _ | with_reducible assumption | dsimp only
    | (with_reducible first | apply State.reply_kept | apply foldl_kept) | split

theorem State.answerTu_kept (s : State) (code : Nat) (hk : State.Kept Q s) :
    State.Kept Q (State.answerTu s code) := by
  unfold State.answerTu
  repeat' first | intro _ | (with_reducible first | assumption | apply State.reply_kept | apply foldl_kept)

theorem State.answerKm_kept (s : State) (code : Nat) (hk : State.Kept Q s) :
    State.Kept Q (State.answerKm s code) := by
  unfold State.answerKm
  repeat' first | intro _ | (with_reducible first | assumption | apply State.reply_kept | apply foldl_kept) | split

theorem State.answerLx_kept (s : State) (code : Nat) (hk : State.Kept Q s) :
    State.Kept Q (State.answerLx s code) := by
  unfold State.answerLx
  repeat' first | intro _ | (with_reducible first | assumption | apply State.reply_kept | apply foldl_kept)

theorem State.dramOff_kept (s : State) (hk : State.Kept Q s) :
    State.Kept Q (State.dramOff s) := by
  unfold State.dramOff
  repeat' first
    | with_reducible assumption | dsimp only | simp only [mk_kept]
    | (with_reducible first | apply State.zero_kept | apply State.setReg_kept)

theorem State.dropBlocks_kept (s : State) (hk : State.Kept Q s) :
    State.Kept Q (State.dropBlocks s) := by
  unfold State.dropBlocks
  repeat' first
    | intro _ | (with_reducible first | assumption | apply ite_kept) | dsimp only | simp only [mk_kept]
    | (with_reducible first | apply State.portBye_kept | apply State.abandonSounding_kept | apply State.resetKm_kept | apply State.dmStop_kept | apply State.answerDx_kept | apply State.answerTu_kept | apply State.answerKm_kept | apply State.answerLx_kept | apply foldl_kept)

theorem State.dropImage_kept (s : State) (hk : State.Kept Q s) :
    State.Kept Q (State.dropImage s) := by
  unfold State.dropImage
  repeat' first
    | (with_reducible first | assumption | apply State.settle_kept | apply State.dramOff_kept | apply State.dropBlocks_kept)

theorem State.eraseKeys_kept (s : State) (hk : State.Kept Q s) :
    State.Kept Q (State.eraseKeys s) := by
  unfold State.eraseKeys
  repeat' first | with_reducible assumption | dsimp only | simp only [mk_kept_sx]

theorem State.imgBegin_kept (s : State) (r : Role) (rid len : Nat) (hk : State.Kept Q s) :
    State.Kept Q (State.imgBegin s r rid len) := by
  unfold State.imgBegin
  repeat' first
    | (with_reducible first | assumption | apply ite_kept) | dsimp only | simp only [mk_kept]
    | (with_reducible first | apply State.zero_kept | apply State.reply_kept | apply State.dropImage_kept | apply State.eraseKeys_kept)

theorem State.endLoad_kept (s : State) (hk : State.Kept Q s) :
    State.Kept Q (State.endLoad s) := by
  unfold State.endLoad
  repeat' first | with_reducible assumption | dsimp only | simp only [mk_kept_sx]

theorem State.blankStore_kept (s : State) (base : Nat) (y0 : Nat) (hk : State.Kept Q s) :
    State.Kept Q (State.blankStore s base y0) := by
  induction y0 generalizing s base with
  | zero =>
    unfold State.blankStore
    exact hk
  | succ n ih =>
    unfold State.blankStore
    repeat' first | (with_reducible first | assumption | apply ih | apply State.write_kept)

theorem State.loadWatches_kept (s : State) (im : Image) (p : Nat → Bool) (hk : State.Kept Q s) :
    State.Kept Q (State.loadWatches s im p) := by
  unfold State.loadWatches
  repeat' first
    | intro _ | (with_reducible first | assumption | apply ite_kept) | dsimp only | simp only [mk_kept]
    | (with_reducible first | apply State.setReg_kept | apply foldl_kept)

theorem State.random_kept (s : State) (n : Nat) (hk : State.Kept Q s) :
    State.Kept Q (State.random s n).2 := by
  unfold State.random
  repeat' first | with_reducible assumption | dsimp only | simp only [mk_kept]

theorem State.fieldKeys_kept (s : State) (f : FieldRec) (hk : State.Kept Q s) :
    State.Kept Q (State.fieldKeys s f) := by
  unfold State.fieldKeys
  repeat' first
    | with_reducible assumption | dsimp only | simp only [mk_kept_sx] | with_reducible apply State.random_kept

theorem State.clearLent_kept (s : State) (hk : State.Kept Q s) :
    State.Kept Q (State.clearLent s) := by
  unfold State.clearLent
  repeat' first | (with_reducible first | assumption | apply ite_kept | apply State.setF_kept)

theorem State.startImage_kept (s : State) (seen img : List Byte) (hk : State.Kept Q s) :
    State.Kept Q (State.startImage s seen img) := by
  unfold State.startImage
  repeat' first
    | intro _ | (with_reducible first | assumption | apply ite_kept) | dsimp only | simp only [mk_kept]
    | simp only [mk_kept_sx]
    | (with_reducible first | apply State.setReg_kept | apply State.postOwner_kept | apply State.updPort_kept | apply State.startAf_kept | apply State.restartRound_kept | apply State.startUp_kept | apply State.loadWatches_kept | apply State.fieldKeys_kept | apply State.clearLent_kept | apply foldl_kept)

theorem State.applyImage_kept (s : State) (seen img : List Byte) (hk : State.Kept Q s) :
    State.Kept Q (State.applyImage s seen img) := by
  unfold State.applyImage
  repeat' first
    | intro _ | (with_reducible first | assumption | apply ite_kept) | dsimp only
    | (with_reducible first | apply State.write_kept | apply State.zero_kept | apply State.settle_kept | apply State.blankStore_kept | apply State.startImage_kept | apply foldl_kept)

theorem State.dataReply_kept (s : State) (r : Role) (rid code sec rec_ : Nat) (hk : State.Kept Q s) :
    State.Kept Q (State.dataReply s r rid code sec rec_) := by
  unfold State.dataReply
  repeat' first | (with_reducible first | assumption | apply State.reply_kept)

theorem State.finishLoad_kept (s : State) (r : Role) (rid : Nat) (seen img : List Byte) (hk : State.Kept Q s) :
    State.Kept Q (State.finishLoad s r rid seen img) := by
  unfold State.finishLoad
  repeat' first
    | (with_reducible first | assumption | apply State.endLoad_kept | apply State.applyImage_kept | apply State.dataReply_kept)
    | split

theorem State.imgData_kept (s : State) (r : Role) (rid off : Nat) (data : List Byte) (hk : State.Kept Q s) :
    State.Kept Q (State.imgData s r rid off data) := by
  unfold State.imgData
  repeat' first
    | (with_reducible first | assumption | apply ite_kept) | dsimp only | simp only [mk_kept]
    | (with_reducible first | apply State.write_kept | apply State.reply_kept | apply State.endLoad_kept | apply State.dataReply_kept | apply State.finishLoad_kept)
    | split

/-! ### Sextant -/

theorem State.authFail_kept (s : State) (hk : State.Kept Q s) :
    State.Kept Q (State.authFail s) := by
  unfold State.authFail
  repeat' first | (with_reducible first | assumption | apply State.bump_kept)

theorem State.burnTally_kept (s : State) (y0 : Nat) (hk : State.Kept Q s) :
    State.Kept Q (State.burnTally s y0) := by
  induction y0 generalizing s with
  | zero =>
    unfold State.burnTally
    exact hk
  | succ n ih =>
    unfold State.burnTally
    repeat' first
      | with_reducible assumption | exact ⟨hk.queue, hk.mem, hk.owners, Nat.le_succ_of_le hk.used, hk.burnt⟩
      | exact ⟨hk.queue, hk.mem, hk.owners, Nat.le_succ_of_le hk.used, Nat.le_succ_of_le hk.burnt⟩
      | (with_reducible first | apply ih | apply ite_kept) | dsimp only
      | (with_reducible first | apply State.postOwner_kept | apply State.check_kept)

theorem State.openEpoch_kept (s : State) (hk : State.Kept Q s) :
    State.Kept Q (State.openEpoch s) := by
  unfold State.openEpoch
  repeat' first
    | (with_reducible first | assumption | apply ite_kept) | dsimp only | simp only [mk_kept_sx]
    | with_reducible apply State.burnTally_kept | split

theorem State.quote_kept (s : State) (r : Role) (rid : Nat) (nonce : List Byte) (hk : State.Kept Q s) :
    State.Kept Q (State.quote s r rid nonce) := by
  unfold State.quote
  repeat' first
    | (with_reducible first | assumption | apply ite_kept) | dsimp only | simp only [mk_kept_sx]
    | (with_reducible first | apply State.reply_kept | apply State.sxChecks_kept | apply State.openEpoch_kept) | split

theorem State.quoteSigned_kept (s : State) (q : QuoteJob) (hk : State.Kept Q s) :
    State.Kept Q (State.quoteSigned s q) := by
  unfold State.quoteSigned
  repeat' first
    | with_reducible assumption | dsimp only | simp only [mk_kept_sx]
    | (with_reducible first | apply State.reply_kept | apply State.bump_kept)

theorem State.applyKey_kept (s : State) (e : KeyEntry) (hk : State.Kept Q s) :
    State.Kept Q (State.applyKey s e) := by
  unfold State.applyKey
  repeat' first | (with_reducible first | assumption | apply ite_kept) | dsimp only | simp only [mk_kept_sx]

theorem State.releaseWith_kept (s : State) (r : Role) (rid : Nat) (p : List Byte) (k : KemKey) (hk : State.Kept Q s) :
    State.Kept Q (State.releaseWith s r rid p k) := by
  unfold State.releaseWith
  repeat' first
    | intro _ | (with_reducible first | assumption | apply ite_kept) | dsimp only
    | (with_reducible first | apply State.reply_kept | apply State.bump_kept | apply State.authFail_kept | apply State.applyKey_kept | apply foldl_kept)
    | split

theorem State.keyRelease_kept (s : State) (r : Role) (rid : Nat) (p : List Byte) (hk : State.Kept Q s) :
    State.Kept Q (State.keyRelease s r rid p) := by
  unfold State.keyRelease
  repeat' first
    | (with_reducible first | assumption | apply ite_kept) | dsimp only | simp only [mk_kept_sx]
    | (with_reducible first | apply State.reply_kept | apply State.sxChecks_kept | apply State.authFail_kept | apply State.releaseWith_kept)
    | split

theorem State.ownerSet_kept (s : State) (r : Role) (rid slot : Nat) (digest rest : List Byte) (hk : State.Kept Q s) :
    State.Kept Q (State.ownerSet s r rid slot digest rest) := by
  unfold State.ownerSet
  repeat' first
    | (with_reducible first | assumption | apply ite_kept) | dsimp only | simp only [mk_kept_sx]
    | (with_reducible first | apply State.reply_kept | apply State.sxChecks_kept)

theorem State.sxServe_kept (s : State) (i : Instr) (hk : State.Kept Q s) :
    State.Kept Q (State.sxServe s i) := by
  unfold State.sxServe
  repeat' first
    | (with_reducible first | assumption | apply State.imgBegin_kept | apply State.quote_kept | apply State.keyRelease_kept | apply State.ownerSet_kept)
    | split

theorem State.sxTake_kept (s : State) (i : Instr) (hk : State.Kept Q s) :
    State.Kept Q (State.sxTake s i) := by
  unfold State.sxTake
  repeat' first
    | (with_reducible first | assumption | apply ite_kept) | dsimp only | simp only [mk_kept_sx]
    | with_reducible apply State.sxServe_kept

theorem State.sxDrain_kept (s : State) (y0 : Nat) (hk : State.Kept Q s) :
    State.Kept Q (State.sxDrain s y0) := by
  induction y0 generalizing s with
  | zero =>
    unfold State.sxDrain
    exact hk
  | succ n ih =>
    unfold State.sxDrain
    repeat' first
      | (with_reducible first | assumption | apply ih | apply ite_kept) | dsimp only | simp only [mk_kept_sx]
      | with_reducible apply State.sxServe_kept | split

theorem State.weightLoad_kept (s : State) (p : List Byte) (hk : State.Kept Q s) :
    State.Kept Q (State.weightLoad s p).1 := by
  unfold State.weightLoad
  repeat' first
    | (with_reducible first | assumption | apply ite_fst_kept) | dsimp only
    | (with_reducible first | apply State.tuWrite_kept | apply State.sxChecks_kept | apply State.authFail_kept | (apply fst_kept; assumption))
    | split

/-! ### Faults -/

theorem State.fireWaypoint_kept (s : State) (cause : Nat) (hk : State.Kept Q s) :
    State.Kept Q (State.fireWaypoint s cause) := by
  unfold State.fireWaypoint
  repeat' first
    | (with_reducible first | assumption | apply ite_kept) | dsimp only
    | (with_reducible first | apply State.setReg_kept | apply State.setF_kept | apply State.bump_kept | apply State.check_kept)

theorem State.postFence_kept (s : State) (e : Nat) (hk : State.Kept Q s) :
    State.Kept Q (State.postFence s e) := by
  unfold State.postFence
  repeat' first
    | intro _ | with_reducible assumption | dsimp only
    | (with_reducible first | apply State.postOwner_kept | apply State.serviceEvent_kept | apply foldl_kept)

theorem State.fence_kept (s : State) (e : Nat) (hk : State.Kept Q s) :
    State.Kept Q (State.fence s e) := by
  unfold State.fence
  repeat' first
    | (with_reducible first | assumption | apply ite_kept) | dsimp only
    | (with_reducible first | apply State.setF_kept | apply State.bump_kept | apply State.updEngine_kept | apply State.postFence_kept)

theorem State.unfence_kept (s : State) (e : Nat) (hk : State.Kept Q s) :
    State.Kept Q (State.unfence s e) := by
  unfold State.unfence
  repeat' first
    | (with_reducible first | assumption | apply ite_kept | apply State.setF_kept | apply State.postFence_kept)

theorem State.fenceRestart_kept (s : State) (c : Nat) (hk : State.Kept Q s) :
    State.Kept Q (State.fenceRestart s c) := by
  unfold State.fenceRestart
  repeat' first
    | (with_reducible first | assumption | apply ite_kept | apply State.bump_kept | apply State.updRun_kept | apply State.endJob_kept | apply State.replayStep_kept)

theorem State.restartStep_kept (s : State) (c : Nat) (fenced : Bool) (es : List Nat) (hk : State.Kept Q s) :
    State.Kept Q (State.restartStep s c fenced es) := by
  unfold State.restartStep
  repeat' first
    | intro _
    | (with_reducible first | assumption | apply ite_kept | apply State.bump_kept | apply State.updRun_kept | apply State.replayStep_kept | apply State.fence_kept | apply State.fenceRestart_kept | apply foldl_kept)

theorem State.resetEngine_kept (s : State) (e : Nat) (hk : State.Kept Q s) :
    State.Kept Q (State.resetEngine s e) := by
  unfold State.resetEngine
  repeat' first
    | (with_reducible first | assumption | apply ite_kept) | dsimp only
    | (with_reducible first | apply State.updEngine_kept | apply State.freeEngine_kept | apply State.dropStrand_kept | apply State.leaveEngine_kept | apply State.abandonSounding_kept)
    | split

theorem State.resetSe_kept (s : State) (hk : State.Kept Q s) :
    State.Kept Q (State.resetSe s) := by
  unfold State.resetSe
  repeat' first
    | intro _ | (with_reducible first | assumption | apply ite_kept) | dsimp only | simp only [mk_kept]
    | (with_reducible first | apply State.updStream_kept | apply State.freeSlots_kept | apply State.loseStream_kept | apply foldl_kept)

theorem State.endWaiting_kept (s : State) (p : Nat → Strand → Bool) (hk : State.Kept Q s) :
    State.Kept Q (State.endWaiting s p) := by
  unfold State.endWaiting
  repeat' first
    | intro _ | (with_reducible first | assumption | apply ite_kept | apply State.endJob_kept | apply foldl_kept)
    | split

theorem State.resetTu_kept (s : State) (hk : State.Kept Q s) :
    State.Kept Q (State.resetTu s) := by
  unfold State.resetTu
  repeat' first
    | with_reducible assumption | dsimp only
    | (with_reducible first | apply State.emptyTier_kept | apply State.rewind_kept | apply State.answerTu_kept | apply State.endWaiting_kept)

theorem State.endTag_kept (s : State) (g : Tag) (hk : State.Kept Q s) :
    State.Kept Q (State.endTag s g) := by
  unfold State.endTag
  repeat' first | (with_reducible first | assumption | apply State.requestFailed_kept)

theorem State.resetDm_kept (s : State) (hk : State.Kept Q s) :
    State.Kept Q (State.resetDm s) := by
  unfold State.resetDm
  repeat' first
    | with_reducible assumption | dsimp only | simp only [mk_kept] | with_reducible apply State.dmStop_kept

theorem State.resetLx_kept (s : State) (p : Nat) (hk : State.Kept Q s) :
    State.Kept Q (State.resetLx s p) := by
  unfold State.resetLx
  repeat' first
    | intro _ | with_reducible assumption | dsimp only | simp only [mk_kept]
    | (with_reducible first | apply State.updPort_kept | apply State.dropAll_kept | apply State.portTo_kept | apply State.endTag_kept | apply foldl_kept)

theorem State.resetKmBlock_kept (s : State) (hk : State.Kept Q s) :
    State.Kept Q (State.resetKmBlock s) := by
  unfold State.resetKmBlock
  repeat' first
    | with_reducible assumption | dsimp only
    | (with_reducible first | apply State.resetKm_kept | apply State.answerKm_kept | apply State.endWaiting_kept)

theorem State.resetDx_kept (s : State) (hk : State.Kept Q s) :
    State.Kept Q (State.resetDx s) := by
  unfold State.resetDx
  repeat' first
    | intro _ | with_reducible assumption | dsimp only | simp only [mk_kept]
    | (with_reducible first | apply State.endDigests_kept | apply State.freeEngines_kept | apply State.postEnd_kept | apply State.dropContexts_kept | apply foldl_kept)
    | split

theorem State.resetHp_kept (s : State) (hk : State.Kept Q s) :
    State.Kept Q (State.resetHp s) := by
  unfold State.resetHp
  repeat' first | with_reducible assumption | dsimp only | simp only [mk_kept]

theorem State.clearSnaps_kept (s : State) (hk : State.Kept Q s) :
    State.Kept Q (State.clearSnaps s) := by
  unfold State.clearSnaps
  repeat' first | intro _ | (with_reducible first | assumption | apply State.setF_kept | apply foldl_kept)

theorem State.resetEffect_kept (s : State) (b : Nat) (hk : State.Kept Q s) :
    State.Kept Q (State.resetEffect s b) := by
  unfold State.resetEffect
  repeat' first
    | intro _ | (with_reducible first | assumption | apply ite_kept) | dsimp only | simp only [mk_kept]
    | (with_reducible first | apply State.startAf_kept | apply State.cutFrame_kept | apply State.abandonSounding_kept | apply State.startUp_kept | apply State.resetEngine_kept | apply State.resetSe_kept | apply State.resetTu_kept | apply State.resetDm_kept | apply State.resetLx_kept | apply State.resetKmBlock_kept | apply State.resetDx_kept | apply State.resetHp_kept | apply State.clearSnaps_kept | apply foldl_kept)

theorem State.advanceEpochs_kept (s : State) (p : Nat → Bool) (hk : State.Kept Q s) :
    State.Kept Q (State.advanceEpochs s p) := by
  unfold State.advanceEpochs
  repeat' first | intro _ | (with_reducible first | assumption | apply State.setReg_kept | apply foldl_kept)

theorem State.resetBlockRegs_kept (s : State) (b : Nat) (hk : State.Kept Q s) :
    State.Kept Q (State.resetBlockRegs s b) := by
  unfold State.resetBlockRegs
  repeat' first
    | (with_reducible first | assumption | apply ite_kept) | dsimp only | simp only [mk_kept]
    | (with_reducible first | apply State.resetRegs_kept | apply State.loadWatches_kept) | split

theorem State.startReset_kept (s : State) (b : Nat) (hk : State.Kept Q s) :
    State.Kept Q (State.startReset s b) := by
  unfold State.startReset
  repeat' first
    | (with_reducible first | assumption | apply ite_kept) | dsimp only | simp only [mk_kept]
    | (with_reducible first | apply State.wake_kept | apply State.settle_kept | apply State.resetEffect_kept | apply State.advanceEpochs_kept | apply State.resetBlockRegs_kept)

theorem State.stopEngines_kept (s : State) (hk : State.Kept Q s) :
    State.Kept Q (State.stopEngines s) := by
  unfold State.stopEngines
  repeat' first | (with_reducible first | assumption | apply State.endDigests_kept | apply State.freeEngines_kept)

theorem State.eraseForSafe_kept (s : State) (hk : State.Kept Q s) :
    State.Kept Q (State.eraseForSafe s) := by
  unfold State.eraseForSafe
  repeat' first
    | with_reducible assumption | dsimp only | simp only [mk_kept_sx] | with_reducible apply State.eraseKeys_kept

theorem State.lockLoad_kept (s : State) (hk : State.Kept Q s) :
    State.Kept Q (State.lockLoad s) := by
  unfold State.lockLoad
  repeat' first
    | (with_reducible first | assumption | apply ite_kept) | dsimp only | simp only [mk_kept]
    | with_reducible apply State.reply_kept | split

theorem State.enterSafe_kept (s : State) (cause : Nat) (hk : State.Kept Q s) :
    State.Kept Q (State.enterSafe s cause) := by
  unfold State.enterSafe
  repeat' first
    | intro _ | (with_reducible first | assumption | apply ite_kept) | dsimp only | simp only [mk_kept]
    | (with_reducible first | apply State.setReg_kept | apply State.postOwner_kept | apply State.portOff_kept | apply State.stopAf_kept | apply State.settle_kept | apply State.dropBlocks_kept | apply State.fireWaypoint_kept | apply State.stopEngines_kept | apply State.eraseForSafe_kept | apply State.lockLoad_kept | apply foldl_kept)

theorem State.latch_kept (s : State) (p : Pulse) (hk : State.Kept Q s) :
    State.Kept Q (State.latch s p) := by
  unfold State.latch
  repeat' first
    | (with_reducible first | assumption | apply ite_kept) | dsimp only
    | (with_reducible first | apply State.setF_kept | apply State.postOwner_kept | apply State.bump_kept | apply State.fireWaypoint_kept)

theorem State.enginePart_kept (s : State) (p : Pulse) (hk : State.Kept Q s) :
    State.Kept Q (State.enginePart s p).1 := by
  unfold State.enginePart
  repeat' first
    | with_reducible assumption | dsimp only
    | (with_reducible first | apply State.fence_kept | apply State.startReset_kept) | split

theorem State.stepParts_kept (s : State) (l : List (Nat × Nat × Nat × W32)) (n : Nat) (hk : State.Kept Q s) :
    State.Kept Q (s.stepParts l n) := by
  induction n generalizing s l with
  | zero => cases l <;> (unfold State.stepParts; exact hk)
  | succ n ih =>
    cases l with
    | nil => unfold State.stepParts; exact hk
    | cons p l =>
      unfold State.stepParts
      dsimp only
      split
      · exact ih _ _ hk
      · exact ih _ _ (State.restartStep_kept _ _ _ _ hk)

theorem State.react_kept (s : State) (ps : List Pulse) (hk : State.Kept Q s) :
    State.Kept Q (State.react s ps) := by
  unfold State.react
  repeat' first
    | intro _ | (with_reducible first | assumption | apply ite_kept) | dsimp only
    | (with_reducible first | apply State.setF_kept | apply State.enterSafe_kept | apply State.enginePart_kept | apply State.stepParts_kept | apply foldl_fst_kept)
    | split

theorem State.fcUpdate_kept (s : State) (hk : State.Kept Q s) :
    State.Kept Q (State.fcUpdate s) := by
  unfold State.fcUpdate
  repeat' first
    | (with_reducible first | assumption | apply ite_kept | apply State.setF_kept | apply State.pulse_kept)

theorem State.resetCtx_kept (s : State) (c : Nat) (hk : State.Kept Q s) :
    State.Kept Q (State.resetCtx s c) := by
  unfold State.resetCtx
  repeat' first
    | (with_reducible first | assumption | apply ite_kept) | dsimp only
    | (with_reducible first | apply State.setCtx_kept | apply State.abortJob_kept | apply State.closeCtx_kept | apply State.drain_kept)
    | split

theorem State.startFieldReset_kept (s : State) (f : Nat) (hk : State.Kept Q s) :
    State.Kept Q (State.startFieldReset s f) := by
  unfold State.startFieldReset
  repeat' first
    | intro _ | (with_reducible first | assumption | apply ite_kept) | dsimp only | simp only [mk_kept]
    | (with_reducible first | apply State.wake_kept | apply State.removeNode_kept | apply State.settle_kept | apply State.dmAbort_kept | apply State.advanceEpochs_kept | apply State.resetCtx_kept | apply foldl_kept)

theorem State.writeFcReset_kept (s : State) (v : Nat) (hk : State.Kept Q s) :
    State.Kept Q (State.writeFcReset s v) := by
  unfold State.writeFcReset
  repeat' first
    | (with_reducible first | assumption | apply ite_kept) | dsimp only
    | (with_reducible first | apply State.startReset_kept | apply State.stepParts_kept | apply State.startFieldReset_kept)

theorem State.writeFcFence_kept (s : State) (v : Nat) (hk : State.Kept Q s) :
    State.Kept Q (State.writeFcFence s v) := by
  unfold State.writeFcFence
  repeat' first
    | intro _
    | (with_reducible first | assumption | apply ite_kept | apply State.fence_kept | apply State.unfence_kept | apply foldl_kept)

/-! ### Sounding -/

theorem State.refusePack_kept (s : State) (slot item : Nat) (hk : State.Kept Q s) :
    State.Kept Q (State.refusePack s slot item) := by
  unfold State.refusePack
  repeat' first | (with_reducible first | assumption | apply State.postOwner_kept)

theorem State.loadPack_kept (s : State) (slot off : Nat) (hk : State.Kept Q s) :
    State.Kept Q (State.loadPack s slot off).1 := by
  unfold State.loadPack
  repeat' first
    | (with_reducible first | assumption | apply ite_fst_kept) | dsimp only | simp only [mk_kept]
    | with_reducible apply State.refusePack_kept | split

theorem State.beginSounding_kept (s : State) (n e : Nat) (p : Pack) (hk : State.Kept Q s) :
    State.Kept Q (State.beginSounding s n e p) := by
  unfold State.beginSounding
  repeat' first
    | (with_reducible first | assumption | apply ite_kept) | dsimp only | simp only [mk_kept]
    | (with_reducible first | apply State.write_kept | apply State.zero_kept | apply State.pick_kept)

theorem State.soundState_kept (s : State) (v : Env) (ops : List Nat) (base k : Nat) (hk : State.Kept Q s) :
    State.Kept Q (State.soundState s v ops base k).1 := by
  unfold State.soundState
  repeat' first
    | (with_reducible first | assumption | apply ite_fst_kept) | dsimp only
    | (with_reducible first | apply State.scanLoad_kept | apply State.scanRun_kept | apply State.holdRun_kept | (apply fst_kept; assumption))
    | split

theorem State.soundWork_kept (s : State) (v : Env) (kind : Nat) (ops : List Nat) (base k : Nat) (hk : State.Kept Q s) :
    State.Kept Q (State.soundWork s v kind ops base k).1 := by
  unfold State.soundWork
  repeat' first
    | (with_reducible first | assumption | apply ite_fst_kept) | dsimp only
    | (with_reducible first | apply State.setF_kept | apply State.bump16_kept | apply State.gateWork_kept | apply State.addWork_kept | apply State.sumqWork_kept | apply State.rmsnormWork_kept | apply State.projGroups_kept | apply State.outerRows_kept | apply State.updateRows_kept | apply State.attPair_kept | apply State.attOutputs_kept | apply State.winRun_kept | apply State.soundState_kept | (apply fst_kept; assumption))
    | split

theorem State.soundFault_kept (s : State) (e i : Nat) (g : GroupFault) (hk : State.Kept Q s) :
    State.Kept Q (State.soundFault s e i g) := by
  unfold State.soundFault
  repeat' first
    | (with_reducible first | assumption | apply State.setF_kept | apply State.postOwner_kept | apply State.bump16_kept)
    | split

theorem State.soundCmd_kept (s : State) (e kind seed base k : Nat) (h : Nat) (ops : List Nat) (hk : State.Kept Q s) :
    State.Kept Q (State.soundCmd s e kind seed base k h ops).1 := by
  unfold State.soundCmd
  repeat' first
    | intro _ | (with_reducible first | assumption | apply ite_fst_kept) | dsimp only
    | (with_reducible first | apply State.bump32_kept | apply State.cmRead_kept | apply State.engChecks_kept | apply State.soundWork_kept | apply State.soundFault_kept | apply foldl_fst_kept | (apply fst_kept; assumption))
    | split

theorem State.soundRun_kept (s : State) (e kind seed base k : Nat) (y0 : List (Nat × Nat × List Nat))
    (hk : State.Kept Q s) :
    State.Kept Q (State.soundRun s e kind seed base k y0) := by
  induction y0 generalizing s e kind seed base k with
  | nil =>
    unfold State.soundRun
    exact hk
  | cons a l ih =>
    unfold State.soundRun
    repeat' first
      | (with_reducible first | assumption | apply ih | apply State.soundCmd_kept | (apply fst_kept; assumption))
      | split

theorem State.soundVerdict_kept (s : State) (n e id : Nat) (pass : Bool) (hk : State.Kept Q s) :
    State.Kept Q (State.soundVerdict s n e id pass) := by
  unfold State.soundVerdict
  repeat' first
    | (with_reducible first | assumption | apply ite_kept) | dsimp only | simp only [mk_kept]
    | (with_reducible first | apply State.setReg_kept | apply State.postOwner_kept | apply State.bump_kept | apply State.detect_kept | apply State.fireWaypoint_kept | apply State.fence_kept)

/-! ### Flags -/

theorem State.snap_kept (s : State) (b : Nat) (hk : State.Kept Q s) :
    State.Kept Q (State.snap s b) := by
  unfold State.snap
  repeat' first
    | (with_reducible first | assumption | apply ite_kept) | dsimp only
    | (with_reducible first | apply State.setReg_kept | apply State.setF_kept)

/-! ### Registers -/

theorem State.readWord_kept (s : State) (r : Role) (a : Nat) (hk : State.Kept Q s) :
    State.Kept Q (State.readWord s r a).1 := by
  unfold State.readWord
  repeat' first
    | (with_reducible first | assumption | apply ite_kept | apply ite_fst_kept) | dsimp only | simp only [mk_kept]
    | split

theorem State.readWords_kept (s : State) (r : Role) (a : Nat) (y0 : Nat) (hk : State.Kept Q s) :
    State.Kept Q (State.readWords s r a y0).1 := by
  induction y0 generalizing s r a with
  | zero =>
    unfold State.readWords
    exact hk
  | succ n ih =>
    unfold State.readWords
    repeat' first | (with_reducible first | assumption | apply ih | apply State.readWord_kept)

theorem State.plainWrite_kept (s : State) (d : RegDesc) (c : Nat) (hi : Bool) (v : W32) (hk : State.Kept Q s) :
    State.Kept Q (State.plainWrite s d c hi v) := by
  unfold State.plainWrite
  repeat' first | (with_reducible first | assumption | apply ite_kept | apply State.setReg_kept)

theorem State.clearWatches_kept (s : State) (e : Nat) (hi : Bool) (v : W32) (hk : State.Kept Q s) :
    State.Kept Q (State.clearWatches s e hi v) := by
  unfold State.clearWatches
  repeat' first
    | intro _ | (with_reducible first | assumption | apply ite_kept) | dsimp only
    | (with_reducible first | apply State.setReg_kept | apply State.setF_kept | apply State.updEngine_kept | apply foldl_kept)

theorem State.watchWrite_kept (s : State) (e n : Nat) (hi : Bool) (v : W32) (hk : State.Kept Q s) :
    State.Kept Q (State.watchWrite s e n hi v) := by
  unfold State.watchWrite
  repeat' first
    | (with_reducible first | assumption | apply ite_kept | apply State.updEngine_kept | apply State.writeWatch_kept)

theorem State.dgrpWrite_kept (s : State) (n : Nat) (peer hi : Bool) (v : W32) (hk : State.Kept Q s) :
    State.Kept Q (State.dgrpWrite s n peer hi v) := by
  unfold State.dgrpWrite
  repeat' first
    | (with_reducible first | assumption | apply ite_kept) | dsimp only | simp only [mk_kept]
    | with_reducible apply State.writeDgrp_kept

theorem State.trainWrite_kept (s : State) (d : RegDesc) (v : W32) (hk : State.Kept Q s) :
    State.Kept Q (State.trainWrite s d v) := by
  unfold State.trainWrite
  repeat' first
    | (with_reducible first | assumption | apply ite_kept | apply State.startUp_kept | apply State.plainWrite_kept)

theorem State.clearSources_kept (s : State) (hi : Bool) (v : W32) (hk : State.Kept Q s) :
    State.Kept Q (State.clearSources s hi v) := by
  unfold State.clearSources
  repeat' first
    | with_reducible assumption | dsimp only
    | (with_reducible first | apply State.setReg_kept | apply State.fcUpdate_kept)

theorem State.forceSources_kept (s : State) (hi : Bool) (v : W32) (hk : State.Kept Q s) :
    State.Kept Q (State.forceSources s hi v) := by
  unfold State.forceSources
  repeat' first
    | intro _ | (with_reducible first | assumption | apply ite_kept) | dsimp only
    | (with_reducible first | apply State.pulse_kept | apply foldl_kept)

theorem State.wpWrite_kept (s : State) (d : RegDesc) (v : W32) (hk : State.Kept Q s) :
    State.Kept Q (State.wpWrite s d v) := by
  unfold State.wpWrite
  repeat' first
    | (with_reducible first | assumption | apply ite_kept | apply State.fireWaypoint_kept | apply State.clearSnaps_kept | apply State.plainWrite_kept)

theorem State.pwInject_kept (s : State) (d : RegDesc) (v : W32) (hk : State.Kept Q s) :
    State.Kept Q (State.pwInject s d v) := by
  unfold State.pwInject
  repeat' first
    | intro _
    | (with_reducible first | assumption | apply State.check_kept | apply State.plainWrite_kept | apply foldl_kept)

theorem State.ckInject_kept (s : State) (d : RegDesc) (v : W32) (hk : State.Kept Q s) :
    State.Kept Q (State.ckInject s d v) := by
  unfold State.ckInject
  repeat' first
    | intro _
    | (with_reducible first | assumption | apply ite_kept | apply State.setF_kept | apply State.loseClock_kept | apply State.plainWrite_kept | apply foldl_kept)

theorem State.writeEngineReg_kept (s : State) (d : RegDesc) (c b o : Nat) (hi : Bool) (v : W32) (hk : State.Kept Q s) :
    State.Kept Q (State.writeEngineReg s d c b o hi v) := by
  unfold State.writeEngineReg
  repeat' first
    | (with_reducible first | assumption | apply ite_kept | apply State.plainWrite_kept | apply State.clearWatches_kept | apply State.watchWrite_kept | apply State.dgrpWrite_kept)

theorem State.writeDmReg_kept (s : State) (d : RegDesc) (c o : Nat) (hi : Bool) (v : W32) (hk : State.Kept Q s) :
    State.Kept Q (State.writeDmReg s d c o hi v) := by
  unfold State.writeDmReg
  repeat' first
    | (with_reducible first | assumption | apply ite_kept | apply State.dmRegWrite_kept | apply State.dmCtlWrite_kept | apply State.plainWrite_kept)

theorem State.writeIpReg_kept (s : State) (d : RegDesc) (c o : Nat) (hi : Bool) (v : W32) (hk : State.Kept Q s) :
    State.Kept Q (State.writeIpReg s d c o hi v) := by
  unfold State.writeIpReg
  repeat' first
    | (with_reducible first | assumption | apply ite_kept | apply State.settleCameras_kept | apply State.writeIpGate_kept | apply State.plainWrite_kept)

theorem State.writeFcReg_kept (s : State) (d : RegDesc) (c o : Nat) (hi : Bool) (v : W32) (hk : State.Kept Q s) :
    State.Kept Q (State.writeFcReg s d c o hi v) := by
  unfold State.writeFcReg
  repeat' first
    | (with_reducible first | assumption | apply ite_kept | apply State.enterSafe_kept | apply State.fcUpdate_kept | apply State.writeFcReset_kept | apply State.writeFcFence_kept | apply State.plainWrite_kept | apply State.clearSources_kept | apply State.forceSources_kept)

theorem State.writeSel_kept (s : State) (r : Role) (d : RegDesc) (b : Nat) (hi : Bool) (v : W32) (hk : State.Kept Q s) :
    State.Kept Q (State.writeSel s r d b hi v) := by
  unfold State.writeSel
  repeat' first | with_reducible assumption | simp only [mk_kept]

theorem State.ownerWrite_kept (s : State) (d : RegDesc) (c b o : Nat) (hi : Bool) (v : W32) (hk : State.Kept Q s) :
    State.Kept Q (State.ownerWrite s d c b o hi v) := by
  unfold State.ownerWrite
  repeat' first
    | (with_reducible first | assumption | apply ite_kept | apply State.writeKmCtl_kept | apply State.commitBeam_kept | apply State.writeNbr_kept | apply State.writeLend_kept | apply State.writeLxCtl_kept | apply State.writeLxId_kept | apply State.plainWrite_kept | apply State.trainWrite_kept | apply State.wpWrite_kept | apply State.pwInject_kept | apply State.ckInject_kept | apply State.writeEngineReg_kept | apply State.writeDmReg_kept | apply State.writeIpReg_kept | apply State.writeFcReg_kept | apply State.writeSel_kept)

theorem State.fieldWrite_kept (s : State) (f : Fin 8) (d : RegDesc) (c b o : Nat) (hi : Bool) (v : W32)
    (hk : State.Kept Q s) :
    State.Kept Q (State.fieldWrite s f d c b o hi v) := by
  unfold State.fieldWrite
  repeat' first
    | (with_reducible first | assumption | apply ite_kept | apply State.writeDmReg_kept | apply State.writeSel_kept)

theorem State.writeWord_kept (s : State) (r : Role) (a : Nat) (v : W32) (hk : State.Kept Q s) :
    State.Kept Q (State.writeWord s r a v) := by
  unfold State.writeWord
  repeat' first
    | (with_reducible first | assumption | apply ite_kept) | dsimp only
    | (with_reducible first | apply State.ownerWrite_kept | apply State.fieldWrite_kept) | split

theorem State.writeWords_kept (s : State) (r : Role) (a : Nat) (y0 : List W32) (hk : State.Kept Q s) :
    State.Kept Q (State.writeWords s r a y0) := by
  induction y0 generalizing s r a with
  | nil =>
    unfold State.writeWords
    exact hk
  | cons a l ih =>
    unfold State.writeWords
    repeat' first | (with_reducible first | assumption | apply ih | apply State.writeWord_kept)

theorem State.regReadOp_kept (s : State) (r : Role) (a n : Nat) (hk : State.Kept Q s) :
    State.Kept Q (State.regReadOp s r a n).1 := by
  unfold State.regReadOp
  repeat' first
    | (with_reducible first | assumption | apply ite_fst_kept) | dsimp only
    | with_reducible apply State.readWords_kept

theorem State.regWriteOp_kept (s : State) (r : Role) (a : Nat) (ws : List W32) (hk : State.Kept Q s) :
    State.Kept Q (State.regWriteOp s r a ws).1 := by
  unfold State.regWriteOp
  repeat' first
    | (with_reducible first | assumption | apply ite_fst_kept) | dsimp only
    | with_reducible apply State.writeWords_kept

/-! ### HostPort -/

theorem State.driveNone_kept (s : State) (hk : State.Kept Q s) :
    State.Kept Q (State.driveNone s) := by
  unfold State.driveNone
  repeat' first | with_reducible assumption | dsimp only | simp only [mk_kept]

theorem State.badFrame_kept (s : State) (hk : State.Kept Q s) :
    State.Kept Q (State.badFrame s) := by
  unfold State.badFrame
  repeat' first | (with_reducible first | assumption | apply State.bump_kept)

theorem State.ignore_kept (s : State) (hk : State.Kept Q s) :
    State.Kept Q (State.ignore s) := by
  unfold State.ignore
  repeat' first | (with_reducible first | assumption | apply State.driveNone_kept | apply State.badFrame_kept)

theorem State.answerOpen_kept (s : State) (status : Nat) (data : List Byte) (hk : State.Kept Q s) :
    State.Kept Q (State.answerOpen s status data) := by
  unfold State.answerOpen
  repeat' first | (with_reducible first | assumption | apply ite_kept | apply State.queueFrame_kept)

theorem State.refuseFrame_kept (s : State) (data : List Byte) (hk : State.Kept Q s) :
    State.Kept Q (State.refuseFrame s data) := by
  unfold State.refuseFrame
  repeat' first | (with_reducible first | assumption | apply State.badFrame_kept | apply State.answerOpen_kept)

theorem State.refuseBad_kept (s : State) (hk : State.Kept Q s) :
    State.Kept Q (State.refuseBad s) := by
  unfold State.refuseBad
  repeat' first
    | intro _
    | (with_reducible first | assumption | apply ite_kept | apply State.reply_kept | apply State.takeRequest_kept | apply foldl_kept)

theorem State.acceptFrame_kept (s : State) (r : Role) (d payload : List Byte) (hk : State.Kept Q s) :
    State.Kept Q (State.acceptFrame s r d payload) := by
  unfold State.acceptFrame
  repeat' first
    | with_reducible assumption | dsimp only | simp only [mk_kept]
    | (with_reducible first | apply State.bump32_kept | apply State.refuseBad_kept)

theorem State.sessionFrame_kept (s : State) (r : Role) (d : List Byte) (hk : State.Kept Q s) :
    State.Kept Q (State.sessionFrame s r d) := by
  unfold State.sessionFrame
  repeat' first
    | (with_reducible first | assumption | apply ite_kept) | dsimp only | simp only [mk_kept_sx]
    | (with_reducible first | apply State.reply_kept | apply State.authFail_kept | apply State.acceptFrame_kept)
    | split

theorem State.takeFrameIn_kept (s : State) (len : Nat) (d : List Byte) (hk : State.Kept Q s) :
    State.Kept Q (State.takeFrameIn s len d) := by
  unfold State.takeFrameIn
  repeat' first
    | (with_reducible first | assumption | apply ite_kept | apply State.bump_kept | apply State.check_kept | apply State.keyCheck_kept | apply State.answerOpen_kept | apply State.refuseFrame_kept | apply State.acceptFrame_kept | apply State.sessionFrame_kept)
    | split

theorem State.popFrame_kept (s : State) (hk : State.Kept Q s) :
    State.Kept Q (State.popFrame s) := by
  unfold State.popFrame
  repeat' first
    | with_reducible assumption | dsimp only | simp only [mk_kept] | with_reducible apply State.refuseBad_kept

theorem State.sendPieces_kept (s : State) (d off len g : Nat) (read : Bool) (bs : List Byte) (hk : State.Kept Q s) :
    State.Kept Q (State.sendPieces s d off len g read bs) := by
  unfold State.sendPieces
  repeat' first
    | intro _ | (with_reducible first | assumption | apply getD_kept) | dsimp only
    | (with_reducible first | (apply optKept_mono; apply State.request_opt) | apply foldl_kept)

theorem State.gatherStart_kept (s : State) (r : Role) (rid d off len : Nat) (read : Bool) (bs : List Byte)
    (hk : State.Kept Q s) :
    State.Kept Q (State.gatherStart s r rid d off len read bs) := by
  unfold State.gatherStart
  repeat' first
    | with_reducible assumption | dsimp only | simp only [mk_kept] | with_reducible apply State.sendPieces_kept

end Sys2Proof.Machine
end

