-- ==== Sys2Proof/Laws/KeptMeanings.lean ====
section
/-!
SUPPORT. State.Kept for the meaning of each command: the next state it answers, if it answers one.
-/
namespace Sys2Proof.Machine

/-- State.Kept of the next state that an outcome holds. -/
structure OutKept (Q : Mark) (o : Host.Outcome State Fault Refusal) : Prop where
  use : ∀ t, o = .next t → t.Kept Q

theorem outKept_next {Q : Mark} {s : State} (h : s.Kept Q) : OutKept Q (.next s) := ⟨fun t e => by cases e; exact h⟩

theorem outKept_ite {Q : Mark} {c : Prop} [Decidable c] {x y : Host.Outcome State Fault Refusal} (h1 : OutKept Q x)
    (h2 : OutKept Q y) : OutKept Q (if c then x else y) := by
  split
  · exact h1
  · exact h2

variable {Q : Mark}

theorem State.regWriteMsg_kept (s : State) (r : Role) (rid a : Nat) (ws : List W32) (hk : State.Kept Q s) : OutKept
    Q (State.regWriteMsg s r rid a ws) := by
  unfold State.regWriteMsg
  repeat' first
    | intro _
    | (with_reducible first | assumption | apply outKept_next | apply State.message_kept | apply State.regWriteOp_kept)

theorem execGate_kept (e : Nat) (s : State) (hk : State.Kept Q s) : OutKept Q (execGate e s) := by
  unfold execGate
  repeat' first
    | intro _
    | (with_reducible first | assumption | apply outKept_next | apply State.runMatrix_kept | apply State.gateWork_kept)
    | split

theorem execAdd_kept (e : Nat) (s : State) (hk : State.Kept Q s) : OutKept Q (execAdd e s) := by
  unfold execAdd
  repeat' first
    | intro _
    | (with_reducible first | assumption | apply outKept_next | apply State.runMatrix_kept | apply State.addWork_kept)
    | split

theorem execSumq_kept (e : Nat) (s : State) (hk : State.Kept Q s) : OutKept Q (execSumq e s) := by
  unfold execSumq
  repeat' first
    | intro _
    | (with_reducible first | assumption | apply outKept_next | apply State.runMatrix_kept | apply State.sumqWork_kept)
    | split

theorem execRmsnorm_kept (e : Nat) (s : State) (hk : State.Kept Q s) : OutKept Q (execRmsnorm e s) := by
  unfold execRmsnorm
  repeat' first
    | intro _
    | (with_reducible first | assumption | apply outKept_next | apply State.runMatrix_kept | apply State.rmsnormWork_kept)
    | split

theorem execProj_kept (e : Nat) (s : State) (hk : State.Kept Q s) : OutKept Q (execProj e s) := by
  unfold execProj
  repeat' first
    | intro _ | (with_reducible first | assumption | apply outKept_next | apply ite_kept) | dsimp only
    | (with_reducible first | apply State.startRun_kept | apply State.engChecks_kept | (apply State.readRanges_kept; assumption) | (apply State.readRanges_some; assumption) | apply State.finishOp_kept | apply State.withStep_kept | apply State.projGroups_kept | apply State.projOn_kept)
    | split

theorem execOuter_kept (e : Nat) (s : State) (hk : State.Kept Q s) : OutKept Q (execOuter e s) := by
  unfold execOuter
  repeat' first
    | intro _ | (with_reducible first | assumption | apply outKept_next) | dsimp only
    | (with_reducible first | apply State.runMatrix_kept | apply State.outerRows_kept) | split

theorem execUpdate_kept (e : Nat) (s : State) (hk : State.Kept Q s) : OutKept Q (execUpdate e s) := by
  unfold execUpdate
  repeat' first
    | intro _
    | (with_reducible first | assumption | apply outKept_next | apply State.runMatrix_kept | apply State.updateRows_kept)
    | split

theorem execDigest_kept (e : Nat) (s : State) (hk : State.Kept Q s) : OutKept Q (execDigest e s) := by
  unfold execDigest
  repeat' first
    | intro _ | (with_reducible first | assumption | apply outKept_next | apply ite_kept) | dsimp only
    | simp only [mk_kept]
    | (with_reducible first | apply State.sendMsg_kept | apply State.block_kept | apply State.failCmd_kept | apply State.startRun_kept | (apply State.readRanges_kept; assumption) | (apply State.readRanges_some; assumption) | apply State.withStep_kept | apply foldl_kept)
    | split

theorem execDigestVerdict_kept (n : Nat) (s : State) (hk : State.Kept Q s) : OutKept Q (execDigestVerdict n s) := by
  unfold execDigestVerdict
  repeat' first
    | intro _ | (with_reducible first | assumption | apply outKept_next | apply outKept_ite | apply ite_kept)
    | dsimp only | simp only [mk_kept]
    | (with_reducible first | apply State.setReg_kept | apply State.setF_kept | apply State.post_kept | apply State.postOwner_kept | apply State.bump32_kept | apply State.endDigest_kept | apply State.endJob_kept | apply State.expelSlot_kept | apply State.digestDone_kept | apply foldl_kept)
    | split

theorem execFlushCopyDone_kept (c : Nat) (s : State) (hk : State.Kept Q s) : OutKept Q (execFlushCopyDone c s) := by
  unfold execFlushCopyDone
  repeat' first
    | (with_reducible first | assumption | apply outKept_next | apply outKept_ite | apply ite_fst_kept) | dsimp only
    | simp only [mk_kept]
    | (with_reducible first | apply State.wake_kept | apply State.updKv_kept | apply State.refuseFlush_kept | apply State.applyEdit_kept | apply State.flushCopy_kept | (apply fst_kept; assumption))
    | split

theorem execHeldEditApply_kept (c : Nat) (s : State) (hk : State.Kept Q s) : OutKept Q (execHeldEditApply c s) := by
  unfold execHeldEditApply
  repeat' first
    | intro _ | (with_reducible first | assumption | apply outKept_next | apply outKept_ite) | dsimp only
    | simp only [mk_kept]
    | (with_reducible first | apply State.wake_kept | apply State.updKv_kept | apply State.applyEdit_kept | apply foldl_kept)

theorem execCopyComplete_kept (s : State) (hk : State.Kept Q s) : OutKept Q (execCopyComplete s) := by
  unfold execCopyComplete
  repeat' first
    | (with_reducible first | assumption | apply outKept_next | apply outKept_ite) | dsimp only | simp only [mk_kept]
    | (with_reducible first | apply State.setF_kept | apply State.reply_kept) | split

theorem execKvInit_kept (r : Role) (rid ctx stage : Nat) (s : State) (hk : State.Kept Q s) : OutKept Q
    (execKvInit r rid ctx stage s) := by
  unfold execKvInit
  repeat' first
    | intro _
    | (with_reducible first | assumption | apply outKept_next | apply State.updKv_kept | apply State.kvOp_kept | apply kvDone_kept)
    | split

theorem execKvAdopt_kept (r : Role) (rid ctx tokaddr ntok tag : Nat) (s : State) (hk : State.Kept Q s) : OutKept Q
    (execKvAdopt r rid ctx tokaddr ntok tag s) := by
  unfold execKvAdopt
  repeat' first
    | intro _ | (with_reducible first | assumption | apply outKept_next) | dsimp only
    | (with_reducible first | apply State.updKv_kept | apply State.tryPlaces_kept | apply State.kvOp_kept | apply kvDone_kept | apply kvEnd_kept | apply State.useKm_kept | (apply State.adoptBlocks_kept; assumption) | apply State.tokensRead_kept | (apply fst_kept; assumption))
    | split

theorem execKvPublish_kept (r : Role) (rid ctx tokaddr nblocks tag : Nat) (s : State) (hk : State.Kept Q s) :
    OutKept Q (execKvPublish r rid ctx tokaddr nblocks tag s) := by
  unfold execKvPublish
  repeat' first
    | intro _ | (with_reducible first | assumption | apply outKept_next) | dsimp only
    | (with_reducible first | apply State.tryPlaces_kept | apply State.kvOp_kept | apply kvDone_kept | apply kvEnd_kept | apply State.useKm_kept | apply State.tokensRead_kept | (apply State.publishBlocks_kept; assumption) | (apply fst_kept; assumption))
    | split

theorem execKvTruncate_kept (r : Role) (rid ctx t : Nat) (s : State) (hk : State.Kept Q s) : OutKept Q
    (execKvTruncate r rid ctx t s) := by
  unfold execKvTruncate
  repeat' first
    | intro _ | (with_reducible first | assumption | apply outKept_next) | dsimp only
    | (with_reducible first | apply State.updKv_kept | apply State.clearFrom_kept | apply State.tryPlaces_kept | apply State.kvOp_kept | apply kvDone_kept | apply kvUndo_kept | apply State.copyTokens_kept | (apply fst_kept; assumption))
    | split | with_reducible apply kvCopy_kept

theorem execKvFree_kept (r : Role) (rid ctx : Nat) (s : State) (hk : State.Kept Q s) : OutKept Q
    (execKvFree r rid ctx s) := by
  unfold execKvFree
  repeat' first
    | intro _
    | (with_reducible first | assumption | apply outKept_next | apply State.freeKv_kept | apply State.kvOp_kept | apply kvDone_kept)

theorem execKvPrune_kept (r : Role) (rid field : Nat) (s : State) (hk : State.Kept Q s) : OutKept Q
    (execKvPrune r rid field s) := by
  unfold execKvPrune
  repeat' first
    | intro _ | (with_reducible first | assumption | apply outKept_next | apply outKept_ite | apply ite_fst_kept)
    | dsimp only
    | (with_reducible first | apply State.message_kept | apply State.kmCheck_kept | apply State.pruneNodes_kept)

theorem execKvFork_kept (r : Role) (rid src dst t : Nat) (s : State) (hk : State.Kept Q s) : OutKept Q
    (execKvFork r rid src dst t s) := by
  unfold execKvFork
  repeat' first
    | intro _ | (with_reducible first | assumption | apply outKept_next) | dsimp only
    | (with_reducible first | apply State.updKv_kept | apply State.tryPlaces_kept | apply State.kvOp_kept | apply kvDone_kept | apply kvEnd_kept | apply kvUndo_kept | apply State.copyTokens_kept | (apply State.forkBlocks_kept; assumption) | (apply fst_kept; assumption))
    | split

theorem execKvLoad_kept (r : Role) (rid ctx k addr : Nat) (s : State) (hk : State.Kept Q s) : OutKept Q
    (execKvLoad r rid ctx k addr s) := by
  unfold execKvLoad
  repeat' first
    | intro _ | (with_reducible first | assumption | apply outKept_next) | dsimp only | simp only [mk_kept]
    | (with_reducible first | apply optKept_some | apply optKept_ite | apply optKept_or | apply State.move_kept | apply State.updDesc_kept | apply State.kmCheck_kept | (apply optKept_mono; apply State.takeFrame_opt) | apply State.putEntry_kept | (apply optKept_mono; apply State.reclaimFrame_opt) | apply State.unref_kept | apply State.kvOp_kept | apply kvDone_kept | (apply fst_kept; assumption) | (apply optUse_snd; assumption))
    | split | with_reducible apply kvCopy_kept

theorem execAttend_kept (e : Nat) (s : State) (hk : State.Kept Q s) : OutKept Q (execAttend e s) := by
  unfold execAttend
  repeat' first
    | intro _ | (with_reducible first | assumption | apply outKept_next | apply ite_kept) | dsimp only
    | (with_reducible first | apply State.block_kept | apply State.failCmd_kept | apply State.startRun_kept | apply State.updRunning_kept | apply State.engChecks_kept | (apply State.readRanges_kept; assumption) | (apply State.readRanges_some; assumption) | apply State.groupFault_kept | apply State.withStep_kept | apply State.openWalk_kept | apply State.attPair_kept | apply State.attOutputs_kept | (apply fst_kept; assumption))
    | split

theorem execWalkerBlock_kept (e block : Nat) (s : State) (hk : State.Kept Q s) : OutKept Q
    (execWalkerBlock e block s) := by
  unfold execWalkerBlock
  repeat' first
    | (with_reducible first | assumption | apply outKept_next | apply outKept_ite) | dsimp only
    | (with_reducible first | apply State.failCmd_kept | apply State.kmCheck_kept | apply State.attCommons_kept | apply State.attUnified_kept)
    | split

theorem execAppend_kept (e : Nat) (s : State) (hk : State.Kept Q s) : OutKept Q (execAppend e s) := by
  unfold execAppend
  repeat' first
    | intro _ | (with_reducible first | assumption | apply outKept_next | apply ite_kept) | dsimp only
    | (with_reducible first | apply State.updRun_kept | apply State.block_kept | apply State.failCmd_kept | apply State.startRun_kept | (apply State.readRanges_kept; assumption) | (apply State.readRanges_some; assumption) | apply State.withStep_kept | apply State.kmCheck_kept | apply State.stageTokens_kept)
    | split

theorem execSwapOut_kept (s : State) (hk : State.Kept Q s) : OutKept Q (execSwapOut s) := by
  unfold execSwapOut
  repeat' first
    | intro _ | (with_reducible first | assumption | apply outKept_next | apply outKept_ite) | dsimp only
    | simp only [mk_kept]
    | (with_reducible first | apply State.bump_kept | apply State.cmRead_kept | apply State.tuWrite_kept | apply State.updStream_kept | apply State.retryStreams_kept | apply State.freeSlots_kept | apply State.loseStream_kept | apply foldl_fst_kept | (apply fst_kept; assumption))
    | split

theorem execSwapIn_kept (lost : Bool) (s : State) (hk : State.Kept Q s) : OutKept Q (execSwapIn lost s) := by
  unfold execSwapIn
  repeat' first
    | (with_reducible first | assumption | apply outKept_next | apply outKept_ite | apply ite_kept) | dsimp only
    | simp only [mk_kept]
    | (with_reducible first | apply State.bump_kept | apply State.wake_kept | apply State.replayStep_kept | apply State.tuRead_kept | apply State.updStream_kept | apply State.loseStream_kept | apply State.fillSlots_kept | (apply fst_kept; assumption))
    | split

theorem execScan_kept (e : Nat) (s : State) (hk : State.Kept Q s) : OutKept Q (execScan e s) := by
  unfold execScan
  repeat' first
    | intro _ | (with_reducible first | assumption | apply outKept_next) | dsimp only
    | (with_reducible first | apply State.recordOut_kept | apply State.failCmd_kept | apply State.startRun_kept | apply State.engChecks_kept | (apply State.readRanges_kept; assumption) | (apply State.readRanges_some; assumption) | apply State.groupFault_kept | apply State.scanLoad_kept | apply State.scanRun_kept | apply State.withStream_kept | (apply fst_kept; assumption))
    | split

theorem execHold_kept (e : Nat) (s : State) (hk : State.Kept Q s) : OutKept Q (execHold e s) := by
  unfold execHold
  repeat' first
    | intro _ | (with_reducible first | assumption | apply outKept_next | apply ite_kept) | dsimp only
    | (with_reducible first | apply State.failCmd_kept | apply State.startRun_kept | (apply State.readRanges_kept; assumption) | (apply State.readRanges_some; assumption) | apply State.withStream_kept | apply State.holdRun_kept)
    | split

theorem execStInit_kept (r : Role) (rid ctx nslot swap : Nat) (s : State) (hk : State.Kept Q s) : OutKept Q
    (execStInit r rid ctx nslot swap s) := by
  unfold execStInit
  repeat' first
    | intro _ | (with_reducible first | assumption | apply outKept_next | apply ite_fst_kept) | dsimp only
    | simp only [mk_kept] | (with_reducible first | apply State.slotCheck_kept | apply State.message_kept)

theorem execStReset_kept (r : Role) (rid ctx : Nat) (s : State) (hk : State.Kept Q s) : OutKept Q
    (execStReset r rid ctx s) := by
  unfold execStReset
  repeat' first
    | intro _ | (with_reducible first | assumption | apply outKept_next | apply ite_kept) | dsimp only
    | simp only [mk_kept]
    | (with_reducible first | apply State.write_kept | apply State.updStream_kept | apply State.stOp_kept | apply foldl_kept)

theorem execStEvict_kept (r : Role) (rid ctx : Nat) (s : State) (hk : State.Kept Q s) : OutKept Q
    (execStEvict r rid ctx s) := by
  unfold execStEvict
  repeat' first
    | intro _
    | (with_reducible first | assumption | apply outKept_next | apply ite_kept | apply State.requestOut_kept | apply State.stOp_kept)

theorem execStFree_kept (r : Role) (rid ctx : Nat) (s : State) (hk : State.Kept Q s) : OutKept Q
    (execStFree r rid ctx s) := by
  unfold execStFree
  repeat' first
    | intro _
    | (with_reducible first | assumption | apply outKept_next | apply State.retryStreams_kept | apply State.freeStream_kept | apply State.stOp_kept)

theorem execConv_kept (e : Nat) (s : State) (hk : State.Kept Q s) : OutKept Q (execConv e s) := by
  unfold execConv
  repeat' first | (with_reducible first | assumption | apply outKept_next | apply State.runWindow_kept) | split

theorem execPool_kept (e : Nat) (s : State) (hk : State.Kept Q s) : OutKept Q (execPool e s) := by
  unfold execPool
  repeat' first | (with_reducible first | assumption | apply outKept_next | apply State.runWindow_kept) | split

theorem execEconv_kept (e : Nat) (s : State) (hk : State.Kept Q s) : OutKept Q (execEconv e s) := by
  unfold execEconv
  repeat' first | (with_reducible first | assumption | apply outKept_next | apply State.runWindow_kept) | split

theorem execHaloRowRaise_kept (e row : Nat) (s : State) (hk : State.Kept Q s) : OutKept Q
    (execHaloRowRaise e row s) := by
  unfold execHaloRowRaise
  repeat' first
    | (with_reducible first | assumption | apply outKept_next | apply outKept_ite) | dsimp only
    | (with_reducible first | apply State.raiseShared_kept | apply State.wake_kept | apply State.updRunning_kept | apply State.winRow_kept | (apply fst_kept; assumption))
    | split

theorem execHaloPush_kept (e : Nat) (high : Bool) (row : Nat) (s : State) (hk : State.Kept Q s) : OutKept Q
    (execHaloPush e high row s) := by
  unfold execHaloPush
  repeat' first
    | (with_reducible first | assumption | apply outKept_next | apply outKept_ite) | dsimp only
    | (with_reducible first | apply State.failCmd_kept | apply State.updRunning_kept | (apply State.sendWrites_kept; assumption))
    | split

theorem execPushAcked_kept (e : Nat) (high : Bool) (row : Nat) (s : State) (hk : State.Kept Q s) : OutKept Q
    (execPushAcked e high row s) := by
  unfold execPushAcked
  repeat' first
    | (with_reducible first | assumption | apply outKept_next | apply outKept_ite) | dsimp only
    | (with_reducible first | apply State.wake_kept | apply State.updRunning_kept | (apply State.remoteRaise_kept; assumption))
    | split

theorem execAfSample_kept (pins : List (List Bool)) (s : State) (hk : State.Kept Q s) : OutKept Q
    (execAfSample pins s) := by
  unfold execAfSample
  repeat' first
    | intro _ | (with_reducible first | assumption | apply outKept_next | apply outKept_ite | apply ite_kept)
    | dsimp only | simp only [mk_kept]
    | (with_reducible first | apply State.bump16_kept | apply State.check_kept | apply State.wake_kept | apply State.feedAll_kept | apply foldl_kept)

theorem execLoFrame_kept (s : State) (hk : State.Kept Q s) : OutKept Q (execLoFrame s) := by
  unfold execLoFrame
  repeat' first
    | (with_reducible first | assumption | apply outKept_next | apply outKept_ite) | dsimp only | simp only [mk_kept]
    | (with_reducible first | apply State.setReg_kept | apply State.bump_kept | apply State.check_kept | apply State.raiseHail_kept | apply State.loChecks_kept)
    | split

theorem execCsiFrameStart_kept (port num elapsed : Nat) (s : State) (hk : State.Kept Q s) : OutKept Q
    (execCsiFrameStart port num elapsed s) := by
  unfold execCsiFrameStart
  repeat' first
    | (with_reducible first | assumption | apply outKept_next | apply outKept_ite | apply ite_kept | apply ite_fst_kept)
    | dsimp only
    | (with_reducible first | apply State.bump_kept | apply State.updCamera_kept | apply State.takeGate_kept | apply State.settleCameras_kept | apply State.cutFrame_kept | apply State.ipRead_kept)

theorem execCsiLine_kept (port vc dtype : Nat) (full good : Bool) (pixels : List Nat) (s : State)
    (hk : State.Kept Q s) : OutKept Q (execCsiLine port vc dtype full good pixels s) := by
  unfold execCsiLine
  repeat' first
    | (with_reducible first | assumption | apply outKept_next | apply outKept_ite) | dsimp only
    | (with_reducible first | apply State.check_kept | apply State.updCamera_kept | apply State.writeRows_kept | apply State.cutFrame_kept)
    | split

theorem execFrameComplete_kept (port linep : Nat) (s : State) (hk : State.Kept Q s) : OutKept Q
    (execFrameComplete port linep s) := by
  unfold execFrameComplete
  repeat' first
    | (with_reducible first | assumption | apply outKept_next | apply outKept_ite | apply ite_kept) | dsimp only
    | (with_reducible first | apply State.setF_kept | apply State.updCamera_kept | apply State.settleCameras_kept | apply State.endOutputs_kept | apply State.submitGate_kept | apply State.flicker_kept)
    | split

theorem execServeHail_kept (s : State) (hk : State.Kept Q s) : OutKept Q (execServeHail s) := by
  unfold execServeHail
  repeat' first
    | (with_reducible first | assumption | apply outKept_next | apply outKept_ite) | dsimp only | simp only [mk_kept]
    | (with_reducible first | apply State.serve_kept | apply State.sampleLatch_kept) | split

theorem execHoldExpiry_kept (hail : Nat) (s : State) (hk : State.Kept Q s) : OutKept Q (execHoldExpiry hail s) := by
  unfold execHoldExpiry
  repeat' first
    | (with_reducible first | assumption | apply outKept_next | apply outKept_ite | apply State.postPw_kept | apply State.releaseHail_kept)

theorem execHail_kept (r : Role) (rid : Nat) (s : State) (hk : State.Kept Q s) : OutKept Q (execHail r rid s) := by
  unfold execHail
  repeat' first
    | intro _ | (with_reducible first | assumption | apply outKept_next) | dsimp only
    | (with_reducible first | apply State.message_kept | apply State.raiseHost_kept)

theorem execRelease_kept (r : Role) (rid hail : Nat) (s : State) (hk : State.Kept Q s) : OutKept Q
    (execRelease r rid hail s) := by
  unfold execRelease
  repeat' first
    | intro _ | (with_reducible first | assumption | apply outKept_next | apply ite_fst_kept) | dsimp only
    | (with_reducible first | apply State.message_kept | apply State.releaseHail_kept)

theorem execHostClaim_kept (r : Role) (rid rung : Nat) (s : State) (hk : State.Kept Q s) : OutKept Q
    (execHostClaim r rid rung s) := by
  unfold execHostClaim
  repeat' first
    | intro _ | (with_reducible first | assumption | apply outKept_next | apply ite_fst_kept) | dsimp only
    | simp only [mk_kept] | (with_reducible first | apply State.message_kept | apply State.settle_kept)

theorem execLoSessionFrame_kept (s : State) (hk : State.Kept Q s) : OutKept Q (execLoSessionFrame s) := by
  unfold execLoSessionFrame
  repeat' first
    | (with_reducible first | assumption | apply outKept_next | apply outKept_ite) | dsimp only | simp only [mk_kept]
    | (with_reducible first | apply State.setReg_kept | apply State.bump_kept | apply State.raiseHail_kept | apply State.ringChecks_kept | apply State.loChecks_kept | apply State.releaseHail_kept)
    | split

theorem execNop_kept (e : Nat) (s : State) (hk : State.Kept Q s) : OutKept Q (execNop e s) := by
  unfold execNop
  repeat' first | (with_reducible first | assumption | apply outKept_next | apply State.pass_kept) | split

theorem execJump_kept (e : Nat) (s : State) (hk : State.Kept Q s) : OutKept Q (execJump e s) := by
  unfold execJump
  repeat' first
    | (with_reducible first | assumption | apply outKept_next | apply outKept_ite | apply ite_kept) | dsimp only
    | (with_reducible first | apply State.updStrand_kept | apply State.proceed_kept | apply State.pass_kept) | split

theorem execNext_kept (e : Nat) (s : State) (hk : State.Kept Q s) : OutKept Q (execNext e s) := by
  unfold execNext
  repeat' first
    | (with_reducible first | assumption | apply outKept_next | apply ite_kept) | dsimp only
    | (with_reducible first | apply State.proceed_kept | apply State.leaveEngine_kept) | split

theorem execSpawn_kept (e : Nat) (s : State) (hk : State.Kept Q s) : OutKept Q (execSpawn e s) := by
  unfold execSpawn
  repeat' first
    | intro _ | (with_reducible first | assumption | apply outKept_next | apply ite_kept) | dsimp only
    | (with_reducible first | apply State.updRun_kept | apply State.stamp_kept | apply State.endJob_kept | apply State.fetchWord_kept | apply State.pass_kept | apply State.inStep_kept)
    | split

theorem execStep_kept (e : Nat) (s : State) (hk : State.Kept Q s) : OutKept Q (execStep e s) := by
  unfold execStep
  repeat' first
    | (with_reducible first | assumption | apply outKept_next | apply outKept_ite | apply ite_kept) | dsimp only
    | (with_reducible first | apply State.updRun_kept | apply State.endJob_kept | apply State.rewind_kept | apply State.pass_kept)
    | split

theorem execCommit_kept (e : Nat) (s : State) (hk : State.Kept Q s) : OutKept Q (execCommit e s) := by
  unfold execCommit
  repeat' first
    | (with_reducible first | assumption | apply outKept_next | apply outKept_ite | apply State.endJob_kept | apply State.ensureStream_kept | apply State.waitOn_kept | apply State.askCommit_kept)
    | split

theorem execEndd_kept (e : Nat) (s : State) (hk : State.Kept Q s) : OutKept Q (execEndd e s) := by
  unfold execEndd
  repeat' first
    | (with_reducible first | assumption | apply outKept_next | apply outKept_ite) | dsimp only | simp only [mk_kept]
    | (with_reducible first | apply State.dropStrand_kept | apply State.endJob_kept | apply State.observe_kept | apply State.settleCommit_kept)
    | split

theorem execWait_kept (e : Nat) (s : State) (hk : State.Kept Q s) : OutKept Q (execWait e s) := by
  unfold execWait
  repeat' first
    | intro _ | (with_reducible first | assumption | apply outKept_next | apply ite_kept) | dsimp only
    | (with_reducible first | apply State.pass_kept | apply State.waitOn_kept | apply State.inStep_kept) | split

theorem execWaitSatisfied_kept (ctx sid : Nat) (s : State) (hk : State.Kept Q s) : OutKept Q
    (execWaitSatisfied ctx sid s) := by
  unfold execWaitSatisfied
  repeat' first
    | (with_reducible first | assumption | apply outKept_next | apply outKept_ite | apply State.unblock_kept | apply State.pass_kept)
    | split

theorem execSignalAdd_kept (e : Nat) (s : State) (hk : State.Kept Q s) : OutKept Q (execSignalAdd e s) := by
  unfold execSignalAdd
  repeat' first | (with_reducible first | assumption | apply outKept_next | apply State.runSignal_kept)

theorem execSignalRaise_kept (e : Nat) (s : State) (hk : State.Kept Q s) : OutKept Q (execSignalRaise e s) := by
  unfold execSignalRaise
  repeat' first | (with_reducible first | assumption | apply outKept_next | apply State.runSignal_kept)

theorem execFence_kept (e : Nat) (s : State) (hk : State.Kept Q s) : OutKept Q (execFence e s) := by
  unfold execFence
  repeat' first | (with_reducible first | assumption | apply outKept_next | apply State.waitOn_kept) | split

theorem execFenceComplete_kept (ctx sid : Nat) (s : State) (hk : State.Kept Q s) : OutKept Q
    (execFenceComplete ctx sid s) := by
  unfold execFenceComplete
  repeat' first
    | (with_reducible first | assumption | apply outKept_next | apply outKept_ite | apply ite_kept) | dsimp only
    | (with_reducible first | apply State.unblock_kept | apply State.dropStrand_kept | apply State.pass_kept | apply State.signal_kept)
    | split

theorem execTapeHail_kept (e : Nat) (s : State) (hk : State.Kept Q s) : OutKept Q (execTapeHail e s) := by
  unfold execTapeHail
  repeat' first | (with_reducible first | assumption | apply outKept_next | apply State.record_kept)

theorem execTapeRelease_kept (e : Nat) (s : State) (hk : State.Kept Q s) : OutKept Q (execTapeRelease e s) := by
  unfold execTapeRelease
  repeat' first | (with_reducible first | assumption | apply outKept_next | apply State.record_kept)

theorem execEvent_kept (e : Nat) (s : State) (hk : State.Kept Q s) : OutKept Q (execEvent e s) := by
  unfold execEvent
  repeat' first | (with_reducible first | assumption | apply outKept_next | apply State.record_kept)

theorem execCommandEnd_kept (e waited : Nat) (s : State) (hk : State.Kept Q s) : OutKept Q
    (execCommandEnd e waited s) := by
  unfold execCommandEnd
  repeat' first
    | (with_reducible first | assumption | apply outKept_next | apply outKept_ite | apply ite_kept) | dsimp only
    | (with_reducible first | apply State.bump32_kept | apply State.updEngine_kept | apply State.boundary_kept | apply State.freeEngine_kept | apply State.closeWalk_kept | apply State.dropStrand_kept | apply State.proceed_kept | apply State.report_kept | apply State.leaveEngine_kept)
    | split

theorem execStrandSuspend_kept (e : Nat) (s : State) (hk : State.Kept Q s) : OutKept Q (execStrandSuspend e s) := by
  unfold execStrandSuspend
  repeat' first
    | (with_reducible first | assumption | apply outKept_next | apply outKept_ite | apply State.dropStrand_kept | apply State.leaveEngine_kept | apply State.suspend_kept)
    | split

theorem execPlaceStrand_kept (s : State) (hk : State.Kept Q s) : OutKept Q (execPlaceStrand s) := by
  unfold execPlaceStrand
  repeat' first
    | (with_reducible first | assumption | apply outKept_next | apply outKept_ite) | dsimp only
    | (with_reducible first | apply State.endJob_kept | apply State.place_kept) | split

theorem execQuantumExpiry_kept (e : Nat) (s : State) (hk : State.Kept Q s) : OutKept Q (execQuantumExpiry e s) := by
  unfold execQuantumExpiry
  repeat' first
    | (with_reducible first | assumption | apply outKept_next | apply outKept_ite | apply State.updEngine_kept)
    | split

theorem execBoundOverrun_kept (e : Nat) (s : State) (hk : State.Kept Q s) : OutKept Q (execBoundOverrun e s) := by
  unfold execBoundOverrun
  repeat' first
    | (with_reducible first | assumption | apply outKept_next | apply outKept_ite) | dsimp only
    | (with_reducible first | apply State.post_kept | apply State.postOwner_kept | apply State.bump_kept | apply State.updRunning_kept)
    | split

theorem execCommitTaken_kept (s : State) (hk : State.Kept Q s) : OutKept Q (execCommitTaken s) := by
  unfold execCommitTaken
  repeat' first
    | (with_reducible first | assumption | apply outKept_next | apply outKept_ite | apply State.popCommit_kept | apply State.commitStep_kept)
    | split

theorem execCompletionTaken_kept (s : State) (hk : State.Kept Q s) : OutKept Q (execCompletionTaken s) := by
  unfold execCompletionTaken
  repeat' first
    | (with_reducible first | assumption | apply outKept_next | apply outKept_ite | apply State.updRun_kept | apply State.popCommit_kept)
    | split

theorem execAbortTaken_kept (s : State) (hk : State.Kept Q s) : OutKept Q (execAbortTaken s) := by
  unfold execAbortTaken
  repeat' first
    | (with_reducible first | assumption | apply outKept_next | apply outKept_ite) | dsimp only
    | (with_reducible first | apply State.reply_kept | apply State.abortJob_kept | apply State.settleEngines_kept | apply State.popCommit_kept | apply State.abortQueued_kept)
    | split

theorem execCtxOpen_kept (r : Role) (rid ctx list entries prime : Nat) (s : State) (hk : State.Kept Q s) : OutKept
    Q (execCtxOpen r rid ctx list entries prime s) := by
  unfold execCtxOpen
  repeat' first
    | intro _ | (with_reducible first | assumption | apply outKept_next | apply ite_kept) | dsimp only
    | simp only [mk_kept]
    | (with_reducible first | apply State.setCtx_kept | apply State.message_kept | apply State.dxCheck_kept) | split

theorem execCtxClose_kept (r : Role) (rid ctx : Nat) (s : State) (hk : State.Kept Q s) : OutKept Q
    (execCtxClose r rid ctx s) := by
  unfold execCtxClose
  repeat' first
    | intro _ | (with_reducible first | assumption | apply outKept_next | apply ite_kept) | dsimp only
    | (with_reducible first | apply State.reply_kept | apply State.setCtx_kept | apply State.messageLater_kept | apply State.dxCheck_kept | apply State.closeCtx_kept)
    | split

theorem execCloseComplete_kept (ctx : Nat) (s : State) (hk : State.Kept Q s) : OutKept Q (execCloseComplete ctx s) := by
  unfold execCloseComplete
  repeat' first
    | (with_reducible first | assumption | apply outKept_next | apply outKept_ite) | dsimp only
    | (with_reducible first | apply State.reply_kept | apply State.closeCtx_kept) | split

theorem execJobSubmit_kept (r : Role) (rid ctx entry : Nat) (s : State) (hk : State.Kept Q s) : OutKept Q
    (execJobSubmit r rid ctx entry s) := by
  unfold execJobSubmit
  repeat' first
    | intro _ | (with_reducible first | assumption | apply outKept_next | apply ite_fst_kept) | dsimp only
    | (with_reducible first | apply State.message_kept | apply State.queueJob_kept | apply State.settleEngines_kept)
    | split

theorem execJobAbort_kept (r : Role) (rid ctx serial : Nat) (s : State) (hk : State.Kept Q s) : OutKept Q
    (execJobAbort r rid ctx serial s) := by
  unfold execJobAbort
  repeat' first
    | intro _ | (with_reducible first | assumption | apply outKept_next | apply ite_kept) | dsimp only
    | simp only [mk_kept] | (with_reducible first | apply State.reply_kept | apply State.messageLater_kept)

theorem execCtxResume_kept (r : Role) (rid ctx : Nat) (drain : Bool) (s : State) (hk : State.Kept Q s) : OutKept Q
    (execCtxResume r rid ctx drain s) := by
  unfold execCtxResume
  repeat' first
    | intro _ | (with_reducible first | assumption | apply outKept_next | apply ite_kept | apply ite_fst_kept)
    | dsimp only
    | (with_reducible first | apply State.setCtx_kept | apply State.observe_kept | apply State.message_kept | apply State.dxCheck_kept | apply State.settleEngines_kept | apply State.drain_kept)
    | split

theorem execCounterRead_kept (r : Role) (rid scope id index : Nat) (s : State) (hk : State.Kept Q s) : OutKept Q
    (execCounterRead r rid scope id index s) := by
  unfold execCounterRead
  repeat' first | (with_reducible first | assumption | apply outKept_next | apply State.counterOp_kept)

theorem execCounterAdd_kept (r : Role) (rid scope id index value : Nat) (s : State) (hk : State.Kept Q s) : OutKept
    Q (execCounterAdd r rid scope id index value s) := by
  unfold execCounterAdd
  repeat' first | (with_reducible first | assumption | apply outKept_next | apply State.counterOp_kept)

theorem execCounterRaise_kept (r : Role) (rid scope id index value : Nat) (s : State) (hk : State.Kept Q s) :
    OutKept Q (execCounterRaise r rid scope id index value s) := by
  unfold execCounterRaise
  repeat' first | (with_reducible first | assumption | apply outKept_next | apply State.counterOp_kept)

theorem execJobStart_kept (ctx : Nat) (s : State) (hk : State.Kept Q s) : OutKept Q (execJobStart ctx s) := by
  unfold execJobStart
  repeat' first
    | (with_reducible first | assumption | apply outKept_next | apply outKept_ite | apply State.beginJob_kept | apply State.joinSwitch_kept)
    | split

theorem execSwitchBind_kept (s : State) (hk : State.Kept Q s) : OutKept Q (execSwitchBind s) := by
  unfold execSwitchBind
  repeat' first
    | (with_reducible first | assumption | apply outKept_next | apply outKept_ite) | dsimp only | simp only [mk_kept]
    | (with_reducible first | apply State.bump32_kept | apply State.setCtx_kept | apply State.bindSow_kept | apply State.observe_kept | apply State.settleEngines_kept | apply State.postEnd_kept | apply State.leaveSwitch_kept)
    | split

theorem execSwitchHoldExpiry_kept (s : State) (hk : State.Kept Q s) : OutKept Q (execSwitchHoldExpiry s) := by
  unfold execSwitchHoldExpiry
  repeat' first
    | (with_reducible first | assumption | apply outKept_next | apply outKept_ite) | dsimp only | simp only [mk_kept]

theorem execStepReplay_kept (ctx : Nat) (s : State) (hk : State.Kept Q s) : OutKept Q (execStepReplay ctx s) := by
  unfold execStepReplay
  repeat' first
    | (with_reducible first | assumption | apply outKept_next | apply outKept_ite | apply ite_kept) | dsimp only
    | (with_reducible first | apply State.setCtx_kept | apply State.stamp_kept | apply State.dropWrites_kept | apply State.fetchWord_kept | apply State.rewind_kept | apply State.observe_kept | apply State.forget_kept)
    | split

theorem execJobReport_kept (ctx : Nat) (s : State) (hk : State.Kept Q s) : OutKept Q (execJobReport ctx s) := by
  unfold execJobReport
  repeat' first
    | intro _ | (with_reducible first | assumption | apply outKept_next | apply outKept_ite | apply ite_kept)
    | dsimp only
    | (with_reducible first | apply State.reply_kept | apply State.bump32_kept | apply State.setCtx_kept | apply State.dropWrites_kept | apply State.observe_kept | apply State.dxCheck_kept | apply State.settleEngines_kept | apply State.gateVerdict_kept | apply State.fillFree_kept | apply State.postEnd_kept | apply State.forget_kept | apply State.countDone_kept | apply foldl_kept)
    | split

theorem execSlotStart_kept (s : State) (hk : State.Kept Q s) : OutKept Q (execSlotStart s) := by
  unfold execSlotStart
  repeat' first
    | (with_reducible first | assumption | apply outKept_next | apply outKept_ite | apply ite_kept) | dsimp only
    | simp only [mk_kept] | split

theorem execGuardOpen_kept (s : State) (hk : State.Kept Q s) : OutKept Q (execGuardOpen s) := by
  unfold execGuardOpen
  repeat' first
    | intro _ | (with_reducible first | assumption | apply outKept_next | apply outKept_ite | apply ite_kept)
    | dsimp only | simp only [mk_kept] | (with_reducible first | apply State.updEngine_kept | apply foldl_kept)
    | split

theorem execWatchdog_kept (s : State) (hk : State.Kept Q s) : OutKept Q (execWatchdog s) := by
  unfold execWatchdog
  repeat' first
    | intro _
    | (with_reducible first | assumption | apply outKept_next | apply outKept_ite | apply ite_kept | apply State.abandon_kept | apply foldl_kept)
    | split

theorem execDerate_kept (level : Nat) (s : State) (hk : State.Kept Q s) : OutKept Q (execDerate level s) := by
  unfold execDerate
  repeat' first
    | intro _
    | (with_reducible first | assumption | apply outKept_next | apply outKept_ite | apply State.setF_kept | apply State.post_kept | apply foldl_kept)

theorem execIdleTimerExpiry_kept (s : State) (hk : State.Kept Q s) : OutKept Q (execIdleTimerExpiry s) := by
  unfold execIdleTimerExpiry
  repeat' first
    | (with_reducible first | assumption | apply outKept_next | apply outKept_ite | apply ite_kept) | dsimp only
    | simp only [mk_kept] | with_reducible apply State.napSave_kept | split

theorem execEntryWindow_kept (s : State) (hk : State.Kept Q s) : OutKept Q (execEntryWindow s) := by
  unfold execEntryWindow
  repeat' first
    | (with_reducible first | assumption | apply outKept_next | apply outKept_ite) | dsimp only | simp only [mk_kept]
    | (with_reducible first | apply State.sampleLatch_kept | apply State.enter_kept) | split

theorem execEntryAbandon_kept (s : State) (hk : State.Kept Q s) : OutKept Q (execEntryAbandon s) := by
  unfold execEntryAbandon
  repeat' first
    | (with_reducible first | assumption | apply outKept_next | apply outKept_ite) | dsimp only | simp only [mk_kept]
    | with_reducible apply State.bumpPw_kept

theorem execClimbStep_kept (s : State) (hk : State.Kept Q s) : OutKept Q (execClimbStep s) := by
  unfold execClimbStep
  repeat' first
    | (with_reducible first | assumption | apply outKept_next | apply outKept_ite) | dsimp only
    | (with_reducible first | apply State.standClaims_kept | apply State.climbTo_kept) | split

theorem execBankZeroed_kept (bank : Nat) (s : State) (hk : State.Kept Q s) : OutKept Q (execBankZeroed bank s) := by
  unfold execBankZeroed
  repeat' first
    | (with_reducible first | assumption | apply outKept_next | apply outKept_ite) | dsimp only | simp only [mk_kept]

theorem execColdBoot_kept (fallow : Bool) (s : State) (hk : State.Kept Q s) : OutKept Q (execColdBoot fallow s) := by
  unfold execColdBoot
  repeat' first
    | (with_reducible first | assumption | apply outKept_next | apply outKept_ite) | dsimp only | simp only [mk_kept]
    | (with_reducible first | apply State.setReg_kept | apply State.postOwner_kept | apply State.settle_kept | apply State.standClaims_kept | apply State.postHeld_kept | apply State.boot_kept)

theorem execResetNLow_kept (s : State) (hk : State.Kept Q s) : OutKept Q (execResetNLow s) := by
  unfold execResetNLow
  repeat' first
    | (with_reducible first | assumption | apply outKept_next) | dsimp only | simp only [mk_kept]
    | with_reducible apply State.boot_kept

theorem execWakeTimer_kept (s : State) (hk : State.Kept Q s) : OutKept Q (execWakeTimer s) := by
  unfold execWakeTimer
  repeat' first
    | (with_reducible first | assumption | apply outKept_next | apply outKept_ite | apply State.raiseHail_kept)
    | split

theorem execWakeNLow_kept (s : State) (hk : State.Kept Q s) : OutKept Q (execWakeNLow s) := by
  unfold execWakeNLow
  repeat' first
    | (with_reducible first | assumption | apply outKept_next | apply outKept_ite) | dsimp only | simp only [mk_kept]
    | with_reducible apply State.raiseHost_kept

theorem execWakeNEdge_kept (s : State) (hk : State.Kept Q s) : OutKept Q (execWakeNEdge s) := by
  unfold execWakeNEdge
  repeat' first
    | (with_reducible first | assumption | apply outKept_next | apply outKept_ite) | dsimp only | simp only [mk_kept]
    | with_reducible apply State.bumpPw_kept

theorem execWakePattern_kept (port : Nat) (s : State) (hk : State.Kept Q s) : OutKept Q (execWakePattern port s) := by
  unfold execWakePattern
  repeat' first
    | (with_reducible first | assumption | apply outKept_next | apply outKept_ite | apply State.raiseHail_kept | apply State.bumpPw_kept)

theorem execPowerSample_kept (milliwatts : Nat) (tj : Int) (s : State) (hk : State.Kept Q s) : OutKept Q
    (execPowerSample milliwatts tj s) := by
  unfold execPowerSample
  repeat' first
    | (with_reducible first | assumption | apply outKept_next | apply outKept_ite | apply ite_kept) | dsimp only
    | simp only [mk_kept] | with_reducible apply State.postPw_kept

theorem execTelemUpdate_kept (milliwatts : Nat) (tj : Int) (s : State) (hk : State.Kept Q s) : OutKept Q
    (execTelemUpdate milliwatts tj s) := by
  unfold execTelemUpdate
  repeat' first | (with_reducible first | assumption | apply outKept_next | apply outKept_ite | apply State.setF_kept)

theorem execRailDroop_kept (check : Nat) (s : State) (hk : State.Kept Q s) : OutKept Q (execRailDroop check s) := by
  unfold execRailDroop
  repeat' first
    | (with_reducible first | assumption | apply outKept_next | apply outKept_ite | apply State.detect_kept)

theorem execClockLoss_kept (check : Nat) (s : State) (hk : State.Kept Q s) : OutKept Q (execClockLoss check s) := by
  unfold execClockLoss
  repeat' first
    | (with_reducible first | assumption | apply outKept_next | apply outKept_ite | apply State.loseClock_kept)

theorem execRelockAttempt_kept (ok long : Bool) (s : State) (hk : State.Kept Q s) : OutKept Q
    (execRelockAttempt ok long s) := by
  unfold execRelockAttempt
  repeat' first
    | (with_reducible first | assumption | apply outKept_next | apply outKept_ite | apply ite_kept) | dsimp only
    | simp only [mk_kept]
    | (with_reducible first | apply State.setF_kept | apply State.bump16_kept | apply State.pulse_kept | apply State.dropDram_kept | apply State.lapseDram_kept | apply State.restartRound_kept)

theorem execRelockGiveUp_kept (s : State) (hk : State.Kept Q s) : OutKept Q (execRelockGiveUp s) := by
  unfold execRelockGiveUp
  repeat' first
    | (with_reducible first | assumption | apply outKept_next | apply outKept_ite) | dsimp only | simp only [mk_kept]

theorem execClockPresent_kept (check : Nat) (s : State) (hk : State.Kept Q s) : OutKept Q
    (execClockPresent check s) := by
  unfold execClockPresent
  repeat' first | (with_reducible first | assumption | apply outKept_next | apply outKept_ite | apply State.setF_kept)

theorem execTuMap_kept (r : Role) (rid field obj ua pages hint flags back backdev : Nat) (s : State)
    (hk : State.Kept Q s) : OutKept Q (execTuMap r rid field obj ua pages hint flags back backdev s) := by
  unfold execTuMap
  repeat' first
    | intro _ | (with_reducible first | assumption | apply outKept_next | apply ite_fst_kept) | dsimp only
    | simp only [mk_kept] | (with_reducible first | apply State.tuOp_kept | (apply State.needLeaves_kept; assumption))
    | split

theorem execTuUnmap_kept (r : Role) (rid field obj : Nat) (s : State) (hk : State.Kept Q s) : OutKept Q
    (execTuUnmap r rid field obj s) := by
  unfold execTuUnmap
  repeat' first
    | intro _ | (with_reducible first | assumption | apply outKept_next | apply outKept_ite | apply ite_kept)
    | dsimp only | simp only [mk_kept]
    | (with_reducible first | apply State.reply_kept | apply State.check_kept | apply State.messageLater_kept | apply State.unmap_kept | apply State.tuWait_kept)
    | split

theorem execTuHint_kept (r : Role) (rid field obj hint : Nat) (s : State) (hk : State.Kept Q s) : OutKept Q
    (execTuHint r rid field obj hint s) := by
  unfold execTuHint
  repeat' first
    | intro _ | (with_reducible first | assumption | apply outKept_next | apply ite_fst_kept) | dsimp only
    | simp only [mk_kept] | with_reducible apply State.tuOp_kept | split

theorem execTuPlace_kept (r : Role) (rid field ua pages home : Nat) (s : State) (hk : State.Kept Q s) : OutKept Q
    (execTuPlace r rid field ua pages home s) := by
  unfold execTuPlace
  repeat' first
    | intro _ | (with_reducible first | assumption | apply outKept_next | apply ite_kept | apply ite_fst_kept)
    | dsimp only | (with_reducible first | apply State.requestMove_kept | apply State.tuOp_kept | apply foldl_kept)

theorem execTuPin_kept (r : Role) (rid field ua pages : Nat) (s : State) (hk : State.Kept Q s) : OutKept Q
    (execTuPin r rid field ua pages s) := by
  unfold execTuPin
  repeat' first
    | intro _ | (with_reducible first | assumption | apply outKept_next | apply outKept_ite | apply ite_kept)
    | dsimp only
    | (with_reducible first | apply State.reply_kept | apply State.check_kept | apply State.messageLater_kept | apply State.tuWait_kept | apply State.pinPages_kept)

theorem execTuUnpin_kept (r : Role) (rid field ua pages : Nat) (s : State) (hk : State.Kept Q s) : OutKept Q
    (execTuUnpin r rid field ua pages s) := by
  unfold execTuUnpin
  repeat' first
    | intro _ | (with_reducible first | assumption | apply outKept_next) | dsimp only
    | (with_reducible first | apply State.setPage_kept | apply State.tuOp_kept | apply foldl_kept) | split

theorem execTuEvacuate_kept (r : Role) (rid n : Nat) (s : State) (hk : State.Kept Q s) : OutKept Q
    (execTuEvacuate r rid n s) := by
  unfold execTuEvacuate
  repeat' first
    | intro _ | (with_reducible first | assumption | apply outKept_next | apply outKept_ite | apply ite_kept)
    | dsimp only
    | (with_reducible first | apply State.reply_kept | apply State.requestMove_kept | apply State.messageLater_kept | apply State.tuWait_kept | apply State.dropShadows_kept | apply foldl_kept)

theorem execTuSow_kept (r : Role) (rid ctx list entries : Nat) (s : State) (hk : State.Kept Q s) : OutKept Q
    (execTuSow r rid ctx list entries s) := by
  unfold execTuSow
  repeat' first
    | intro _ | (with_reducible first | assumption | apply outKept_next | apply ite_fst_kept) | dsimp only
    | (with_reducible first | apply State.cmRead_kept | apply State.bindSow_kept | apply State.tuOp_kept | (apply fst_kept; assumption))
    | split

theorem execMigrationStart_kept (field page : Nat) (s : State) (hk : State.Kept Q s) : OutKept Q
    (execMigrationStart field page s) := by
  unfold execMigrationStart
  repeat' first
    | (with_reducible first | assumption | apply outKept_next | apply outKept_ite | apply ite_kept) | dsimp only
    | (with_reducible first | apply State.startMove_kept | apply State.failEvacuation_kept) | split

theorem execMigrationSwitch_kept (field page : Nat) (s : State) (hk : State.Kept Q s) : OutKept Q
    (execMigrationSwitch field page s) := by
  unfold execMigrationSwitch
  repeat' first
    | (with_reducible first | assumption | apply outKept_next | apply outKept_ite | apply State.applyHeld_kept | apply State.switchMove_kept | apply State.settleTu_kept)
    | split

theorem execLeaseReturn_kept (index : Nat) (s : State) (hk : State.Kept Q s) : OutKept Q (execLeaseReturn index s) := by
  unfold execLeaseReturn
  repeat' first
    | (with_reducible first | assumption | apply outKept_next | apply outKept_ite) | dsimp only | simp only [mk_kept]
    | with_reducible apply State.settleDrops_kept

theorem execPoisonBlock_kept (field ua : Nat) (s : State) (hk : State.Kept Q s) : OutKept Q
    (execPoisonBlock field ua s) := by
  unfold execPoisonBlock
  repeat' first
    | (with_reducible first | assumption | apply outKept_next | apply outKept_ite | apply State.poisonBlk_kept | apply State.blameBlock_kept)
    | split

theorem execRefetchDone_kept (field ua : Nat) (clean : Option (List Byte)) (s : State) (hk : State.Kept Q s) :
    OutKept Q (execRefetchDone field ua clean s) := by
  unfold execRefetchDone
  repeat' first
    | (with_reducible first | assumption | apply outKept_next | apply outKept_ite | apply State.cleanBytes_kept | apply State.settleTu_kept | apply State.blockLost_kept)
    | split

theorem execFurrowFillStart_kept (s : State) (hk : State.Kept Q s) : OutKept Q (execFurrowFillStart s) := by
  unfold execFurrowFillStart
  repeat' first
    | (with_reducible first | assumption | apply outKept_next | apply outKept_ite | apply State.endJob_kept | apply State.cmRead_kept | apply State.rewind_kept | apply State.startFill_kept | (apply fst_kept; assumption))
    | split

theorem execSegmentFilled_kept (seg : Nat) (s : State) (hk : State.Kept Q s) : OutKept Q (execSegmentFilled seg s) := by
  unfold execSegmentFilled
  repeat' first
    | (with_reducible first | assumption | apply outKept_next | apply outKept_ite) | dsimp only | simp only [mk_kept]
    | (with_reducible first | apply State.write_kept | apply State.wake_kept | apply State.endJob_kept | apply State.tuRead_kept | apply State.rewind_kept | (apply fst_kept; assumption))
    | split

theorem execDramStartupStage_kept (fail usec : Nat) (s : State) (hk : State.Kept Q s) : OutKept Q
    (execDramStartupStage fail usec s) := by
  unfold execDramStartupStage
  repeat' first
    | (with_reducible first | assumption | apply outKept_next | apply outKept_ite | apply ite_kept) | dsimp only
    | simp only [mk_kept]
    | (with_reducible first | apply State.zero_kept | apply State.failChannels_kept | apply State.memReady_kept)
    | split

theorem execDmStart_kept (r : Role) (rid ch : Nat) (s : State) (hk : State.Kept Q s) : OutKept Q
    (execDmStart r rid ch s) := by
  unfold execDmStart
  repeat' first
    | intro _ | (with_reducible first | assumption | apply outKept_next | apply ite_fst_kept) | dsimp only
    | (with_reducible first | apply State.message_kept | apply State.dmStart_kept)

theorem execTrigger_kept (eng : Nat) (s : State) (hk : State.Kept Q s) : OutKept Q (execTrigger eng s) := by
  unfold execTrigger
  repeat' first
    | (with_reducible first | assumption | apply outKept_next | apply ite_kept) | dsimp only
    | (with_reducible first | apply State.pass_kept | apply State.dmStart_kept) | split

theorem execDmTimerExpiry_kept (ch : Nat) (s : State) (hk : State.Kept Q s) : OutKept Q (execDmTimerExpiry ch s) := by
  unfold execDmTimerExpiry
  repeat' first
    | (with_reducible first | assumption | apply outKept_next | apply outKept_ite | apply State.dmStart_kept)

theorem execDmListCheck_kept (ch : Nat) (s : State) (hk : State.Kept Q s) : OutKept Q (execDmListCheck ch s) := by
  unfold execDmListCheck
  repeat' first
    | (with_reducible first | assumption | apply outKept_next | apply outKept_ite | apply State.check_kept | apply State.updDmRun_kept | apply State.dmListRead_kept | (apply fst_kept; assumption))
    | split

theorem execDmRunComplete_kept (ch : Nat) (s : State) (hk : State.Kept Q s) : OutKept Q (execDmRunComplete ch s) := by
  unfold execDmRunComplete
  repeat' first
    | intro _ | (with_reducible first | assumption | apply outKept_next | apply outKept_ite) | dsimp only
    | (with_reducible first | apply State.reply_kept | apply State.dmFail_kept | apply State.dmWork_kept | apply State.dmUndefine_kept | apply State.dmBack_kept | apply State.dmReport_kept | apply State.dmFinish_kept | apply foldl_kept | (apply fst_kept; assumption))
    | split

theorem execDmAccessError_kept (ch code written : Nat) (s : State) (hk : State.Kept Q s) : OutKept Q
    (execDmAccessError ch code written s) := by
  unfold execDmAccessError
  repeat' first
    | intro _ | (with_reducible first | assumption | apply outKept_next | apply outKept_ite | apply getD_kept)
    | dsimp only
    | (with_reducible first | (apply optKept_mono; apply State.dmServeWrite_opt) | apply State.dmWork_kept) | split

theorem execDmAbort_kept (r : Role) (rid ch : Nat) (s : State) (hk : State.Kept Q s) : OutKept Q
    (execDmAbort r rid ch s) := by
  unfold execDmAbort
  repeat' first
    | intro _
    | (with_reducible first | assumption | apply outKept_next | apply ite_kept | apply State.reply_kept | apply State.messageLater_kept | apply State.dmAbort_kept | (apply fst_kept; assumption))
    | split

theorem execLinkFrame_kept (port : Nat) (decoded corrected : Bool) (hdr crc : Nat) (body : List Byte) (s : State)
    (hk : State.Kept Q s) : OutKept Q (execLinkFrame port decoded corrected hdr crc body s) := by
  unfold execLinkFrame
  repeat' first
    | (with_reducible first | assumption | apply outKept_next | apply outKept_ite | apply State.setF_kept | apply State.goDown_kept | apply State.frameIn_kept)

theorem execFrameSend_kept (port : Nat) (s : State) (hk : State.Kept Q s) : OutKept Q (execFrameSend port s) := by
  unfold execFrameSend
  repeat' first
    | (with_reducible first | assumption | apply outKept_next | apply outKept_ite | apply State.setF_kept | apply State.pick_kept | apply State.updPort_kept | apply State.goDown_kept | apply State.sendFrame_kept)

theorem execHello_kept (port system devid pport rev pm1 qm1 : Nat) (s : State) (hk : State.Kept Q s) : OutKept Q
    (execHello port system devid pport rev pm1 qm1 s) := by
  unfold execHello
  repeat' first
    | (with_reducible first | assumption | apply outKept_next | apply outKept_ite) | dsimp only
    | (with_reducible first | apply State.postOwner_kept | apply State.updPort_kept | apply State.dropAll_kept | apply State.portTo_kept | (apply State.takeUnit_kept; assumption))
    | split

theorem execLack_kept (port count : Nat) (s : State) (hk : State.Kept Q s) : OutKept Q (execLack port count s) := by
  unfold execLack
  repeat' first
    | (with_reducible first | assumption | apply outKept_next | apply outKept_ite | apply State.updPort_kept | (apply State.takeUnit_kept; assumption))
    | split

theorem execLnak_kept (port num : Nat) (s : State) (hk : State.Kept Q s) : OutKept Q (execLnak port num s) := by
  unfold execLnak
  repeat' first
    | (with_reducible first | assumption | apply outKept_next | apply outKept_ite) | dsimp only
    | (with_reducible first | apply State.bump_kept | apply State.updPort_kept | apply State.goDown_kept | (apply State.takeUnit_kept; assumption))
    | split

theorem execCred_kept (port : Nat) (returns : List (Nat × Nat)) (s : State) (hk : State.Kept Q s) : OutKept Q
    (execCred port returns s) := by
  unfold execCred
  repeat' first
    | (with_reducible first | assumption | apply outKept_next | apply outKept_ite | apply State.updPort_kept | (apply State.takeUnit_kept; assumption))
    | split

theorem execBye_kept (port : Nat) (s : State) (hk : State.Kept Q s) : OutKept Q (execBye port s) := by
  unfold execBye
  repeat' first
    | (with_reducible first | assumption | apply outKept_next | apply outKept_ite | apply State.goDown_kept | (apply State.takeUnit_kept; assumption))
    | split

theorem execMrd_kept (port : Nat) (m : LinkMsg) (s : State) (hk : State.Kept Q s) : OutKept Q (execMrd port m s) := by
  unfold execMrd
  repeat' first
    | intro _
    | (with_reducible first | assumption | apply outKept_next | apply outKept_ite | apply State.respond_kept | apply State.deliver_kept | apply State.linkRead_kept | (apply fst_kept; assumption))
    | split

theorem execMwr_kept (port : Nat) (m : LinkMsg) (s : State) (hk : State.Kept Q s) : OutKept Q (execMwr port m s) := by
  unfold execMwr
  repeat' first
    | intro _
    | (with_reducible first | assumption | apply outKept_next | apply outKept_ite | apply State.respond_kept | apply State.deliver_kept | apply State.linkWrite_kept | (apply fst_kept; assumption))
    | split

theorem execUrd_kept (port : Nat) (m : LinkMsg) (s : State) (hk : State.Kept Q s) : OutKept Q (execUrd port m s) := by
  unfold execUrd
  repeat' first
    | intro _ | (with_reducible first | assumption | apply outKept_next | apply outKept_ite) | dsimp only
    | (with_reducible first | apply State.respond_kept | apply State.sealBlocks_kept | apply State.tuRead_kept | apply State.deliver_kept | (apply fst_kept; assumption))
    | split

theorem execEvt_kept (port : Nat) (m : LinkMsg) (s : State) (hk : State.Kept Q s) : OutKept Q (execEvt port m s) := by
  unfold execEvt
  repeat' first
    | intro _ | (with_reducible first | assumption | apply outKept_next | apply ite_kept) | dsimp only
    | (with_reducible first | apply State.raiseShared_kept | apply State.wake_kept | apply State.drop_kept | apply State.deliver_kept)

theorem execDig_kept (port : Nat) (m : LinkMsg) (s : State) (hk : State.Kept Q s) : OutKept Q (execDig port m s) := by
  unfold execDig
  repeat' first
    | intro _ | (with_reducible first | assumption | apply outKept_next | apply ite_kept) | dsimp only
    | (with_reducible first | apply State.drop_kept | apply State.deliver_kept | apply State.bufferDigest_kept)

theorem execWake_kept (port : Nat) (m : LinkMsg) (s : State) (hk : State.Kept Q s) : OutKept Q (execWake port m s) := by
  unfold execWake
  repeat' first
    | intro _
    | (with_reducible first | assumption | apply outKept_next | apply State.raiseHail_kept | apply State.deliver_kept)

theorem execRdata_kept (port : Nat) (m : LinkMsg) (s : State) (hk : State.Kept Q s) : OutKept Q
    (execRdata port m s) := by
  unfold execRdata
  repeat' first
    | intro _ | (with_reducible first | assumption | apply outKept_next | apply ite_kept) | dsimp only
    | (with_reducible first | apply State.tierFailed_kept | apply State.farCame_kept | apply State.refetched_kept | apply State.updDmRun_kept | apply State.dmFail_kept | apply State.deliver_kept | apply State.gatherPiece_kept | apply State.answer_kept)
    | split

theorem execWack_kept (port : Nat) (m : LinkMsg) (s : State) (hk : State.Kept Q s) : OutKept Q (execWack port m s) := by
  unfold execWack
  repeat' first
    | intro _ | (with_reducible first | assumption | apply outKept_next | apply ite_kept) | dsimp only
    | (with_reducible first | apply State.wake_kept | apply State.endJob_kept | apply State.tierFailed_kept | apply State.dmFail_kept | apply State.deliver_kept | apply State.gatherPiece_kept | apply State.answer_kept)
    | split

theorem execLinkTimeout_kept (tag : Nat) (s : State) (hk : State.Kept Q s) : OutKept Q (execLinkTimeout tag s) := by
  unfold execLinkTimeout
  repeat' first
    | intro _ | (with_reducible first | assumption | apply outKept_next | apply outKept_ite) | dsimp only
    | (with_reducible first | apply State.postOwner_kept | apply State.bump_kept | apply State.endRequest_kept | apply State.requestFailed_kept)
    | split

theorem execPortDown_kept (port : Nat) (s : State) (hk : State.Kept Q s) : OutKept Q (execPortDown port s) := by
  unfold execPortDown
  repeat' first
    | (with_reducible first | assumption | apply outKept_next | apply outKept_ite | apply State.goDown_kept)

theorem execPrbsDetect_kept (port : Nat) (s : State) (hk : State.Kept Q s) : OutKept Q (execPrbsDetect port s) := by
  unfold execPrbsDetect
  repeat' first
    | (with_reducible first | assumption | apply outKept_next | apply outKept_ite) | dsimp only
    | with_reducible apply State.updPort_kept

theorem execTrainingDone_kept (port : Nat) (ok : Bool) (s : State) (hk : State.Kept Q s) : OutKept Q
    (execTrainingDone port ok s) := by
  unfold execTrainingDone
  repeat' first
    | (with_reducible first | assumption | apply outKept_next | apply outKept_ite | apply State.updPort_kept | apply State.portTo_kept)

theorem execLinkWaking_kept (port : Nat) (s : State) (hk : State.Kept Q s) : OutKept Q (execLinkWaking port s) := by
  unfold execLinkWaking
  repeat' first
    | (with_reducible first | assumption | apply outKept_next | apply outKept_ite | apply State.updPort_kept)

theorem execWakeLimitExpiry_kept (port : Nat) (s : State) (hk : State.Kept Q s) : OutKept Q
    (execWakeLimitExpiry port s) := by
  unfold execWakeLimitExpiry
  repeat' first
    | (with_reducible first | assumption | apply outKept_next | apply outKept_ite | apply State.updPort_kept | apply State.dropAll_kept | apply State.portTo_kept)

theorem execCommonsZeroed_kept (s : State) (hk : State.Kept Q s) : OutKept Q (execCommonsZeroed s) := by
  unfold execCommonsZeroed
  repeat' first
    | (with_reducible first | assumption | apply outKept_next | apply outKept_ite) | simp only [mk_kept]
    | with_reducible apply State.reply_kept | split

theorem execImgData_kept (r : Role) (rid off : Nat) (data : List Byte) (s : State) (hk : State.Kept Q s) : OutKept
    Q (execImgData r rid off data s) := by
  unfold execImgData
  repeat' first
    | intro _
    | (with_reducible first | assumption | apply outKept_next | apply outKept_ite | apply State.messageLater_kept | apply State.imgData_kept)

theorem execImgTimeout_kept (s : State) (hk : State.Kept Q s) : OutKept Q (execImgTimeout s) := by
  unfold execImgTimeout
  repeat' first
    | (with_reducible first | assumption | apply outKept_next | apply outKept_ite | apply State.endLoad_kept) | split

theorem execImgBegin_kept (r : Role) (rid len : Nat) (s : State) (hk : State.Kept Q s) : OutKept Q
    (execImgBegin r rid len s) := by
  unfold execImgBegin
  repeat' first
    | intro _
    | (with_reducible first | assumption | apply outKept_next | apply State.messageLater_kept | apply State.sxTake_kept)

theorem execQuote_kept (r : Role) (rid : Nat) (nonce : List Byte) (s : State) (hk : State.Kept Q s) : OutKept Q
    (execQuote r rid nonce s) := by
  unfold execQuote
  repeat' first
    | intro _
    | (with_reducible first | assumption | apply outKept_next | apply ite_kept | apply State.reply_kept | apply State.messageLater_kept | apply State.sxTake_kept)

theorem execQuoteDone_kept (s : State) (hk : State.Kept Q s) : OutKept Q (execQuoteDone s) := by
  unfold execQuoteDone
  repeat' first
    | (with_reducible first | assumption | apply outKept_next | apply outKept_ite | apply State.quoteSigned_kept | apply State.sxDrain_kept)
    | split

theorem execKeyRelease_kept (r : Role) (rid : Nat) (data : List Byte) (s : State) (hk : State.Kept Q s) : OutKept Q
    (execKeyRelease r rid data s) := by
  unfold execKeyRelease
  repeat' first
    | intro _
    | (with_reducible first | assumption | apply outKept_next | apply State.messageLater_kept | apply State.sxTake_kept)

theorem execOwnerSet_kept (r : Role) (rid slot : Nat) (digest rest : List Byte) (s : State) (hk : State.Kept Q s) :
    OutKept Q (execOwnerSet r rid slot digest rest s) := by
  unfold execOwnerSet
  repeat' first
    | intro _
    | (with_reducible first | assumption | apply outKept_next | apply State.messageLater_kept | apply State.sxTake_kept)

theorem execOwnerBurnDone_kept (s : State) (hk : State.Kept Q s) : OutKept Q (execOwnerBurnDone s) := by
  unfold execOwnerBurnDone
  repeat' first
    | with_reducible assumption
    | exact ⟨hk.queue, hk.mem, hk.owners.trans (List.prefix_append _ _), hk.used, hk.burnt⟩
    | (with_reducible first | apply outKept_next | apply outKept_ite) | dsimp only
    | (with_reducible first | apply State.reply_kept | apply State.sxDrain_kept) | split

theorem execKeyDrop_kept (r : Role) (rid field id : Nat) (s : State) (hk : State.Kept Q s) : OutKept Q
    (execKeyDrop r rid field id s) := by
  unfold execKeyDrop
  repeat' first
    | intro _ | (with_reducible first | assumption | apply outKept_next | apply ite_fst_kept) | dsimp only
    | simp only [mk_kept_sx] | (with_reducible first | apply State.message_kept | apply State.sxChecks_kept)

theorem execWeightLoad_kept (r : Role) (rid : Nat) (data : List Byte) (s : State) (hk : State.Kept Q s) : OutKept Q
    (execWeightLoad r rid data s) := by
  unfold execWeightLoad
  repeat' first
    | intro _ | (with_reducible first | assumption | apply outKept_next | apply outKept_ite) | dsimp only
    | simp only [mk_kept]
    | (with_reducible first | apply State.reply_kept | apply State.takeRequest_kept | apply State.message_kept | apply State.weightLoad_kept | (apply fst_kept; assumption))
    | split

theorem execBlockResetDone_kept (block : Nat) (s : State) (hk : State.Kept Q s) : OutKept Q
    (execBlockResetDone block s) := by
  unfold execBlockResetDone
  repeat' first
    | (with_reducible first | assumption | apply outKept_next | apply outKept_ite) | dsimp only | simp only [mk_kept]
    | (with_reducible first | apply State.postOwner_kept | apply State.retryStreams_kept)

theorem execFaultPulse_kept (s : State) (hk : State.Kept Q s) : OutKept Q (execFaultPulse s) := by
  unfold execFaultPulse
  repeat' first
    | intro _ | (with_reducible first | assumption | apply outKept_next | apply outKept_ite | apply ite_kept)
    | dsimp only | simp only [mk_kept]
    | (with_reducible first | apply State.latch_kept | apply State.react_kept | apply State.fcUpdate_kept | apply foldl_kept)

theorem execFieldResetDone_kept (s : State) (hk : State.Kept Q s) : OutKept Q (execFieldResetDone s) := by
  unfold execFieldResetDone
  repeat' first
    | (with_reducible first | assumption | apply outKept_next | apply outKept_ite) | dsimp only | simp only [mk_kept]
    | split

theorem execSdLoad_kept (r : Role) (rid slot off : Nat) (s : State) (hk : State.Kept Q s) : OutKept Q
    (execSdLoad r rid slot off s) := by
  unfold execSdLoad
  repeat' first
    | intro _ | (with_reducible first | assumption | apply outKept_next | apply outKept_ite) | dsimp only
    | (with_reducible first | apply State.message_kept | apply State.loadPack_kept)

theorem execSoundingStart_kept (idle : List Nat) (recent : List (Nat × Nat)) (s : State) (hk : State.Kept Q s) :
    OutKept Q (execSoundingStart idle recent s) := by
  unfold execSoundingStart
  repeat' first
    | (with_reducible first | assumption | apply outKept_next | apply outKept_ite) | dsimp only | simp only [mk_kept]
    | (with_reducible first | apply State.pick_kept | apply State.check_kept | apply State.refusePack_kept | apply State.beginSounding_kept)
    | split

theorem execSoundingVerdict_kept (s : State) (hk : State.Kept Q s) : OutKept Q (execSoundingVerdict s) := by
  unfold execSoundingVerdict
  repeat' first
    | (with_reducible first | assumption | apply outKept_next | apply outKept_ite | apply ite_kept) | dsimp only
    | simp only [mk_kept]
    | (with_reducible first | apply State.setF_kept | apply State.soundRun_kept | apply State.soundVerdict_kept)
    | split

theorem execWaypoint_kept (s : State) (hk : State.Kept Q s) : OutKept Q (execWaypoint s) := by
  unfold execWaypoint
  repeat' first
    | intro _
    | (with_reducible first | assumption | apply outKept_next | apply outKept_ite | apply State.setReg_kept | apply State.setF_kept | apply State.postOwner_kept | apply State.snap_kept | apply foldl_kept)

theorem execRegRead_kept (r : Role) (rid addr words : Nat) (s : State) (hk : State.Kept Q s) : OutKept Q
    (execRegRead r rid addr words s) := by
  unfold execRegRead
  repeat' first
    | intro _
    | (with_reducible first | assumption | apply outKept_next | apply State.message_kept | apply State.regReadOp_kept)

theorem execLowWordRead_kept (r : Role) (rid addr : Nat) (s : State) (hk : State.Kept Q s) : OutKept Q
    (execLowWordRead r rid addr s) := by
  unfold execLowWordRead
  repeat' first
    | intro _
    | (with_reducible first | assumption | apply outKept_next | apply State.message_kept | apply State.regReadOp_kept)

theorem execHighWordRead_kept (r : Role) (rid addr : Nat) (s : State) (hk : State.Kept Q s) : OutKept Q
    (execHighWordRead r rid addr s) := by
  unfold execHighWordRead
  repeat' first
    | intro _
    | (with_reducible first | assumption | apply outKept_next | apply State.message_kept | apply State.regReadOp_kept)

theorem execRegWrite_kept (r : Role) (rid addr : Nat) (ws : List W32) (s : State) (hk : State.Kept Q s) : OutKept Q
    (execRegWrite r rid addr ws s) := by
  unfold execRegWrite
  repeat' first | (with_reducible first | assumption | apply State.regWriteMsg_kept)

theorem execQuClear_kept (r : Role) (rid eng : Nat) (hi : Bool) (v : W32) (s : State) (hk : State.Kept Q s) :
    OutKept Q (execQuClear r rid eng hi v s) := by
  unfold execQuClear
  repeat' first | (with_reducible first | assumption | apply State.regWriteMsg_kept)

theorem execQuWatchWrite_kept (r : Role) (rid eng n : Nat) (hi : Bool) (v : W32) (s : State) (hk : State.Kept Q s)
    : OutKept Q (execQuWatchWrite r rid eng n hi v s) := by
  unfold execQuWatchWrite
  repeat' first
    | (with_reducible first | assumption | apply outKept_next | apply outKept_ite | apply State.regWriteMsg_kept)

theorem execMeDgrpWrite_kept (r : Role) (rid eng n : Nat) (peer hi : Bool) (v : W32) (s : State)
    (hk : State.Kept Q s) : OutKept Q (execMeDgrpWrite r rid eng n peer hi v s) := by
  unfold execMeDgrpWrite
  repeat' first
    | (with_reducible first | assumption | apply outKept_next | apply outKept_ite | apply State.regWriteMsg_kept)

theorem execKmModeWrite_kept (r : Role) (rid : Nat) (v : W32) (s : State) (hk : State.Kept Q s) : OutKept Q
    (execKmModeWrite r rid v s) := by
  unfold execKmModeWrite
  repeat' first | (with_reducible first | assumption | apply State.regWriteMsg_kept)

theorem execAfBeamCommit_kept (r : Role) (rid : Nat) (v : W32) (s : State) (hk : State.Kept Q s) : OutKept Q
    (execAfBeamCommit r rid v s) := by
  unfold execAfBeamCommit
  repeat' first | (with_reducible first | assumption | apply State.regWriteMsg_kept)

theorem execAfCfgWrite_kept (r : Role) (rid : Nat) (v : W32) (s : State) (hk : State.Kept Q s) : OutKept Q
    (execAfCfgWrite r rid v s) := by
  unfold execAfCfgWrite
  repeat' first | (with_reducible first | assumption | apply State.regWriteMsg_kept)

theorem execMcRetrain_kept (r : Role) (rid : Nat) (v : W32) (s : State) (hk : State.Kept Q s) : OutKept Q
    (execMcRetrain r rid v s) := by
  unfold execMcRetrain
  repeat' first | (with_reducible first | assumption | apply State.regWriteMsg_kept)

theorem execTuNbrWrite_kept (r : Role) (rid n : Nat) (hi : Bool) (v : W32) (s : State) (hk : State.Kept Q s) :
    OutKept Q (execTuNbrWrite r rid n hi v s) := by
  unfold execTuNbrWrite
  repeat' first
    | (with_reducible first | assumption | apply outKept_next | apply outKept_ite | apply State.regWriteMsg_kept)

theorem execTuLendWrite_kept (r : Role) (rid : Nat) (v : W32) (s : State) (hk : State.Kept Q s) : OutKept Q
    (execTuLendWrite r rid v s) := by
  unfold execTuLendWrite
  repeat' first | (with_reducible first | assumption | apply State.regWriteMsg_kept)

theorem execLxEnWrite_kept (r : Role) (rid port : Nat) (v : W32) (s : State) (hk : State.Kept Q s) : OutKept Q
    (execLxEnWrite r rid port v s) := by
  unfold execLxEnWrite
  repeat' first
    | (with_reducible first | assumption | apply outKept_next | apply outKept_ite | apply State.regWriteMsg_kept)

theorem execLxIdWrite_kept (r : Role) (rid : Nat) (hi : Bool) (v : W32) (s : State) (hk : State.Kept Q s) : OutKept
    Q (execLxIdWrite r rid hi v s) := by
  unfold execLxIdWrite
  repeat' first | (with_reducible first | assumption | apply State.regWriteMsg_kept)

theorem execDmCfgWrite_kept (r : Role) (rid ch which : Nat) (hi : Bool) (v : W32) (s : State) (hk : State.Kept Q s)
    : OutKept Q (execDmCfgWrite r rid ch which hi v s) := by
  unfold execDmCfgWrite
  repeat' first
    | (with_reducible first | assumption | apply outKept_next | apply outKept_ite | apply State.regWriteMsg_kept)

theorem execDmTimerWrite_kept (r : Role) (rid ch : Nat) (hi : Bool) (v : W32) (s : State) (hk : State.Kept Q s) :
    OutKept Q (execDmTimerWrite r rid ch hi v s) := by
  unfold execDmTimerWrite
  repeat' first
    | (with_reducible first | assumption | apply outKept_next | apply outKept_ite | apply State.regWriteMsg_kept)

theorem execIpGateWrite_kept (r : Role) (rid : Nat) (entry hi : Bool) (v : W32) (s : State) (hk : State.Kept Q s) :
    OutKept Q (execIpGateWrite r rid entry hi v s) := by
  unfold execIpGateWrite
  repeat' first | (with_reducible first | assumption | apply State.regWriteMsg_kept)

theorem execIpPortCtlWrite_kept (r : Role) (rid port : Nat) (v : W32) (s : State) (hk : State.Kept Q s) : OutKept Q
    (execIpPortCtlWrite r rid port v s) := by
  unfold execIpPortCtlWrite
  repeat' first
    | (with_reducible first | assumption | apply outKept_next | apply outKept_ite | apply State.regWriteMsg_kept)

theorem execFcClear_kept (r : Role) (rid : Nat) (hi : Bool) (v : W32) (s : State) (hk : State.Kept Q s) : OutKept Q
    (execFcClear r rid hi v s) := by
  unfold execFcClear
  repeat' first | (with_reducible first | assumption | apply State.regWriteMsg_kept)

theorem execFcForce_kept (r : Role) (rid : Nat) (hi : Bool) (v : W32) (s : State) (hk : State.Kept Q s) : OutKept Q
    (execFcForce r rid hi v s) := by
  unfold execFcForce
  repeat' first | (with_reducible first | assumption | apply State.regWriteMsg_kept)

theorem execFcFenceSet_kept (r : Role) (rid : Nat) (v : W32) (s : State) (hk : State.Kept Q s) : OutKept Q
    (execFcFenceSet r rid v s) := by
  unfold execFcFenceSet
  repeat' first | (with_reducible first | assumption | apply State.regWriteMsg_kept)

theorem execFcFenceReturn_kept (r : Role) (rid : Nat) (v : W32) (s : State) (hk : State.Kept Q s) : OutKept Q
    (execFcFenceReturn r rid v s) := by
  unfold execFcFenceReturn
  repeat' first | (with_reducible first | assumption | apply State.regWriteMsg_kept)

theorem execFcBlockReset_kept (r : Role) (rid target : Nat) (s : State) (hk : State.Kept Q s) : OutKept Q
    (execFcBlockReset r rid target s) := by
  unfold execFcBlockReset
  repeat' first | (with_reducible first | assumption | apply State.regWriteMsg_kept)

theorem execFcFieldReset_kept (r : Role) (rid field : Nat) (s : State) (hk : State.Kept Q s) : OutKept Q
    (execFcFieldReset r rid field s) := by
  unfold execFcFieldReset
  repeat' first | (with_reducible first | assumption | apply State.regWriteMsg_kept)

theorem execFcSafe_kept (r : Role) (rid : Nat) (s : State) (hk : State.Kept Q s) : OutKept Q (execFcSafe r rid s) := by
  unfold execFcSafe
  repeat' first | (with_reducible first | assumption | apply State.regWriteMsg_kept)

theorem execWpFire_kept (r : Role) (rid : Nat) (s : State) (hk : State.Kept Q s) : OutKept Q (execWpFire r rid s) := by
  unfold execWpFire
  repeat' first | (with_reducible first | assumption | apply State.regWriteMsg_kept)

theorem execWpArm_kept (r : Role) (rid : Nat) (sdtrig : Bool) (s : State) (hk : State.Kept Q s) : OutKept Q
    (execWpArm r rid sdtrig s) := by
  unfold execWpArm
  repeat' first | (with_reducible first | assumption | apply State.regWriteMsg_kept)

theorem execInjectArm_kept (r : Role) (rid block : Nat) (v : W32) (s : State) (hk : State.Kept Q s) : OutKept Q
    (execInjectArm r rid block v s) := by
  unfold execInjectArm
  repeat' first
    | (with_reducible first | assumption | apply outKept_next | apply outKept_ite | apply State.regWriteMsg_kept)

theorem execStatus_kept (inv : Byte) (s : State) (hk : State.Kept Q s) : OutKept Q (execStatus inv s) := by
  unfold execStatus
  repeat' first
    | (with_reducible first | assumption | apply outKept_next | apply outKept_ite) | dsimp only | simp only [mk_kept]
    | with_reducible apply State.ignore_kept

theorem execFrameWrite_kept (inv : Byte) (len : Nat) (data : List Byte) (s : State) (hk : State.Kept Q s) : OutKept
    Q (execFrameWrite inv len data s) := by
  unfold execFrameWrite
  repeat' first
    | (with_reducible first | assumption | apply outKept_next | apply outKept_ite | apply State.driveNone_kept | apply State.ignore_kept | apply State.takeFrameIn_kept)

theorem execFrameRead_kept (inv : Byte) (most : Nat) (s : State) (hk : State.Kept Q s) : OutKept Q
    (execFrameRead inv most s) := by
  unfold execFrameRead
  repeat' first
    | (with_reducible first | assumption | apply outKept_next | apply outKept_ite | apply ite_kept) | dsimp only
    | simp only [mk_kept]
    | (with_reducible first | apply State.evLost_kept | apply State.check_kept | apply State.ignore_kept | apply State.popFrame_kept)
    | split

theorem execMode_kept (inv b0 : Byte) (s : State) (hk : State.Kept Q s) : OutKept Q (execMode inv b0 s) := by
  unfold execMode
  repeat' first
    | (with_reducible first | assumption | apply outKept_next | apply outKept_ite) | dsimp only | simp only [mk_kept]
    | (with_reducible first | apply State.driveNone_kept | apply State.ignore_kept)

theorem execEcho_kept (r : Role) (rid : Nat) (data : List Byte) (s : State) (hk : State.Kept Q s) : OutKept Q
    (execEcho r rid data s) := by
  unfold execEcho
  repeat' first | intro _ | (with_reducible first | assumption | apply outKept_next | apply State.message_kept)

theorem execEventsLost_kept (s : State) (hk : State.Kept Q s) : OutKept Q (execEventsLost s) := by
  unfold execEventsLost
  repeat' first
    | intro _ | (with_reducible first | assumption | apply outKept_next | apply outKept_ite | apply ite_kept)
    | dsimp only | simp only [mk_kept] | (with_reducible first | apply State.post_kept | apply foldl_kept)

theorem execAperture_kept (r : Role) (rid base : Nat) (s : State) (hk : State.Kept Q s) : OutKept Q
    (execAperture r rid base s) := by
  unfold execAperture
  repeat' first
    | intro _ | (with_reducible first | assumption | apply outKept_next | apply ite_fst_kept) | dsimp only
    | (with_reducible first | apply State.setReg_kept | apply State.message_kept)

theorem execMemRead_kept (r : Role) (rid off len : Nat) (s : State) (hk : State.Kept Q s) : OutKept Q
    (execMemRead r rid off len s) := by
  unfold execMemRead
  repeat' first
    | intro _
    | (with_reducible first | assumption | apply outKept_next | apply outKept_ite | apply ite_kept | apply State.reply_kept | apply State.messageLater_kept | apply State.readHere_kept | apply State.gatherStart_kept | (apply fst_kept; assumption))
    | split

theorem execMemWrite_kept (r : Role) (rid off len : Nat) (data : List Byte) (s : State) (hk : State.Kept Q s) :
    OutKept Q (execMemWrite r rid off len data s) := by
  unfold execMemWrite
  repeat' first
    | intro _
    | (with_reducible first | assumption | apply outKept_next | apply outKept_ite | apply ite_kept | apply State.write_kept | apply State.reply_kept | apply State.messageLater_kept | apply State.gatherStart_kept)
    | split

end Sys2Proof.Machine
end

