-- ==== Sys2Proof/Laws/State.lean ====
section
/-!
SUPPORT. One lemma per field of State for each shared update, and what a register, a memory byte, a context, a shared counter or
an engine reads after the update that names it.
-/
namespace Sys2Proof.Machine

/-! ### What an update reads back -/

@[simp] theorem State.setReg_regs (s : State) (a v : Nat) :
    (s.setReg a v).regs = Map.put s.regs a (BitVec.ofNat 64 v) := rfl

/-- The register at `a` is what was set there, or its reset value. -/
theorem State.reg_eq (s : State) (a : Nat) :
    s.reg a = ((Map.find s.regs a).map BitVec.toNat).getD (regReset a) := by
  unfold State.reg
  generalize s.regs = m
  induction m with
  | nil => rfl
  | cons c m ih =>
    simp only [List.find?, Map.find]
    by_cases h : c.1 = a
    · simp [h]
    · have hb : (c.1 == a) = false := by simpa using h
      rw [hb, if_neg h]
      exact ih

/-- A register reads what it was set to, as a 64-bit word. -/
@[simp] theorem State.reg_setReg_self (s : State) (a v : Nat) : (s.setReg a v).reg a = v % 2 ^ 64 := by
  simp [State.reg_eq, State.setReg_regs]

/-- Setting one register leaves every other as it was. -/
theorem State.reg_setReg_of_ne (s : State) {a b : Nat} (v : Nat) (h : b ≠ a) : (s.setReg a v).reg b = s.reg b := by
  simp [State.reg_eq, State.setReg_regs, Map.find_put_of_ne s.regs _ h]

/-- What lies in a field after it is set. -/
theorem bits_setBits_self (v hi lo x : Nat) : bits (setBits v hi lo x) hi lo = x % 2 ^ (hi + 1 - lo) := by
  unfold setBits bits
  have hw : 0 < 2 ^ (hi + 1 - lo) := Nat.pow_pos (by decide)
  have hl : 0 < 2 ^ lo := Nat.pow_pos (by decide)
  generalize 2 ^ (hi + 1 - lo) = w at *
  generalize 2 ^ lo = l at *
  have h1 := Nat.div_add_mod v l
  have h2 := Nat.div_add_mod (v / l) w
  have hx : x % w < w := Nat.mod_lt _ hw
  have e : v - v / l % w * l + x % w * l = (w * (v / l / w) + x % w) * l + v % l := by
    have h3 : v = (w * (v / l / w) + v / l % w) * l + v % l := by rw [h2, Nat.mul_comm]; exact h1.symm
    have h4 : v - v / l % w * l = w * (v / l / w) * l + v % l := by
      rw [Nat.add_mul] at h3
      omega
    rw [h4, Nat.add_mul]
    omega
  rw [e, Nat.mul_comm _ l, Nat.mul_add_div hl, Nat.div_eq_of_lt (Nat.mod_lt v hl), Nat.add_zero, Nat.mul_add_mod,
    Nat.mod_mod]

/-- A field below the one set is as it was. -/
theorem bits_setBits_below (v hi lo x hi' lo' : Nat) (h : hi' < lo) : bits (setBits v hi lo x) hi' lo' = bits v hi' lo' := by
  unfold setBits bits
  have h0 : v / 2 ^ lo % 2 ^ (hi + 1 - lo) * 2 ^ lo ≤ v :=
    Nat.le_trans (Nat.mul_le_mul_right _ (Nat.mod_le _ _)) (Nat.div_mul_le_self v (2 ^ lo))
  generalize v / 2 ^ lo % 2 ^ (hi + 1 - lo) = p at *
  generalize x % 2 ^ (hi + 1 - lo) = y
  by_cases hle : hi' + 1 ≤ lo'
  · rw [show hi' + 1 - lo' = 0 by omega, Nat.pow_zero, Nat.mod_one, Nat.mod_one]
  · have key : ∀ u : Nat, u / 2 ^ lo' % 2 ^ (hi' + 1 - lo') = u % 2 ^ (hi' + 1) / 2 ^ lo' := by
      intro u
      rw [show 2 ^ (hi' + 1) = 2 ^ lo' * 2 ^ (hi' + 1 - lo') by rw [← Nat.pow_add]; congr 1; omega, Nat.mod_mul_right_div_self]
    rw [key, key]
    congr 1
    have hm : 2 ^ lo = 2 ^ (hi' + 1) * 2 ^ (lo - (hi' + 1)) := by rw [← Nat.pow_add]; congr 1; omega
    rw [hm] at h0 ⊢
    generalize 2 ^ (lo - (hi' + 1)) = r at *
    generalize 2 ^ (hi' + 1) = k at *
    have e1 : p * (k * r) = k * (p * r) := by rw [← Nat.mul_assoc, Nat.mul_comm p k, Nat.mul_assoc]
    have e2 : y * (k * r) = k * (y * r) := by rw [← Nat.mul_assoc, Nat.mul_comm y k, Nat.mul_assoc]
    rw [e1] at h0 ⊢
    rw [e2, Nat.add_mul_mod_self_left]
    obtain ⟨d, hd⟩ := Nat.le.dest h0
    rw [← hd, Nat.add_sub_cancel_left, Nat.mul_add_mod]

/-- A field above the one set is as it was. -/
theorem bits_setBits_above (v hi lo x hi' lo' : Nat) (h : hi < lo') (hl : lo ≤ hi) :
    bits (setBits v hi lo x) hi' lo' = bits v hi' lo' := by
  unfold setBits bits
  congr 1
  have hm : 2 ^ lo' = 2 ^ lo * 2 ^ (hi + 1 - lo) * 2 ^ (lo' - (hi + 1)) := by
    rw [← Nat.pow_add, ← Nat.pow_add]; congr 1; omega
  have hw : 0 < 2 ^ (hi + 1 - lo) := Nat.pow_pos (by decide)
  have hp : 0 < 2 ^ lo := Nat.pow_pos (by decide)
  rw [hm]
  generalize 2 ^ (hi + 1 - lo) = w at *
  generalize 2 ^ lo = l at *
  rw [← Nat.div_div_eq_div_mul, ← Nat.div_div_eq_div_mul, ← Nat.div_div_eq_div_mul, ← Nat.div_div_eq_div_mul]
  congr 1
  have h1 := Nat.div_add_mod v l
  have h2 := Nat.div_add_mod (v / l) w
  have e : v - v / l % w * l + x % w * l = l * (w * (v / l / w) + x % w) + v % l := by
    have h3 : v = (w * (v / l / w) + v / l % w) * l + v % l := by rw [h2, Nat.mul_comm]; exact h1.symm
    have h4 : v - v / l % w * l = w * (v / l / w) * l + v % l := by
      rw [Nat.add_mul] at h3
      omega
    rw [h4, Nat.mul_comm l, Nat.add_mul]
    omega
  rw [e, Nat.mul_add_div hp, Nat.div_eq_of_lt (Nat.mod_lt v hp), Nat.add_zero, Nat.mul_add_div hw,
    Nat.div_eq_of_lt (Nat.mod_lt x hw), Nat.add_zero]

/-- Fields of a word see it modulo 2^64. -/
theorem bits_mod (v hi lo : Nat) (h : hi < 64) : bits (v % 2 ^ 64) hi lo = bits v hi lo := by
  unfold bits
  by_cases hle : hi + 1 ≤ lo
  · rw [show hi + 1 - lo = 0 by omega, Nat.pow_zero, Nat.mod_one, Nat.mod_one]
  · have key : ∀ u : Nat, u / 2 ^ lo % 2 ^ (hi + 1 - lo) = u % 2 ^ (hi + 1) / 2 ^ lo := by
      intro u
      rw [show 2 ^ (hi + 1) = 2 ^ lo * 2 ^ (hi + 1 - lo) by rw [← Nat.pow_add]; congr 1; omega, Nat.mod_mul_right_div_self]
    rw [key, key, Nat.mod_mod_of_dvd]
    exact Nat.pow_dvd_pow 2 (by omega)

/-- A register field reads what it was set to. -/
theorem State.getF_setF_self (s : State) (a hi lo v : Nat) (h : hi < 64) :
    (s.setF a hi lo v).getF a hi lo = v % 2 ^ (hi + 1 - lo) := by
  unfold State.setF State.getF
  rw [State.reg_setReg_self, bits_mod _ _ _ h, bits_setBits_self]

/-- A field of another register is as it was. -/
theorem State.getF_setF_of_ne (s : State) {a b : Nat} (hi lo v hi' lo' : Nat) (h : b ≠ a) :
    (s.setF a hi lo v).getF b hi' lo' = s.getF b hi' lo' := by
  unfold State.setF State.getF
  rw [State.reg_setReg_of_ne _ _ h]

/-- A disjoint field of the same register is as it was. -/
theorem State.getF_setF_disjoint (s : State) (a hi lo v hi' lo' : Nat) (h' : hi' < 64) (hl : lo ≤ hi)
    (h : hi' < lo ∨ hi < lo') : (s.setF a hi lo v).getF a hi' lo' = s.getF a hi' lo' := by
  unfold State.setF State.getF
  rw [State.reg_setReg_self, bits_mod _ _ _ h']
  rcases h with h | h
  · exact bits_setBits_below _ _ _ _ _ _ h
  · exact bits_setBits_above _ _ _ _ _ _ h hl

@[simp] theorem State.ctx_setCtx_self (s : State) (c : Nat) (x : Ctx) : (s.setCtx c x).ctx c = some x := by
  simp [State.ctx, State.setCtx]

theorem State.ctx_setCtx_of_ne (s : State) {c d : Nat} (x : Ctx) (h : d ≠ c) : (s.setCtx c x).ctx d = s.ctx d := by
  simp [State.ctx, State.setCtx, Map.find_put_of_ne s.dx.ctxs _ h]

@[simp] theorem State.shared_setShared_self (s : State) (f i : Nat) (v : W32) : (s.setShared f i v).shared f i = v := by
  simp [State.shared, State.setShared]

theorem listUpd_length {α : Type} (l : List α) (i : Nat) (f : α → α) : (listUpd l i f).length = l.length := by
  induction l generalizing i with
  | nil => cases i <;> rfl
  | cons a l ih => cases i with
    | zero => rfl
    | succ i => simp [listUpd, ih]

theorem listUpd_get (l : List α) (i : Nat) (f : α → α) (j : Nat) :
    (listUpd l i f)[j]? = if i = j then l[j]?.map f else l[j]? := by
  induction l generalizing i j with
  | nil => cases i <;> simp [listUpd]
  | cons a l ih =>
    cases i with
    | zero => cases j <;> simp [listUpd]
    | succ i => cases j with
      | zero => simp [listUpd]
      | succ j => simp [listUpd, ih]

/-- An engine that is there reads as changed. -/
theorem State.engine_updEngine_self (s : State) (e : Nat) (f : Engine → Engine) (h : e < s.engines.length) :
    (s.updEngine e f).engine e = f (s.engine e) := by
  simp [State.engine, State.updEngine, listUpd_get, List.getElem?_eq_getElem h]

theorem State.engine_updEngine_of_ne (s : State) {e d : Nat} (f : Engine → Engine) (h : d ≠ e) :
    (s.updEngine e f).engine d = s.engine d := by
  simp [State.engine, State.updEngine, listUpd_get, Ne.symm h]

/-! ### Frames -/

/-! State.write changes `mem` alone. -/

@[simp] theorem State.write_pending (s : State) (a : Nat) (bs : List Byte) : (s.write a bs).pending = s.pending := rfl
@[simp] theorem State.write_regs (s : State) (a : Nat) (bs : List Byte) : (s.write a bs).regs = s.regs := rfl
@[simp] theorem State.write_cap (s : State) (a : Nat) (bs : List Byte) : (s.write a bs).cap = s.cap := rfl
@[simp] theorem State.write_sel (s : State) (a : Nat) (bs : List Byte) : (s.write a bs).sel = s.sel := rfl
@[simp] theorem State.write_hp (s : State) (a : Nat) (bs : List Byte) : (s.write a bs).hp = s.hp := rfl
@[simp] theorem State.write_sx (s : State) (a : Nat) (bs : List Byte) : (s.write a bs).sx = s.sx := rfl
@[simp] theorem State.write_image (s : State) (a : Nat) (bs : List Byte) : (s.write a bs).image = s.image := rfl
@[simp] theorem State.write_load (s : State) (a : Nat) (bs : List Byte) : (s.write a bs).load = s.load := rfl
@[simp] theorem State.write_fc (s : State) (a : Nat) (bs : List Byte) : (s.write a bs).fc = s.fc := rfl
@[simp] theorem State.write_pw (s : State) (a : Nat) (bs : List Byte) : (s.write a bs).pw = s.pw := rfl
@[simp] theorem State.write_ck (s : State) (a : Nat) (bs : List Byte) : (s.write a bs).ck = s.ck := rfl
@[simp] theorem State.write_dx (s : State) (a : Nat) (bs : List Byte) : (s.write a bs).dx = s.dx := rfl
@[simp] theorem State.write_engines (s : State) (a : Nat) (bs : List Byte) : (s.write a bs).engines = s.engines := rfl
@[simp] theorem State.write_km (s : State) (a : Nat) (bs : List Byte) : (s.write a bs).km = s.km := rfl
@[simp] theorem State.write_se (s : State) (a : Nat) (bs : List Byte) : (s.write a bs).se = s.se := rfl
@[simp] theorem State.write_tu (s : State) (a : Nat) (bs : List Byte) : (s.write a bs).tu = s.tu := rfl
@[simp] theorem State.write_mcStage (s : State) (a : Nat) (bs : List Byte) : (s.write a bs).mcStage = s.mcStage := rfl
@[simp] theorem State.write_dm (s : State) (a : Nat) (bs : List Byte) : (s.write a bs).dm = s.dm := rfl
@[simp] theorem State.write_dmTurn (s : State) (a : Nat) (bs : List Byte) : (s.write a bs).dmTurn = s.dmTurn := rfl
@[simp] theorem State.write_lx (s : State) (a : Nat) (bs : List Byte) : (s.write a bs).lx = s.lx := rfl
@[simp] theorem State.write_af (s : State) (a : Nat) (bs : List Byte) : (s.write a bs).af = s.af := rfl
@[simp] theorem State.write_lo (s : State) (a : Nat) (bs : List Byte) : (s.write a bs).lo = s.lo := rfl
@[simp] theorem State.write_ip (s : State) (a : Nat) (bs : List Byte) : (s.write a bs).ip = s.ip := rfl
@[simp] theorem State.write_sd (s : State) (a : Nat) (bs : List Byte) : (s.write a bs).sd = s.sd := rfl
@[simp] theorem State.write_dig (s : State) (a : Nat) (bs : List Byte) : (s.write a bs).dig = s.dig := rfl
@[simp] theorem State.write_resetLow (s : State) (a : Nat) (bs : List Byte) : (s.write a bs).resetLow = s.resetLow := rfl
@[simp] theorem State.write_free (s : State) (a : Nat) (bs : List Byte) : (s.write a bs).free = s.free := rfl

/-! State.zero changes `mem` alone. -/

@[simp] theorem State.zero_pending (s : State) (a n : Nat) : (s.zero a n).pending = s.pending := rfl
@[simp] theorem State.zero_regs (s : State) (a n : Nat) : (s.zero a n).regs = s.regs := rfl
@[simp] theorem State.zero_cap (s : State) (a n : Nat) : (s.zero a n).cap = s.cap := rfl
@[simp] theorem State.zero_sel (s : State) (a n : Nat) : (s.zero a n).sel = s.sel := rfl
@[simp] theorem State.zero_hp (s : State) (a n : Nat) : (s.zero a n).hp = s.hp := rfl
@[simp] theorem State.zero_sx (s : State) (a n : Nat) : (s.zero a n).sx = s.sx := rfl
@[simp] theorem State.zero_image (s : State) (a n : Nat) : (s.zero a n).image = s.image := rfl
@[simp] theorem State.zero_load (s : State) (a n : Nat) : (s.zero a n).load = s.load := rfl
@[simp] theorem State.zero_fc (s : State) (a n : Nat) : (s.zero a n).fc = s.fc := rfl
@[simp] theorem State.zero_pw (s : State) (a n : Nat) : (s.zero a n).pw = s.pw := rfl
@[simp] theorem State.zero_ck (s : State) (a n : Nat) : (s.zero a n).ck = s.ck := rfl
@[simp] theorem State.zero_dx (s : State) (a n : Nat) : (s.zero a n).dx = s.dx := rfl
@[simp] theorem State.zero_engines (s : State) (a n : Nat) : (s.zero a n).engines = s.engines := rfl
@[simp] theorem State.zero_km (s : State) (a n : Nat) : (s.zero a n).km = s.km := rfl
@[simp] theorem State.zero_se (s : State) (a n : Nat) : (s.zero a n).se = s.se := rfl
@[simp] theorem State.zero_tu (s : State) (a n : Nat) : (s.zero a n).tu = s.tu := rfl
@[simp] theorem State.zero_mcStage (s : State) (a n : Nat) : (s.zero a n).mcStage = s.mcStage := rfl
@[simp] theorem State.zero_dm (s : State) (a n : Nat) : (s.zero a n).dm = s.dm := rfl
@[simp] theorem State.zero_dmTurn (s : State) (a n : Nat) : (s.zero a n).dmTurn = s.dmTurn := rfl
@[simp] theorem State.zero_lx (s : State) (a n : Nat) : (s.zero a n).lx = s.lx := rfl
@[simp] theorem State.zero_af (s : State) (a n : Nat) : (s.zero a n).af = s.af := rfl
@[simp] theorem State.zero_lo (s : State) (a n : Nat) : (s.zero a n).lo = s.lo := rfl
@[simp] theorem State.zero_ip (s : State) (a n : Nat) : (s.zero a n).ip = s.ip := rfl
@[simp] theorem State.zero_sd (s : State) (a n : Nat) : (s.zero a n).sd = s.sd := rfl
@[simp] theorem State.zero_dig (s : State) (a n : Nat) : (s.zero a n).dig = s.dig := rfl
@[simp] theorem State.zero_resetLow (s : State) (a n : Nat) : (s.zero a n).resetLow = s.resetLow := rfl
@[simp] theorem State.zero_free (s : State) (a n : Nat) : (s.zero a n).free = s.free := rfl

/-! State.setReg changes `regs` alone. -/

@[simp] theorem State.setReg_pending (s : State) (a v : Nat) : (s.setReg a v).pending = s.pending := rfl
@[simp] theorem State.setReg_mem (s : State) (a v : Nat) : (s.setReg a v).mem = s.mem := rfl
@[simp] theorem State.setReg_cap (s : State) (a v : Nat) : (s.setReg a v).cap = s.cap := rfl
@[simp] theorem State.setReg_sel (s : State) (a v : Nat) : (s.setReg a v).sel = s.sel := rfl
@[simp] theorem State.setReg_hp (s : State) (a v : Nat) : (s.setReg a v).hp = s.hp := rfl
@[simp] theorem State.setReg_sx (s : State) (a v : Nat) : (s.setReg a v).sx = s.sx := rfl
@[simp] theorem State.setReg_image (s : State) (a v : Nat) : (s.setReg a v).image = s.image := rfl
@[simp] theorem State.setReg_load (s : State) (a v : Nat) : (s.setReg a v).load = s.load := rfl
@[simp] theorem State.setReg_fc (s : State) (a v : Nat) : (s.setReg a v).fc = s.fc := rfl
@[simp] theorem State.setReg_pw (s : State) (a v : Nat) : (s.setReg a v).pw = s.pw := rfl
@[simp] theorem State.setReg_ck (s : State) (a v : Nat) : (s.setReg a v).ck = s.ck := rfl
@[simp] theorem State.setReg_dx (s : State) (a v : Nat) : (s.setReg a v).dx = s.dx := rfl
@[simp] theorem State.setReg_engines (s : State) (a v : Nat) : (s.setReg a v).engines = s.engines := rfl
@[simp] theorem State.setReg_km (s : State) (a v : Nat) : (s.setReg a v).km = s.km := rfl
@[simp] theorem State.setReg_se (s : State) (a v : Nat) : (s.setReg a v).se = s.se := rfl
@[simp] theorem State.setReg_tu (s : State) (a v : Nat) : (s.setReg a v).tu = s.tu := rfl
@[simp] theorem State.setReg_mcStage (s : State) (a v : Nat) : (s.setReg a v).mcStage = s.mcStage := rfl
@[simp] theorem State.setReg_dm (s : State) (a v : Nat) : (s.setReg a v).dm = s.dm := rfl
@[simp] theorem State.setReg_dmTurn (s : State) (a v : Nat) : (s.setReg a v).dmTurn = s.dmTurn := rfl
@[simp] theorem State.setReg_lx (s : State) (a v : Nat) : (s.setReg a v).lx = s.lx := rfl
@[simp] theorem State.setReg_af (s : State) (a v : Nat) : (s.setReg a v).af = s.af := rfl
@[simp] theorem State.setReg_lo (s : State) (a v : Nat) : (s.setReg a v).lo = s.lo := rfl
@[simp] theorem State.setReg_ip (s : State) (a v : Nat) : (s.setReg a v).ip = s.ip := rfl
@[simp] theorem State.setReg_sd (s : State) (a v : Nat) : (s.setReg a v).sd = s.sd := rfl
@[simp] theorem State.setReg_dig (s : State) (a v : Nat) : (s.setReg a v).dig = s.dig := rfl
@[simp] theorem State.setReg_resetLow (s : State) (a v : Nat) : (s.setReg a v).resetLow = s.resetLow := rfl
@[simp] theorem State.setReg_free (s : State) (a v : Nat) : (s.setReg a v).free = s.free := rfl

/-! State.resetRegs changes `regs` and `sel` alone. -/

@[simp] theorem State.resetRegs_pending (s : State) (b : Nat) : (s.resetRegs b).pending = s.pending := rfl
@[simp] theorem State.resetRegs_mem (s : State) (b : Nat) : (s.resetRegs b).mem = s.mem := rfl
@[simp] theorem State.resetRegs_cap (s : State) (b : Nat) : (s.resetRegs b).cap = s.cap := rfl
@[simp] theorem State.resetRegs_hp (s : State) (b : Nat) : (s.resetRegs b).hp = s.hp := rfl
@[simp] theorem State.resetRegs_sx (s : State) (b : Nat) : (s.resetRegs b).sx = s.sx := rfl
@[simp] theorem State.resetRegs_image (s : State) (b : Nat) : (s.resetRegs b).image = s.image := rfl
@[simp] theorem State.resetRegs_load (s : State) (b : Nat) : (s.resetRegs b).load = s.load := rfl
@[simp] theorem State.resetRegs_fc (s : State) (b : Nat) : (s.resetRegs b).fc = s.fc := rfl
@[simp] theorem State.resetRegs_pw (s : State) (b : Nat) : (s.resetRegs b).pw = s.pw := rfl
@[simp] theorem State.resetRegs_ck (s : State) (b : Nat) : (s.resetRegs b).ck = s.ck := rfl
@[simp] theorem State.resetRegs_dx (s : State) (b : Nat) : (s.resetRegs b).dx = s.dx := rfl
@[simp] theorem State.resetRegs_engines (s : State) (b : Nat) : (s.resetRegs b).engines = s.engines := rfl
@[simp] theorem State.resetRegs_km (s : State) (b : Nat) : (s.resetRegs b).km = s.km := rfl
@[simp] theorem State.resetRegs_se (s : State) (b : Nat) : (s.resetRegs b).se = s.se := rfl
@[simp] theorem State.resetRegs_tu (s : State) (b : Nat) : (s.resetRegs b).tu = s.tu := rfl
@[simp] theorem State.resetRegs_mcStage (s : State) (b : Nat) : (s.resetRegs b).mcStage = s.mcStage := rfl
@[simp] theorem State.resetRegs_dm (s : State) (b : Nat) : (s.resetRegs b).dm = s.dm := rfl
@[simp] theorem State.resetRegs_dmTurn (s : State) (b : Nat) : (s.resetRegs b).dmTurn = s.dmTurn := rfl
@[simp] theorem State.resetRegs_lx (s : State) (b : Nat) : (s.resetRegs b).lx = s.lx := rfl
@[simp] theorem State.resetRegs_af (s : State) (b : Nat) : (s.resetRegs b).af = s.af := rfl
@[simp] theorem State.resetRegs_lo (s : State) (b : Nat) : (s.resetRegs b).lo = s.lo := rfl
@[simp] theorem State.resetRegs_ip (s : State) (b : Nat) : (s.resetRegs b).ip = s.ip := rfl
@[simp] theorem State.resetRegs_sd (s : State) (b : Nat) : (s.resetRegs b).sd = s.sd := rfl
@[simp] theorem State.resetRegs_dig (s : State) (b : Nat) : (s.resetRegs b).dig = s.dig := rfl
@[simp] theorem State.resetRegs_resetLow (s : State) (b : Nat) : (s.resetRegs b).resetLow = s.resetLow := rfl
@[simp] theorem State.resetRegs_free (s : State) (b : Nat) : (s.resetRegs b).free = s.free := rfl

/-! State.pulse changes `fc` alone. -/

@[simp] theorem State.pulse_pending (s : State) (bit : Nat) (step : Option (Nat × W32)) : (s.pulse bit step).pending = s.pending := rfl
@[simp] theorem State.pulse_mem (s : State) (bit : Nat) (step : Option (Nat × W32)) : (s.pulse bit step).mem = s.mem := rfl
@[simp] theorem State.pulse_regs (s : State) (bit : Nat) (step : Option (Nat × W32)) : (s.pulse bit step).regs = s.regs := rfl
@[simp] theorem State.pulse_cap (s : State) (bit : Nat) (step : Option (Nat × W32)) : (s.pulse bit step).cap = s.cap := rfl
@[simp] theorem State.pulse_sel (s : State) (bit : Nat) (step : Option (Nat × W32)) : (s.pulse bit step).sel = s.sel := rfl
@[simp] theorem State.pulse_hp (s : State) (bit : Nat) (step : Option (Nat × W32)) : (s.pulse bit step).hp = s.hp := rfl
@[simp] theorem State.pulse_sx (s : State) (bit : Nat) (step : Option (Nat × W32)) : (s.pulse bit step).sx = s.sx := rfl
@[simp] theorem State.pulse_image (s : State) (bit : Nat) (step : Option (Nat × W32)) : (s.pulse bit step).image = s.image := rfl
@[simp] theorem State.pulse_load (s : State) (bit : Nat) (step : Option (Nat × W32)) : (s.pulse bit step).load = s.load := rfl
@[simp] theorem State.pulse_pw (s : State) (bit : Nat) (step : Option (Nat × W32)) : (s.pulse bit step).pw = s.pw := rfl
@[simp] theorem State.pulse_ck (s : State) (bit : Nat) (step : Option (Nat × W32)) : (s.pulse bit step).ck = s.ck := rfl
@[simp] theorem State.pulse_dx (s : State) (bit : Nat) (step : Option (Nat × W32)) : (s.pulse bit step).dx = s.dx := rfl
@[simp] theorem State.pulse_engines (s : State) (bit : Nat) (step : Option (Nat × W32)) : (s.pulse bit step).engines = s.engines := rfl
@[simp] theorem State.pulse_km (s : State) (bit : Nat) (step : Option (Nat × W32)) : (s.pulse bit step).km = s.km := rfl
@[simp] theorem State.pulse_se (s : State) (bit : Nat) (step : Option (Nat × W32)) : (s.pulse bit step).se = s.se := rfl
@[simp] theorem State.pulse_tu (s : State) (bit : Nat) (step : Option (Nat × W32)) : (s.pulse bit step).tu = s.tu := rfl
@[simp] theorem State.pulse_mcStage (s : State) (bit : Nat) (step : Option (Nat × W32)) : (s.pulse bit step).mcStage = s.mcStage := rfl
@[simp] theorem State.pulse_dm (s : State) (bit : Nat) (step : Option (Nat × W32)) : (s.pulse bit step).dm = s.dm := rfl
@[simp] theorem State.pulse_dmTurn (s : State) (bit : Nat) (step : Option (Nat × W32)) : (s.pulse bit step).dmTurn = s.dmTurn := rfl
@[simp] theorem State.pulse_lx (s : State) (bit : Nat) (step : Option (Nat × W32)) : (s.pulse bit step).lx = s.lx := rfl
@[simp] theorem State.pulse_af (s : State) (bit : Nat) (step : Option (Nat × W32)) : (s.pulse bit step).af = s.af := rfl
@[simp] theorem State.pulse_lo (s : State) (bit : Nat) (step : Option (Nat × W32)) : (s.pulse bit step).lo = s.lo := rfl
@[simp] theorem State.pulse_ip (s : State) (bit : Nat) (step : Option (Nat × W32)) : (s.pulse bit step).ip = s.ip := rfl
@[simp] theorem State.pulse_sd (s : State) (bit : Nat) (step : Option (Nat × W32)) : (s.pulse bit step).sd = s.sd := rfl
@[simp] theorem State.pulse_dig (s : State) (bit : Nat) (step : Option (Nat × W32)) : (s.pulse bit step).dig = s.dig := rfl
@[simp] theorem State.pulse_resetLow (s : State) (bit : Nat) (step : Option (Nat × W32)) : (s.pulse bit step).resetLow = s.resetLow := rfl
@[simp] theorem State.pulse_free (s : State) (bit : Nat) (step : Option (Nat × W32)) : (s.pulse bit step).free = s.free := rfl

/-! State.setCtx changes `dx` alone. -/

@[simp] theorem State.setCtx_pending (s : State) (c : Nat) (x : Ctx) : (s.setCtx c x).pending = s.pending := rfl
@[simp] theorem State.setCtx_mem (s : State) (c : Nat) (x : Ctx) : (s.setCtx c x).mem = s.mem := rfl
@[simp] theorem State.setCtx_regs (s : State) (c : Nat) (x : Ctx) : (s.setCtx c x).regs = s.regs := rfl
@[simp] theorem State.setCtx_cap (s : State) (c : Nat) (x : Ctx) : (s.setCtx c x).cap = s.cap := rfl
@[simp] theorem State.setCtx_sel (s : State) (c : Nat) (x : Ctx) : (s.setCtx c x).sel = s.sel := rfl
@[simp] theorem State.setCtx_hp (s : State) (c : Nat) (x : Ctx) : (s.setCtx c x).hp = s.hp := rfl
@[simp] theorem State.setCtx_sx (s : State) (c : Nat) (x : Ctx) : (s.setCtx c x).sx = s.sx := rfl
@[simp] theorem State.setCtx_image (s : State) (c : Nat) (x : Ctx) : (s.setCtx c x).image = s.image := rfl
@[simp] theorem State.setCtx_load (s : State) (c : Nat) (x : Ctx) : (s.setCtx c x).load = s.load := rfl
@[simp] theorem State.setCtx_fc (s : State) (c : Nat) (x : Ctx) : (s.setCtx c x).fc = s.fc := rfl
@[simp] theorem State.setCtx_pw (s : State) (c : Nat) (x : Ctx) : (s.setCtx c x).pw = s.pw := rfl
@[simp] theorem State.setCtx_ck (s : State) (c : Nat) (x : Ctx) : (s.setCtx c x).ck = s.ck := rfl
@[simp] theorem State.setCtx_engines (s : State) (c : Nat) (x : Ctx) : (s.setCtx c x).engines = s.engines := rfl
@[simp] theorem State.setCtx_km (s : State) (c : Nat) (x : Ctx) : (s.setCtx c x).km = s.km := rfl
@[simp] theorem State.setCtx_se (s : State) (c : Nat) (x : Ctx) : (s.setCtx c x).se = s.se := rfl
@[simp] theorem State.setCtx_tu (s : State) (c : Nat) (x : Ctx) : (s.setCtx c x).tu = s.tu := rfl
@[simp] theorem State.setCtx_mcStage (s : State) (c : Nat) (x : Ctx) : (s.setCtx c x).mcStage = s.mcStage := rfl
@[simp] theorem State.setCtx_dm (s : State) (c : Nat) (x : Ctx) : (s.setCtx c x).dm = s.dm := rfl
@[simp] theorem State.setCtx_dmTurn (s : State) (c : Nat) (x : Ctx) : (s.setCtx c x).dmTurn = s.dmTurn := rfl
@[simp] theorem State.setCtx_lx (s : State) (c : Nat) (x : Ctx) : (s.setCtx c x).lx = s.lx := rfl
@[simp] theorem State.setCtx_af (s : State) (c : Nat) (x : Ctx) : (s.setCtx c x).af = s.af := rfl
@[simp] theorem State.setCtx_lo (s : State) (c : Nat) (x : Ctx) : (s.setCtx c x).lo = s.lo := rfl
@[simp] theorem State.setCtx_ip (s : State) (c : Nat) (x : Ctx) : (s.setCtx c x).ip = s.ip := rfl
@[simp] theorem State.setCtx_sd (s : State) (c : Nat) (x : Ctx) : (s.setCtx c x).sd = s.sd := rfl
@[simp] theorem State.setCtx_dig (s : State) (c : Nat) (x : Ctx) : (s.setCtx c x).dig = s.dig := rfl
@[simp] theorem State.setCtx_resetLow (s : State) (c : Nat) (x : Ctx) : (s.setCtx c x).resetLow = s.resetLow := rfl
@[simp] theorem State.setCtx_free (s : State) (c : Nat) (x : Ctx) : (s.setCtx c x).free = s.free := rfl

/-! State.updEngine changes `engines` alone. -/

@[simp] theorem State.updEngine_pending (s : State) (e : Nat) (f : Engine → Engine) : (s.updEngine e f).pending = s.pending := rfl
@[simp] theorem State.updEngine_mem (s : State) (e : Nat) (f : Engine → Engine) : (s.updEngine e f).mem = s.mem := rfl
@[simp] theorem State.updEngine_regs (s : State) (e : Nat) (f : Engine → Engine) : (s.updEngine e f).regs = s.regs := rfl
@[simp] theorem State.updEngine_cap (s : State) (e : Nat) (f : Engine → Engine) : (s.updEngine e f).cap = s.cap := rfl
@[simp] theorem State.updEngine_sel (s : State) (e : Nat) (f : Engine → Engine) : (s.updEngine e f).sel = s.sel := rfl
@[simp] theorem State.updEngine_hp (s : State) (e : Nat) (f : Engine → Engine) : (s.updEngine e f).hp = s.hp := rfl
@[simp] theorem State.updEngine_sx (s : State) (e : Nat) (f : Engine → Engine) : (s.updEngine e f).sx = s.sx := rfl
@[simp] theorem State.updEngine_image (s : State) (e : Nat) (f : Engine → Engine) : (s.updEngine e f).image = s.image := rfl
@[simp] theorem State.updEngine_load (s : State) (e : Nat) (f : Engine → Engine) : (s.updEngine e f).load = s.load := rfl
@[simp] theorem State.updEngine_fc (s : State) (e : Nat) (f : Engine → Engine) : (s.updEngine e f).fc = s.fc := rfl
@[simp] theorem State.updEngine_pw (s : State) (e : Nat) (f : Engine → Engine) : (s.updEngine e f).pw = s.pw := rfl
@[simp] theorem State.updEngine_ck (s : State) (e : Nat) (f : Engine → Engine) : (s.updEngine e f).ck = s.ck := rfl
@[simp] theorem State.updEngine_dx (s : State) (e : Nat) (f : Engine → Engine) : (s.updEngine e f).dx = s.dx := rfl
@[simp] theorem State.updEngine_km (s : State) (e : Nat) (f : Engine → Engine) : (s.updEngine e f).km = s.km := rfl
@[simp] theorem State.updEngine_se (s : State) (e : Nat) (f : Engine → Engine) : (s.updEngine e f).se = s.se := rfl
@[simp] theorem State.updEngine_tu (s : State) (e : Nat) (f : Engine → Engine) : (s.updEngine e f).tu = s.tu := rfl
@[simp] theorem State.updEngine_mcStage (s : State) (e : Nat) (f : Engine → Engine) : (s.updEngine e f).mcStage = s.mcStage := rfl
@[simp] theorem State.updEngine_dm (s : State) (e : Nat) (f : Engine → Engine) : (s.updEngine e f).dm = s.dm := rfl
@[simp] theorem State.updEngine_dmTurn (s : State) (e : Nat) (f : Engine → Engine) : (s.updEngine e f).dmTurn = s.dmTurn := rfl
@[simp] theorem State.updEngine_lx (s : State) (e : Nat) (f : Engine → Engine) : (s.updEngine e f).lx = s.lx := rfl
@[simp] theorem State.updEngine_af (s : State) (e : Nat) (f : Engine → Engine) : (s.updEngine e f).af = s.af := rfl
@[simp] theorem State.updEngine_lo (s : State) (e : Nat) (f : Engine → Engine) : (s.updEngine e f).lo = s.lo := rfl
@[simp] theorem State.updEngine_ip (s : State) (e : Nat) (f : Engine → Engine) : (s.updEngine e f).ip = s.ip := rfl
@[simp] theorem State.updEngine_sd (s : State) (e : Nat) (f : Engine → Engine) : (s.updEngine e f).sd = s.sd := rfl
@[simp] theorem State.updEngine_dig (s : State) (e : Nat) (f : Engine → Engine) : (s.updEngine e f).dig = s.dig := rfl
@[simp] theorem State.updEngine_resetLow (s : State) (e : Nat) (f : Engine → Engine) : (s.updEngine e f).resetLow = s.resetLow := rfl
@[simp] theorem State.updEngine_free (s : State) (e : Nat) (f : Engine → Engine) : (s.updEngine e f).free = s.free := rfl

/-! State.setShared changes `dx` alone. -/

@[simp] theorem State.setShared_pending (s : State) (f i : Nat) (v : W32) : (s.setShared f i v).pending = s.pending := rfl
@[simp] theorem State.setShared_mem (s : State) (f i : Nat) (v : W32) : (s.setShared f i v).mem = s.mem := rfl
@[simp] theorem State.setShared_regs (s : State) (f i : Nat) (v : W32) : (s.setShared f i v).regs = s.regs := rfl
@[simp] theorem State.setShared_cap (s : State) (f i : Nat) (v : W32) : (s.setShared f i v).cap = s.cap := rfl
@[simp] theorem State.setShared_sel (s : State) (f i : Nat) (v : W32) : (s.setShared f i v).sel = s.sel := rfl
@[simp] theorem State.setShared_hp (s : State) (f i : Nat) (v : W32) : (s.setShared f i v).hp = s.hp := rfl
@[simp] theorem State.setShared_sx (s : State) (f i : Nat) (v : W32) : (s.setShared f i v).sx = s.sx := rfl
@[simp] theorem State.setShared_image (s : State) (f i : Nat) (v : W32) : (s.setShared f i v).image = s.image := rfl
@[simp] theorem State.setShared_load (s : State) (f i : Nat) (v : W32) : (s.setShared f i v).load = s.load := rfl
@[simp] theorem State.setShared_fc (s : State) (f i : Nat) (v : W32) : (s.setShared f i v).fc = s.fc := rfl
@[simp] theorem State.setShared_pw (s : State) (f i : Nat) (v : W32) : (s.setShared f i v).pw = s.pw := rfl
@[simp] theorem State.setShared_ck (s : State) (f i : Nat) (v : W32) : (s.setShared f i v).ck = s.ck := rfl
@[simp] theorem State.setShared_engines (s : State) (f i : Nat) (v : W32) : (s.setShared f i v).engines = s.engines := rfl
@[simp] theorem State.setShared_km (s : State) (f i : Nat) (v : W32) : (s.setShared f i v).km = s.km := rfl
@[simp] theorem State.setShared_se (s : State) (f i : Nat) (v : W32) : (s.setShared f i v).se = s.se := rfl
@[simp] theorem State.setShared_tu (s : State) (f i : Nat) (v : W32) : (s.setShared f i v).tu = s.tu := rfl
@[simp] theorem State.setShared_mcStage (s : State) (f i : Nat) (v : W32) : (s.setShared f i v).mcStage = s.mcStage := rfl
@[simp] theorem State.setShared_dm (s : State) (f i : Nat) (v : W32) : (s.setShared f i v).dm = s.dm := rfl
@[simp] theorem State.setShared_dmTurn (s : State) (f i : Nat) (v : W32) : (s.setShared f i v).dmTurn = s.dmTurn := rfl
@[simp] theorem State.setShared_lx (s : State) (f i : Nat) (v : W32) : (s.setShared f i v).lx = s.lx := rfl
@[simp] theorem State.setShared_af (s : State) (f i : Nat) (v : W32) : (s.setShared f i v).af = s.af := rfl
@[simp] theorem State.setShared_lo (s : State) (f i : Nat) (v : W32) : (s.setShared f i v).lo = s.lo := rfl
@[simp] theorem State.setShared_ip (s : State) (f i : Nat) (v : W32) : (s.setShared f i v).ip = s.ip := rfl
@[simp] theorem State.setShared_sd (s : State) (f i : Nat) (v : W32) : (s.setShared f i v).sd = s.sd := rfl
@[simp] theorem State.setShared_dig (s : State) (f i : Nat) (v : W32) : (s.setShared f i v).dig = s.dig := rfl
@[simp] theorem State.setShared_resetLow (s : State) (f i : Nat) (v : W32) : (s.setShared f i v).resetLow = s.resetLow := rfl
@[simp] theorem State.setShared_free (s : State) (f i : Nat) (v : W32) : (s.setShared f i v).free = s.free := rfl

/-! State.takeRequest changes `hp` alone. -/

@[simp] theorem State.takeRequest_pending (s : State) (r : Role) (rid typ : Nat) : (s.takeRequest r rid typ).pending = s.pending := rfl
@[simp] theorem State.takeRequest_mem (s : State) (r : Role) (rid typ : Nat) : (s.takeRequest r rid typ).mem = s.mem := rfl
@[simp] theorem State.takeRequest_regs (s : State) (r : Role) (rid typ : Nat) : (s.takeRequest r rid typ).regs = s.regs := rfl
@[simp] theorem State.takeRequest_cap (s : State) (r : Role) (rid typ : Nat) : (s.takeRequest r rid typ).cap = s.cap := rfl
@[simp] theorem State.takeRequest_sel (s : State) (r : Role) (rid typ : Nat) : (s.takeRequest r rid typ).sel = s.sel := rfl
@[simp] theorem State.takeRequest_sx (s : State) (r : Role) (rid typ : Nat) : (s.takeRequest r rid typ).sx = s.sx := rfl
@[simp] theorem State.takeRequest_image (s : State) (r : Role) (rid typ : Nat) : (s.takeRequest r rid typ).image = s.image := rfl
@[simp] theorem State.takeRequest_load (s : State) (r : Role) (rid typ : Nat) : (s.takeRequest r rid typ).load = s.load := rfl
@[simp] theorem State.takeRequest_fc (s : State) (r : Role) (rid typ : Nat) : (s.takeRequest r rid typ).fc = s.fc := rfl
@[simp] theorem State.takeRequest_pw (s : State) (r : Role) (rid typ : Nat) : (s.takeRequest r rid typ).pw = s.pw := rfl
@[simp] theorem State.takeRequest_ck (s : State) (r : Role) (rid typ : Nat) : (s.takeRequest r rid typ).ck = s.ck := rfl
@[simp] theorem State.takeRequest_dx (s : State) (r : Role) (rid typ : Nat) : (s.takeRequest r rid typ).dx = s.dx := rfl
@[simp] theorem State.takeRequest_engines (s : State) (r : Role) (rid typ : Nat) : (s.takeRequest r rid typ).engines = s.engines := rfl
@[simp] theorem State.takeRequest_km (s : State) (r : Role) (rid typ : Nat) : (s.takeRequest r rid typ).km = s.km := rfl
@[simp] theorem State.takeRequest_se (s : State) (r : Role) (rid typ : Nat) : (s.takeRequest r rid typ).se = s.se := rfl
@[simp] theorem State.takeRequest_tu (s : State) (r : Role) (rid typ : Nat) : (s.takeRequest r rid typ).tu = s.tu := rfl
@[simp] theorem State.takeRequest_mcStage (s : State) (r : Role) (rid typ : Nat) : (s.takeRequest r rid typ).mcStage = s.mcStage := rfl
@[simp] theorem State.takeRequest_dm (s : State) (r : Role) (rid typ : Nat) : (s.takeRequest r rid typ).dm = s.dm := rfl
@[simp] theorem State.takeRequest_dmTurn (s : State) (r : Role) (rid typ : Nat) : (s.takeRequest r rid typ).dmTurn = s.dmTurn := rfl
@[simp] theorem State.takeRequest_lx (s : State) (r : Role) (rid typ : Nat) : (s.takeRequest r rid typ).lx = s.lx := rfl
@[simp] theorem State.takeRequest_af (s : State) (r : Role) (rid typ : Nat) : (s.takeRequest r rid typ).af = s.af := rfl
@[simp] theorem State.takeRequest_lo (s : State) (r : Role) (rid typ : Nat) : (s.takeRequest r rid typ).lo = s.lo := rfl
@[simp] theorem State.takeRequest_ip (s : State) (r : Role) (rid typ : Nat) : (s.takeRequest r rid typ).ip = s.ip := rfl
@[simp] theorem State.takeRequest_sd (s : State) (r : Role) (rid typ : Nat) : (s.takeRequest r rid typ).sd = s.sd := rfl
@[simp] theorem State.takeRequest_dig (s : State) (r : Role) (rid typ : Nat) : (s.takeRequest r rid typ).dig = s.dig := rfl
@[simp] theorem State.takeRequest_resetLow (s : State) (r : Role) (rid typ : Nat) : (s.takeRequest r rid typ).resetLow = s.resetLow := rfl
@[simp] theorem State.takeRequest_free (s : State) (r : Role) (rid typ : Nat) : (s.takeRequest r rid typ).free = s.free := rfl

/-! State.setPage changes `tu` alone. -/

@[simp] theorem State.setPage_pending (s : State) (f page : Nat) (p : Page) : (s.setPage f page p).pending = s.pending := rfl
@[simp] theorem State.setPage_mem (s : State) (f page : Nat) (p : Page) : (s.setPage f page p).mem = s.mem := rfl
@[simp] theorem State.setPage_regs (s : State) (f page : Nat) (p : Page) : (s.setPage f page p).regs = s.regs := rfl
@[simp] theorem State.setPage_cap (s : State) (f page : Nat) (p : Page) : (s.setPage f page p).cap = s.cap := rfl
@[simp] theorem State.setPage_sel (s : State) (f page : Nat) (p : Page) : (s.setPage f page p).sel = s.sel := rfl
@[simp] theorem State.setPage_hp (s : State) (f page : Nat) (p : Page) : (s.setPage f page p).hp = s.hp := rfl
@[simp] theorem State.setPage_sx (s : State) (f page : Nat) (p : Page) : (s.setPage f page p).sx = s.sx := rfl
@[simp] theorem State.setPage_image (s : State) (f page : Nat) (p : Page) : (s.setPage f page p).image = s.image := rfl
@[simp] theorem State.setPage_load (s : State) (f page : Nat) (p : Page) : (s.setPage f page p).load = s.load := rfl
@[simp] theorem State.setPage_fc (s : State) (f page : Nat) (p : Page) : (s.setPage f page p).fc = s.fc := rfl
@[simp] theorem State.setPage_pw (s : State) (f page : Nat) (p : Page) : (s.setPage f page p).pw = s.pw := rfl
@[simp] theorem State.setPage_ck (s : State) (f page : Nat) (p : Page) : (s.setPage f page p).ck = s.ck := rfl
@[simp] theorem State.setPage_dx (s : State) (f page : Nat) (p : Page) : (s.setPage f page p).dx = s.dx := rfl
@[simp] theorem State.setPage_engines (s : State) (f page : Nat) (p : Page) : (s.setPage f page p).engines = s.engines := rfl
@[simp] theorem State.setPage_km (s : State) (f page : Nat) (p : Page) : (s.setPage f page p).km = s.km := rfl
@[simp] theorem State.setPage_se (s : State) (f page : Nat) (p : Page) : (s.setPage f page p).se = s.se := rfl
@[simp] theorem State.setPage_mcStage (s : State) (f page : Nat) (p : Page) : (s.setPage f page p).mcStage = s.mcStage := rfl
@[simp] theorem State.setPage_dm (s : State) (f page : Nat) (p : Page) : (s.setPage f page p).dm = s.dm := rfl
@[simp] theorem State.setPage_dmTurn (s : State) (f page : Nat) (p : Page) : (s.setPage f page p).dmTurn = s.dmTurn := rfl
@[simp] theorem State.setPage_lx (s : State) (f page : Nat) (p : Page) : (s.setPage f page p).lx = s.lx := rfl
@[simp] theorem State.setPage_af (s : State) (f page : Nat) (p : Page) : (s.setPage f page p).af = s.af := rfl
@[simp] theorem State.setPage_lo (s : State) (f page : Nat) (p : Page) : (s.setPage f page p).lo = s.lo := rfl
@[simp] theorem State.setPage_ip (s : State) (f page : Nat) (p : Page) : (s.setPage f page p).ip = s.ip := rfl
@[simp] theorem State.setPage_sd (s : State) (f page : Nat) (p : Page) : (s.setPage f page p).sd = s.sd := rfl
@[simp] theorem State.setPage_dig (s : State) (f page : Nat) (p : Page) : (s.setPage f page p).dig = s.dig := rfl
@[simp] theorem State.setPage_resetLow (s : State) (f page : Nat) (p : Page) : (s.setPage f page p).resetLow = s.resetLow := rfl
@[simp] theorem State.setPage_free (s : State) (f page : Nat) (p : Page) : (s.setPage f page p).free = s.free := rfl

/-! State.setDesc changes `km` alone. -/

@[simp] theorem State.setDesc_pending (s : State) (fr : Nat) (d : FrameDesc) : (s.setDesc fr d).pending = s.pending := rfl
@[simp] theorem State.setDesc_mem (s : State) (fr : Nat) (d : FrameDesc) : (s.setDesc fr d).mem = s.mem := rfl
@[simp] theorem State.setDesc_regs (s : State) (fr : Nat) (d : FrameDesc) : (s.setDesc fr d).regs = s.regs := rfl
@[simp] theorem State.setDesc_cap (s : State) (fr : Nat) (d : FrameDesc) : (s.setDesc fr d).cap = s.cap := rfl
@[simp] theorem State.setDesc_sel (s : State) (fr : Nat) (d : FrameDesc) : (s.setDesc fr d).sel = s.sel := rfl
@[simp] theorem State.setDesc_hp (s : State) (fr : Nat) (d : FrameDesc) : (s.setDesc fr d).hp = s.hp := rfl
@[simp] theorem State.setDesc_sx (s : State) (fr : Nat) (d : FrameDesc) : (s.setDesc fr d).sx = s.sx := rfl
@[simp] theorem State.setDesc_image (s : State) (fr : Nat) (d : FrameDesc) : (s.setDesc fr d).image = s.image := rfl
@[simp] theorem State.setDesc_load (s : State) (fr : Nat) (d : FrameDesc) : (s.setDesc fr d).load = s.load := rfl
@[simp] theorem State.setDesc_fc (s : State) (fr : Nat) (d : FrameDesc) : (s.setDesc fr d).fc = s.fc := rfl
@[simp] theorem State.setDesc_pw (s : State) (fr : Nat) (d : FrameDesc) : (s.setDesc fr d).pw = s.pw := rfl
@[simp] theorem State.setDesc_ck (s : State) (fr : Nat) (d : FrameDesc) : (s.setDesc fr d).ck = s.ck := rfl
@[simp] theorem State.setDesc_dx (s : State) (fr : Nat) (d : FrameDesc) : (s.setDesc fr d).dx = s.dx := rfl
@[simp] theorem State.setDesc_engines (s : State) (fr : Nat) (d : FrameDesc) : (s.setDesc fr d).engines = s.engines := rfl
@[simp] theorem State.setDesc_se (s : State) (fr : Nat) (d : FrameDesc) : (s.setDesc fr d).se = s.se := rfl
@[simp] theorem State.setDesc_tu (s : State) (fr : Nat) (d : FrameDesc) : (s.setDesc fr d).tu = s.tu := rfl
@[simp] theorem State.setDesc_mcStage (s : State) (fr : Nat) (d : FrameDesc) : (s.setDesc fr d).mcStage = s.mcStage := rfl
@[simp] theorem State.setDesc_dm (s : State) (fr : Nat) (d : FrameDesc) : (s.setDesc fr d).dm = s.dm := rfl
@[simp] theorem State.setDesc_dmTurn (s : State) (fr : Nat) (d : FrameDesc) : (s.setDesc fr d).dmTurn = s.dmTurn := rfl
@[simp] theorem State.setDesc_lx (s : State) (fr : Nat) (d : FrameDesc) : (s.setDesc fr d).lx = s.lx := rfl
@[simp] theorem State.setDesc_af (s : State) (fr : Nat) (d : FrameDesc) : (s.setDesc fr d).af = s.af := rfl
@[simp] theorem State.setDesc_lo (s : State) (fr : Nat) (d : FrameDesc) : (s.setDesc fr d).lo = s.lo := rfl
@[simp] theorem State.setDesc_ip (s : State) (fr : Nat) (d : FrameDesc) : (s.setDesc fr d).ip = s.ip := rfl
@[simp] theorem State.setDesc_sd (s : State) (fr : Nat) (d : FrameDesc) : (s.setDesc fr d).sd = s.sd := rfl
@[simp] theorem State.setDesc_dig (s : State) (fr : Nat) (d : FrameDesc) : (s.setDesc fr d).dig = s.dig := rfl
@[simp] theorem State.setDesc_resetLow (s : State) (fr : Nat) (d : FrameDesc) : (s.setDesc fr d).resetLow = s.resetLow := rfl
@[simp] theorem State.setDesc_free (s : State) (fr : Nat) (d : FrameDesc) : (s.setDesc fr d).free = s.free := rfl

/-! State.updKv changes `km` alone. -/

@[simp] theorem State.updKv_pending (s : State) (c : Nat) (g : KvRec → KvRec) : (s.updKv c g).pending = s.pending := rfl
@[simp] theorem State.updKv_mem (s : State) (c : Nat) (g : KvRec → KvRec) : (s.updKv c g).mem = s.mem := rfl
@[simp] theorem State.updKv_regs (s : State) (c : Nat) (g : KvRec → KvRec) : (s.updKv c g).regs = s.regs := rfl
@[simp] theorem State.updKv_cap (s : State) (c : Nat) (g : KvRec → KvRec) : (s.updKv c g).cap = s.cap := rfl
@[simp] theorem State.updKv_sel (s : State) (c : Nat) (g : KvRec → KvRec) : (s.updKv c g).sel = s.sel := rfl
@[simp] theorem State.updKv_hp (s : State) (c : Nat) (g : KvRec → KvRec) : (s.updKv c g).hp = s.hp := rfl
@[simp] theorem State.updKv_sx (s : State) (c : Nat) (g : KvRec → KvRec) : (s.updKv c g).sx = s.sx := rfl
@[simp] theorem State.updKv_image (s : State) (c : Nat) (g : KvRec → KvRec) : (s.updKv c g).image = s.image := rfl
@[simp] theorem State.updKv_load (s : State) (c : Nat) (g : KvRec → KvRec) : (s.updKv c g).load = s.load := rfl
@[simp] theorem State.updKv_fc (s : State) (c : Nat) (g : KvRec → KvRec) : (s.updKv c g).fc = s.fc := rfl
@[simp] theorem State.updKv_pw (s : State) (c : Nat) (g : KvRec → KvRec) : (s.updKv c g).pw = s.pw := rfl
@[simp] theorem State.updKv_ck (s : State) (c : Nat) (g : KvRec → KvRec) : (s.updKv c g).ck = s.ck := rfl
@[simp] theorem State.updKv_dx (s : State) (c : Nat) (g : KvRec → KvRec) : (s.updKv c g).dx = s.dx := rfl
@[simp] theorem State.updKv_engines (s : State) (c : Nat) (g : KvRec → KvRec) : (s.updKv c g).engines = s.engines := rfl
@[simp] theorem State.updKv_se (s : State) (c : Nat) (g : KvRec → KvRec) : (s.updKv c g).se = s.se := rfl
@[simp] theorem State.updKv_tu (s : State) (c : Nat) (g : KvRec → KvRec) : (s.updKv c g).tu = s.tu := rfl
@[simp] theorem State.updKv_mcStage (s : State) (c : Nat) (g : KvRec → KvRec) : (s.updKv c g).mcStage = s.mcStage := rfl
@[simp] theorem State.updKv_dm (s : State) (c : Nat) (g : KvRec → KvRec) : (s.updKv c g).dm = s.dm := rfl
@[simp] theorem State.updKv_dmTurn (s : State) (c : Nat) (g : KvRec → KvRec) : (s.updKv c g).dmTurn = s.dmTurn := rfl
@[simp] theorem State.updKv_lx (s : State) (c : Nat) (g : KvRec → KvRec) : (s.updKv c g).lx = s.lx := rfl
@[simp] theorem State.updKv_af (s : State) (c : Nat) (g : KvRec → KvRec) : (s.updKv c g).af = s.af := rfl
@[simp] theorem State.updKv_lo (s : State) (c : Nat) (g : KvRec → KvRec) : (s.updKv c g).lo = s.lo := rfl
@[simp] theorem State.updKv_ip (s : State) (c : Nat) (g : KvRec → KvRec) : (s.updKv c g).ip = s.ip := rfl
@[simp] theorem State.updKv_sd (s : State) (c : Nat) (g : KvRec → KvRec) : (s.updKv c g).sd = s.sd := rfl
@[simp] theorem State.updKv_dig (s : State) (c : Nat) (g : KvRec → KvRec) : (s.updKv c g).dig = s.dig := rfl
@[simp] theorem State.updKv_resetLow (s : State) (c : Nat) (g : KvRec → KvRec) : (s.updKv c g).resetLow = s.resetLow := rfl
@[simp] theorem State.updKv_free (s : State) (c : Nat) (g : KvRec → KvRec) : (s.updKv c g).free = s.free := rfl

/-! State.updStream changes `se` alone. -/

@[simp] theorem State.updStream_pending (s : State) (c : Nat) (g : StreamRec → StreamRec) : (s.updStream c g).pending = s.pending := rfl
@[simp] theorem State.updStream_mem (s : State) (c : Nat) (g : StreamRec → StreamRec) : (s.updStream c g).mem = s.mem := rfl
@[simp] theorem State.updStream_regs (s : State) (c : Nat) (g : StreamRec → StreamRec) : (s.updStream c g).regs = s.regs := rfl
@[simp] theorem State.updStream_cap (s : State) (c : Nat) (g : StreamRec → StreamRec) : (s.updStream c g).cap = s.cap := rfl
@[simp] theorem State.updStream_sel (s : State) (c : Nat) (g : StreamRec → StreamRec) : (s.updStream c g).sel = s.sel := rfl
@[simp] theorem State.updStream_hp (s : State) (c : Nat) (g : StreamRec → StreamRec) : (s.updStream c g).hp = s.hp := rfl
@[simp] theorem State.updStream_sx (s : State) (c : Nat) (g : StreamRec → StreamRec) : (s.updStream c g).sx = s.sx := rfl
@[simp] theorem State.updStream_image (s : State) (c : Nat) (g : StreamRec → StreamRec) : (s.updStream c g).image = s.image := rfl
@[simp] theorem State.updStream_load (s : State) (c : Nat) (g : StreamRec → StreamRec) : (s.updStream c g).load = s.load := rfl
@[simp] theorem State.updStream_fc (s : State) (c : Nat) (g : StreamRec → StreamRec) : (s.updStream c g).fc = s.fc := rfl
@[simp] theorem State.updStream_pw (s : State) (c : Nat) (g : StreamRec → StreamRec) : (s.updStream c g).pw = s.pw := rfl
@[simp] theorem State.updStream_ck (s : State) (c : Nat) (g : StreamRec → StreamRec) : (s.updStream c g).ck = s.ck := rfl
@[simp] theorem State.updStream_dx (s : State) (c : Nat) (g : StreamRec → StreamRec) : (s.updStream c g).dx = s.dx := rfl
@[simp] theorem State.updStream_engines (s : State) (c : Nat) (g : StreamRec → StreamRec) : (s.updStream c g).engines = s.engines := rfl
@[simp] theorem State.updStream_km (s : State) (c : Nat) (g : StreamRec → StreamRec) : (s.updStream c g).km = s.km := rfl
@[simp] theorem State.updStream_tu (s : State) (c : Nat) (g : StreamRec → StreamRec) : (s.updStream c g).tu = s.tu := rfl
@[simp] theorem State.updStream_mcStage (s : State) (c : Nat) (g : StreamRec → StreamRec) : (s.updStream c g).mcStage = s.mcStage := rfl
@[simp] theorem State.updStream_dm (s : State) (c : Nat) (g : StreamRec → StreamRec) : (s.updStream c g).dm = s.dm := rfl
@[simp] theorem State.updStream_dmTurn (s : State) (c : Nat) (g : StreamRec → StreamRec) : (s.updStream c g).dmTurn = s.dmTurn := rfl
@[simp] theorem State.updStream_lx (s : State) (c : Nat) (g : StreamRec → StreamRec) : (s.updStream c g).lx = s.lx := rfl
@[simp] theorem State.updStream_af (s : State) (c : Nat) (g : StreamRec → StreamRec) : (s.updStream c g).af = s.af := rfl
@[simp] theorem State.updStream_lo (s : State) (c : Nat) (g : StreamRec → StreamRec) : (s.updStream c g).lo = s.lo := rfl
@[simp] theorem State.updStream_ip (s : State) (c : Nat) (g : StreamRec → StreamRec) : (s.updStream c g).ip = s.ip := rfl
@[simp] theorem State.updStream_sd (s : State) (c : Nat) (g : StreamRec → StreamRec) : (s.updStream c g).sd = s.sd := rfl
@[simp] theorem State.updStream_dig (s : State) (c : Nat) (g : StreamRec → StreamRec) : (s.updStream c g).dig = s.dig := rfl
@[simp] theorem State.updStream_resetLow (s : State) (c : Nat) (g : StreamRec → StreamRec) : (s.updStream c g).resetLow = s.resetLow := rfl
@[simp] theorem State.updStream_free (s : State) (c : Nat) (g : StreamRec → StreamRec) : (s.updStream c g).free = s.free := rfl

/-! State.updPort changes `lx` alone. -/

@[simp] theorem State.updPort_pending (s : State) (p : Nat) (f : LxPort → LxPort) : (s.updPort p f).pending = s.pending := rfl
@[simp] theorem State.updPort_mem (s : State) (p : Nat) (f : LxPort → LxPort) : (s.updPort p f).mem = s.mem := rfl
@[simp] theorem State.updPort_regs (s : State) (p : Nat) (f : LxPort → LxPort) : (s.updPort p f).regs = s.regs := rfl
@[simp] theorem State.updPort_cap (s : State) (p : Nat) (f : LxPort → LxPort) : (s.updPort p f).cap = s.cap := rfl
@[simp] theorem State.updPort_sel (s : State) (p : Nat) (f : LxPort → LxPort) : (s.updPort p f).sel = s.sel := rfl
@[simp] theorem State.updPort_hp (s : State) (p : Nat) (f : LxPort → LxPort) : (s.updPort p f).hp = s.hp := rfl
@[simp] theorem State.updPort_sx (s : State) (p : Nat) (f : LxPort → LxPort) : (s.updPort p f).sx = s.sx := rfl
@[simp] theorem State.updPort_image (s : State) (p : Nat) (f : LxPort → LxPort) : (s.updPort p f).image = s.image := rfl
@[simp] theorem State.updPort_load (s : State) (p : Nat) (f : LxPort → LxPort) : (s.updPort p f).load = s.load := rfl
@[simp] theorem State.updPort_fc (s : State) (p : Nat) (f : LxPort → LxPort) : (s.updPort p f).fc = s.fc := rfl
@[simp] theorem State.updPort_pw (s : State) (p : Nat) (f : LxPort → LxPort) : (s.updPort p f).pw = s.pw := rfl
@[simp] theorem State.updPort_ck (s : State) (p : Nat) (f : LxPort → LxPort) : (s.updPort p f).ck = s.ck := rfl
@[simp] theorem State.updPort_dx (s : State) (p : Nat) (f : LxPort → LxPort) : (s.updPort p f).dx = s.dx := rfl
@[simp] theorem State.updPort_engines (s : State) (p : Nat) (f : LxPort → LxPort) : (s.updPort p f).engines = s.engines := rfl
@[simp] theorem State.updPort_km (s : State) (p : Nat) (f : LxPort → LxPort) : (s.updPort p f).km = s.km := rfl
@[simp] theorem State.updPort_se (s : State) (p : Nat) (f : LxPort → LxPort) : (s.updPort p f).se = s.se := rfl
@[simp] theorem State.updPort_tu (s : State) (p : Nat) (f : LxPort → LxPort) : (s.updPort p f).tu = s.tu := rfl
@[simp] theorem State.updPort_mcStage (s : State) (p : Nat) (f : LxPort → LxPort) : (s.updPort p f).mcStage = s.mcStage := rfl
@[simp] theorem State.updPort_dm (s : State) (p : Nat) (f : LxPort → LxPort) : (s.updPort p f).dm = s.dm := rfl
@[simp] theorem State.updPort_dmTurn (s : State) (p : Nat) (f : LxPort → LxPort) : (s.updPort p f).dmTurn = s.dmTurn := rfl
@[simp] theorem State.updPort_af (s : State) (p : Nat) (f : LxPort → LxPort) : (s.updPort p f).af = s.af := rfl
@[simp] theorem State.updPort_lo (s : State) (p : Nat) (f : LxPort → LxPort) : (s.updPort p f).lo = s.lo := rfl
@[simp] theorem State.updPort_ip (s : State) (p : Nat) (f : LxPort → LxPort) : (s.updPort p f).ip = s.ip := rfl
@[simp] theorem State.updPort_sd (s : State) (p : Nat) (f : LxPort → LxPort) : (s.updPort p f).sd = s.sd := rfl
@[simp] theorem State.updPort_dig (s : State) (p : Nat) (f : LxPort → LxPort) : (s.updPort p f).dig = s.dig := rfl
@[simp] theorem State.updPort_resetLow (s : State) (p : Nat) (f : LxPort → LxPort) : (s.updPort p f).resetLow = s.resetLow := rfl
@[simp] theorem State.updPort_free (s : State) (p : Nat) (f : LxPort → LxPort) : (s.updPort p f).free = s.free := rfl

/-! State.updCamera changes `ip` alone. -/

@[simp] theorem State.updCamera_pending (s : State) (p : Nat) (f : IpPort → IpPort) : (s.updCamera p f).pending = s.pending := rfl
@[simp] theorem State.updCamera_mem (s : State) (p : Nat) (f : IpPort → IpPort) : (s.updCamera p f).mem = s.mem := rfl
@[simp] theorem State.updCamera_regs (s : State) (p : Nat) (f : IpPort → IpPort) : (s.updCamera p f).regs = s.regs := rfl
@[simp] theorem State.updCamera_cap (s : State) (p : Nat) (f : IpPort → IpPort) : (s.updCamera p f).cap = s.cap := rfl
@[simp] theorem State.updCamera_sel (s : State) (p : Nat) (f : IpPort → IpPort) : (s.updCamera p f).sel = s.sel := rfl
@[simp] theorem State.updCamera_hp (s : State) (p : Nat) (f : IpPort → IpPort) : (s.updCamera p f).hp = s.hp := rfl
@[simp] theorem State.updCamera_sx (s : State) (p : Nat) (f : IpPort → IpPort) : (s.updCamera p f).sx = s.sx := rfl
@[simp] theorem State.updCamera_image (s : State) (p : Nat) (f : IpPort → IpPort) : (s.updCamera p f).image = s.image := rfl
@[simp] theorem State.updCamera_load (s : State) (p : Nat) (f : IpPort → IpPort) : (s.updCamera p f).load = s.load := rfl
@[simp] theorem State.updCamera_fc (s : State) (p : Nat) (f : IpPort → IpPort) : (s.updCamera p f).fc = s.fc := rfl
@[simp] theorem State.updCamera_pw (s : State) (p : Nat) (f : IpPort → IpPort) : (s.updCamera p f).pw = s.pw := rfl
@[simp] theorem State.updCamera_ck (s : State) (p : Nat) (f : IpPort → IpPort) : (s.updCamera p f).ck = s.ck := rfl
@[simp] theorem State.updCamera_dx (s : State) (p : Nat) (f : IpPort → IpPort) : (s.updCamera p f).dx = s.dx := rfl
@[simp] theorem State.updCamera_engines (s : State) (p : Nat) (f : IpPort → IpPort) : (s.updCamera p f).engines = s.engines := rfl
@[simp] theorem State.updCamera_km (s : State) (p : Nat) (f : IpPort → IpPort) : (s.updCamera p f).km = s.km := rfl
@[simp] theorem State.updCamera_se (s : State) (p : Nat) (f : IpPort → IpPort) : (s.updCamera p f).se = s.se := rfl
@[simp] theorem State.updCamera_tu (s : State) (p : Nat) (f : IpPort → IpPort) : (s.updCamera p f).tu = s.tu := rfl
@[simp] theorem State.updCamera_mcStage (s : State) (p : Nat) (f : IpPort → IpPort) : (s.updCamera p f).mcStage = s.mcStage := rfl
@[simp] theorem State.updCamera_dm (s : State) (p : Nat) (f : IpPort → IpPort) : (s.updCamera p f).dm = s.dm := rfl
@[simp] theorem State.updCamera_dmTurn (s : State) (p : Nat) (f : IpPort → IpPort) : (s.updCamera p f).dmTurn = s.dmTurn := rfl
@[simp] theorem State.updCamera_lx (s : State) (p : Nat) (f : IpPort → IpPort) : (s.updCamera p f).lx = s.lx := rfl
@[simp] theorem State.updCamera_af (s : State) (p : Nat) (f : IpPort → IpPort) : (s.updCamera p f).af = s.af := rfl
@[simp] theorem State.updCamera_lo (s : State) (p : Nat) (f : IpPort → IpPort) : (s.updCamera p f).lo = s.lo := rfl
@[simp] theorem State.updCamera_sd (s : State) (p : Nat) (f : IpPort → IpPort) : (s.updCamera p f).sd = s.sd := rfl
@[simp] theorem State.updCamera_dig (s : State) (p : Nat) (f : IpPort → IpPort) : (s.updCamera p f).dig = s.dig := rfl
@[simp] theorem State.updCamera_resetLow (s : State) (p : Nat) (f : IpPort → IpPort) : (s.updCamera p f).resetLow = s.resetLow := rfl
@[simp] theorem State.updCamera_free (s : State) (p : Nat) (f : IpPort → IpPort) : (s.updCamera p f).free = s.free := rfl

/-! State.setDm changes `dm` alone. -/

@[simp] theorem State.setDm_pending (s : State) (ch : Nat) (c : DmChan) : (s.setDm ch c).pending = s.pending := rfl
@[simp] theorem State.setDm_mem (s : State) (ch : Nat) (c : DmChan) : (s.setDm ch c).mem = s.mem := rfl
@[simp] theorem State.setDm_regs (s : State) (ch : Nat) (c : DmChan) : (s.setDm ch c).regs = s.regs := rfl
@[simp] theorem State.setDm_cap (s : State) (ch : Nat) (c : DmChan) : (s.setDm ch c).cap = s.cap := rfl
@[simp] theorem State.setDm_sel (s : State) (ch : Nat) (c : DmChan) : (s.setDm ch c).sel = s.sel := rfl
@[simp] theorem State.setDm_hp (s : State) (ch : Nat) (c : DmChan) : (s.setDm ch c).hp = s.hp := rfl
@[simp] theorem State.setDm_sx (s : State) (ch : Nat) (c : DmChan) : (s.setDm ch c).sx = s.sx := rfl
@[simp] theorem State.setDm_image (s : State) (ch : Nat) (c : DmChan) : (s.setDm ch c).image = s.image := rfl
@[simp] theorem State.setDm_load (s : State) (ch : Nat) (c : DmChan) : (s.setDm ch c).load = s.load := rfl
@[simp] theorem State.setDm_fc (s : State) (ch : Nat) (c : DmChan) : (s.setDm ch c).fc = s.fc := rfl
@[simp] theorem State.setDm_pw (s : State) (ch : Nat) (c : DmChan) : (s.setDm ch c).pw = s.pw := rfl
@[simp] theorem State.setDm_ck (s : State) (ch : Nat) (c : DmChan) : (s.setDm ch c).ck = s.ck := rfl
@[simp] theorem State.setDm_dx (s : State) (ch : Nat) (c : DmChan) : (s.setDm ch c).dx = s.dx := rfl
@[simp] theorem State.setDm_engines (s : State) (ch : Nat) (c : DmChan) : (s.setDm ch c).engines = s.engines := rfl
@[simp] theorem State.setDm_km (s : State) (ch : Nat) (c : DmChan) : (s.setDm ch c).km = s.km := rfl
@[simp] theorem State.setDm_se (s : State) (ch : Nat) (c : DmChan) : (s.setDm ch c).se = s.se := rfl
@[simp] theorem State.setDm_tu (s : State) (ch : Nat) (c : DmChan) : (s.setDm ch c).tu = s.tu := rfl
@[simp] theorem State.setDm_mcStage (s : State) (ch : Nat) (c : DmChan) : (s.setDm ch c).mcStage = s.mcStage := rfl
@[simp] theorem State.setDm_dmTurn (s : State) (ch : Nat) (c : DmChan) : (s.setDm ch c).dmTurn = s.dmTurn := rfl
@[simp] theorem State.setDm_lx (s : State) (ch : Nat) (c : DmChan) : (s.setDm ch c).lx = s.lx := rfl
@[simp] theorem State.setDm_af (s : State) (ch : Nat) (c : DmChan) : (s.setDm ch c).af = s.af := rfl
@[simp] theorem State.setDm_lo (s : State) (ch : Nat) (c : DmChan) : (s.setDm ch c).lo = s.lo := rfl
@[simp] theorem State.setDm_ip (s : State) (ch : Nat) (c : DmChan) : (s.setDm ch c).ip = s.ip := rfl
@[simp] theorem State.setDm_sd (s : State) (ch : Nat) (c : DmChan) : (s.setDm ch c).sd = s.sd := rfl
@[simp] theorem State.setDm_dig (s : State) (ch : Nat) (c : DmChan) : (s.setDm ch c).dig = s.dig := rfl
@[simp] theorem State.setDm_resetLow (s : State) (ch : Nat) (c : DmChan) : (s.setDm ch c).resetLow = s.resetLow := rfl
@[simp] theorem State.setDm_free (s : State) (ch : Nat) (c : DmChan) : (s.setDm ch c).free = s.free := rfl

end Sys2Proof.Machine
end

