-- ==== Sys2Proof/Laws/Messages.lean ====
section
/-!
SUPPORT. What a performed request does (Machine/Message.lean), and what a reply puts into the outbound queue.
-/
namespace Sys2Proof.Machine

/-- A request that may be handed over finds HP out of reset. -/
theorem State.Performs.up {s : State} {r : Role} {typ n : Nat} (h : s.Performs r typ n) : s.inReset 40 = false := by
  have := h.take
  simp only [State.canTake, Bool.and_eq_true, Bool.not_eq_true'] at this
  exact this.1.2

/-- A performed request: its effect on the state without it, then its reply. -/
theorem State.message_performed {s : State} {r : Role} {typ n : Nat} (h : s.Performs r typ n) (rid : Nat)
    (f : State → State × Nat × List Byte) :
    s.message r rid typ n f = (f (s.takeRequest r rid typ)).1.reply r typ rid (f (s.takeRequest r rid typ)).2.1
      (f (s.takeRequest r rid typ)).2.2 := by
  unfold State.message
  rw [if_pos h.take]
  have hg : (s.takeRequest r rid typ).msgGate r typ = none := h.gate
  dsimp only
  rw [hg]

/-- A performed request that replies in its own time. -/
theorem State.messageLater_performed {s : State} {r : Role} {typ n : Nat} (h : s.Performs r typ n) (rid : Nat)
    (f : State → State) : s.messageLater r rid typ n f = f (s.takeRequest r rid typ) := by
  unfold State.messageLater
  rw [if_pos h.take]
  have hg : (s.takeRequest r rid typ).msgGate r typ = none := h.gate
  dsimp only
  rw [hg]

/-- A reply that HP neither discards nor loses is queued. -/
theorem State.reply_queued (s : State) (r : Role) (typ rid status : Nat) (results : List Byte)
    (hd : s.hp.discard.contains (r, typ, rid) = false) (h : s.inReset 40 = false) :
    s.reply r typ rid status results = s.queueFrame r (typ + 0x8000) rid ([BitVec.ofNat 8 status, 0, 0, 0] ++ results) := by
  unfold State.reply
  rw [hd, h]
  rfl

/-- An open-role frame joins the outbound queue with counter 0 and no key. -/
theorem State.queueFrame_anon (s : State) (typ rid : Nat) (p : List Byte) :
    s.queueFrame .anon typ rid p = { s with hp := { s.hp with outq := s.hp.outq ++ [⟨.anon, typ, rid, 0, none, p⟩] } } := rfl

/-- A session's frame joins the outbound queue under its key and counter, and the counter rises by one. -/
theorem State.queueFrame_session (s : State) (r : Role) (typ rid : Nat) (p k : List Byte) (hr : r ≠ .anon)
    (hk : s.sessionKey r = some k) :
    s.queueFrame r typ rid p = { s with
      hp := { s.hp with outq := s.hp.outq ++ [⟨r, typ, rid, Map.get s.sx.outCtr r.code 0, some k, p⟩] }
      sx := { s.sx with outCtr := Map.put s.sx.outCtr r.code (Map.get s.sx.outCtr r.code 0 + 1) } } := by
  unfold State.queueFrame
  cases r
  · simp [hk]
  · simp [hk]
  · exact absurd rfl hr

/-- A reply changes the host port and the session counters alone. -/
theorem State.reply_mem (s : State) (r : Role) (typ rid status : Nat) (results : List Byte) :
    (s.reply r typ rid status results).mem = s.mem := by
  unfold State.reply State.queueFrame
  split
  · rfl
  · split
    · rfl
    · split
      · rfl
      · split <;> rfl

theorem State.reply_regs (s : State) (r : Role) (typ rid status : Nat) (results : List Byte) :
    (s.reply r typ rid status results).regs = s.regs := by
  unfold State.reply State.queueFrame
  split
  · rfl
  · split
    · rfl
    · split
      · rfl
      · split <;> rfl

theorem State.reply_byte (s : State) (r : Role) (typ rid status : Nat) (results : List Byte) (a : Nat) :
    (s.reply r typ rid status results).byte a = s.byte a := by
  unfold State.byte
  rw [State.reply_mem]

theorem State.reply_reg (s : State) (r : Role) (typ rid status : Nat) (results : List Byte) (a : Nat) :
    (s.reply r typ rid status results).reg a = s.reg a := by
  unfold State.reg
  rw [State.reply_regs]

/-- A parity check changes at most registers and the collector's waiting pulses. -/
theorem State.check_eq (s : State) (inject err k bit : Nat) (step : Option (Nat × W32)) :
    ∃ R P, s.check inject err k bit step = { s with regs := R, fc := { s.fc with pulses := P } } := by
  unfold State.check
  split
  · exact ⟨_, _, rfl⟩
  · exact ⟨s.regs, s.fc.pulses, rfl⟩

/-- A KV operation that R268 does not refuse: its own part decides. -/
theorem State.kvOp_performed {s : State} {r : Role} {c f : Nat} {free publish : Bool} {mode : Option Bool}
    (h : s.KvPerforms r c f free publish mode) (rid : Nat) (g : State → Nat → KvEnd) :
    s.kvOp r rid [c] free publish mode g =
      match g ((s.takeRequest r rid Msg.kv).kmCheck 2) f with
      | .wait w => w s
      | .copy s res => { s with km := { s.km with copier := s.km.copier ++ [.host r rid f res] } }
      | .answer s k res => s.reply r Msg.kv rid k res := by
  have hf : ([c].head?).bind s.ctxField = some f := h.field
  have h1 : ¬ (s.hostWaits = true ∨ s.mcStage.isSome = true ∨
      (s.image.isSome = true ∧ (some f).any (fun g => !s.hostSlot r g) = true)) := by
    rw [h.copier, h.started]
    rintro (h0 | h0 | ⟨-, h2⟩)
    · cases h0
    · cases h0
    · simp [h.slot] at h2
  unfold State.kvOp
  dsimp only
  rw [hf, if_neg h1, State.messageLater_performed h.performs]
  dsimp only
  have h3 : (!publish && [c].any fun c => s.kvBusy c free) = false := by
    rcases h.idle with h0 | h0 <;> simp [h0]
  have h4 : (mode.any fun m => m != s.kmService) = false := by
    rcases h.mode with h0 | h0 <;> simp [h0]
  rw [if_neg (by simp [h.field, h.may]), if_neg (by simp only [h3]; simp), if_neg (by simp only [h4]; simp)]
  first | done | rfl

end Sys2Proof.Machine
end

