-- ==== Sys2Proof/Laws/Registers.lean ====
section
/-!
SUPPORT. Register messages: a REG_WRITE of one word, and where an owner's word goes.
-/
namespace Sys2Proof.Machine

/-- A performed REG_WRITE of one word in the control space. -/
theorem State.regWriteMsg_one {s : State} {r : Role} {rid a : Nat} {v : W32} (h : s.Performs r Msg.regWrite 0)
    (h1 : a < 2 ^ 32) (h2 : controlAddr a = true) :
    s.regWriteMsg r rid a [v] =
      .next (((s.takeRequest r rid Msg.regWrite).writeWord r a v).reply r Msg.regWrite rid Code.ok []) := by
  unfold State.regWriteMsg
  rw [State.message_performed h]
  have h3 : controlSpan a 1 = true := by simp [controlSpan, List.range, List.range.loop, h2]
  unfold State.regWriteOp
  rw [if_neg (by simp; omega), if_neg (by simp [h3])]
  rfl

/-- An owner's word to an aligned address that a register holds, its block out of reset. -/
theorem State.writeWord_owner {s : State} {a : Nat} {v : W32} {d : RegDesc} {c b : Nat} {hi : Bool} (h0 : a % 4 = 0)
    (h1 : 0x10000 ≤ a) (h : regAt a = some (d, c, b, hi)) (hr : s.inReset b = false) :
    s.writeWord .owner a v = s.ownerWrite d c b (a % 0x10000 - (if hi then 4 else 0)) hi v := by
  unfold State.writeWord
  rw [if_neg (by omega), h]
  simp [hr]

end Sys2Proof.Machine
end

