-- ==== Sys2Proof/Machine/Pins.lean ====
section
/-!
DEFINITION. The outputs whose level follows from the state: IRQ_N (R639, R681), the microphone clocks (R450, R531) and
DRAM_EN (R524). What HP drives on DQ is `HpState.dq`.
-/
namespace Sys2Proof.Machine

/-- IRQ_N is low (R639): on Doze and above while the outbound queue holds a frame, and after a failed relock (R681); it is
high while RESET_N is low (R655). -/
def State.irqLow (s : State) : Bool :=
  !s.resetLow && (s.ck.gaveUp || (decide (Rung.height .doze ≤ s.pw.rung.height) && !s.hp.outq.isEmpty))

/-- PDM_CLK_A runs whenever AF runs (R450). -/
def State.pdmClkA (s : State) : Bool := s.afUp

/-- PDM_CLK_B runs while the array runs (R450, R458). -/
def State.pdmClkB (s : State) : Bool := s.afUp && s.af.array.isSome

/-- DRAM_EN is high (R524, R656). -/
def State.dramEnHigh (s : State) : Bool := s.pw.dramEn && !s.resetLow

end Sys2Proof.Machine
end

