-- ==== Sys2Proof/WellFormed.lean ====
section
/-!
DEFINITION. Well-formed commands: each operand lies in the range that its rule gives it (the widths of R645 and R646, the
register windows of R14, the numbers of engines, ports, channels and contexts of R5 and R417). Every meaning is total, so
an ill-formed command has one too.
-/
namespace Sys2Proof

/-- A number of 8 bits. -/
def Wf.u8 (n : Nat) : Bool := decide (n < 256)

/-- A number of 16 bits. -/
def Wf.u16 (n : Nat) : Bool := decide (n < 65536)

/-- A number of 32 bits. -/
def Wf.u32 (n : Nat) : Bool := decide (n < 4294967296)

/-- A number of 64 bits. -/
def Wf.u64 (n : Nat) : Bool := decide (n < 18446744073709551616)

/-- A number up to `m`. -/
def Wf.upTo (m n : Nat) : Bool := decide (n ≤ m)

/-- A number from `l` to `h`. -/
def Wf.count (l h n : Nat) : Bool := decide (l ≤ n) && decide (n ≤ h)

/-- A list of `l` to `h` elements. -/
def Wf.lens {α : Type} (l h : Nat) (x : List α) : Bool := decide (l ≤ x.length) && decide (x.length ≤ h)

/-- A Retus message (R557): each header field in its width. -/
def Wf.msg (m : LinkMsg) : Bool :=
  Wf.u8 m.typ && Wf.upTo 7 m.field && Wf.upTo 1023 m.dst && Wf.upTo 1023 m.src && Wf.u16 m.len && Wf.upTo 4095 m.tag &&
    decide (m.arg < 2 ^ 48) && Wf.lens 0 512 m.payload

open Wf in
/-- The command is well formed. -/
def wellFormed (i : Instr) : Bool :=
  match i with
  | .status _ => true
  | .frameWrite _ len _ => u32 len
  | .frameRead _ most => u32 most
  | .mode _ _ => true
  | .echo _ rid data => u32 rid && lens 0 131072 data
  | .regRead _ rid addr words => u32 rid && u32 addr && count 1 256 words
  | .lowWordRead _ rid addr => u32 rid && u32 addr
  | .highWordRead _ rid addr => u32 rid && u32 addr
  | .regWrite _ rid addr ws => u32 rid && u32 addr && lens 1 256 ws
  | .memRead _ rid off len => u32 rid && u32 off && count 1 65536 len
  | .memWrite _ rid off len data => u32 rid && u32 off && count 1 65536 len && data.length == len
  | .aperture _ rid base => u32 rid && u64 base
  | .hostClaim _ rid rung => u32 rid && u8 rung
  | .hail _ rid => u32 rid
  | .release _ rid hail => u32 rid && u8 hail
  | .imgBegin _ rid len => u32 rid && u64 len
  | .commonsZeroed => true
  | .imgData _ rid off data => u32 rid && u64 off && lens 1 65536 data
  | .imgTimeout => true
  | .quote _ rid nonce => u32 rid && lens 32 32 nonce
  | .quoteDone => true
  | .keyRelease _ rid _ => u32 rid
  | .keyDrop _ rid field id => u32 rid && u8 field && u32 id
  | .weightLoad _ rid _ => u32 rid
  | .ownerSet _ rid slot digest _ => u32 rid && u8 slot && lens 32 32 digest
  | .ownerBurnDone => true
  | .sdLoad _ rid slot off => u32 rid && u8 slot && u32 off
  | .ctxOpen _ rid ctx list entries prime => u32 rid && u16 ctx && u64 list && u32 entries && u8 prime
  | .ctxClose _ rid ctx => u32 rid && u16 ctx
  | .closeComplete ctx => upTo 40959 ctx
  | .jobSubmit _ rid ctx entry => u32 rid && u16 ctx && u32 entry
  | .jobAbort _ rid ctx serial => u32 rid && u16 ctx && u32 serial
  | .ctxResume _ rid ctx _ => u32 rid && u16 ctx
  | .counterRead _ rid scope id index => u32 rid && upTo 1 scope && u16 id && u16 index
  | .counterAdd _ rid scope id index value => u32 rid && upTo 1 scope && u16 id && u16 index && u32 value
  | .counterRaise _ rid scope id index value => u32 rid && upTo 1 scope && u16 id && u16 index && u32 value
  | .kvInit _ rid ctx stage => u32 rid && u16 ctx && u64 stage
  | .kvAdopt _ rid ctx tokaddr ntok tag => u32 rid && u16 ctx && u64 tokaddr && u32 ntok && u32 tag
  | .kvPublish _ rid ctx tokaddr nblocks tag => u32 rid && u16 ctx && u64 tokaddr && u32 nblocks && u32 tag
  | .kvTruncate _ rid ctx t => u32 rid && u16 ctx && u32 t
  | .kvFree _ rid ctx => u32 rid && u16 ctx
  | .kvPrune _ rid field => u32 rid && u8 field
  | .kvFork _ rid src dst t => u32 rid && u16 src && u16 dst && u32 t
  | .kvLoad _ rid ctx k addr => u32 rid && u16 ctx && u32 k && u64 addr
  | .stInit _ rid ctx nslot swap => u32 rid && u16 ctx && u32 nslot && u64 swap
  | .stReset _ rid ctx => u32 rid && u16 ctx
  | .stEvict _ rid ctx => u32 rid && u16 ctx
  | .stFree _ rid ctx => u32 rid && u16 ctx
  | .tuMap _ rid field obj ua pages hint flags back backdev => u32 rid && u8 field && u16 obj && u64 ua && u32 pages && u8 hint && u8 flags && u8 back && u16 backdev
  | .tuUnmap _ rid field obj => u32 rid && u8 field && u16 obj
  | .tuHint _ rid field obj hint => u32 rid && u8 field && u16 obj && u8 hint
  | .tuPlace _ rid field ua pages home => u32 rid && u8 field && u64 ua && u32 pages && u8 home
  | .tuPin _ rid field ua pages => u32 rid && u8 field && u64 ua && u32 pages
  | .tuUnpin _ rid field ua pages => u32 rid && u8 field && u64 ua && u32 pages
  | .tuEvacuate _ rid n => u32 rid && u8 n
  | .tuSow _ rid ctx list entries => u32 rid && u16 ctx && u64 list && u32 entries
  | .dmStart _ rid ch => u32 rid && u8 ch
  | .dmAbort _ rid ch => u32 rid && u8 ch
  | .eventsLost => true
  | .quClear _ rid eng _ _ => u32 rid && upTo 10 eng
  | .quWatchWrite _ rid eng n _ _ => u32 rid && upTo 10 eng && upTo 64 n
  | .meDgrpWrite _ rid eng n _ _ _ => u32 rid && upTo 4 eng && upTo 7 n
  | .kmModeWrite _ rid _ => u32 rid
  | .afBeamCommit _ rid _ => u32 rid
  | .afCfgWrite _ rid _ => u32 rid
  | .mcRetrain _ rid _ => u32 rid
  | .tuNbrWrite _ rid n _ _ => u32 rid && upTo 7 n
  | .tuLendWrite _ rid _ => u32 rid
  | .lxEnWrite _ rid port _ => u32 rid && upTo 3 port
  | .lxIdWrite _ rid _ _ => u32 rid
  | .dmCfgWrite _ rid ch which _ _ => u32 rid && upTo 31 ch && upTo 2 which
  | .dmTimerWrite _ rid ch _ _ => u32 rid && upTo 31 ch
  | .ipGateWrite _ rid _ _ _ => u32 rid
  | .ipPortCtlWrite _ rid port _ => u32 rid && upTo 3 port
  | .fcClear _ rid _ _ => u32 rid
  | .fcForce _ rid _ _ => u32 rid
  | .fcFenceSet _ rid _ => u32 rid
  | .fcFenceReturn _ rid _ => u32 rid
  | .fcBlockReset _ rid target => u32 rid && upTo 63 target
  | .fcFieldReset _ rid field => u32 rid && upTo 7 field
  | .fcSafe _ rid => u32 rid
  | .wpFire _ rid => u32 rid
  | .wpArm _ rid _ => u32 rid
  | .injectArm _ rid block _ => u32 rid && upTo 63 block
  | .nop eng => upTo 10 eng
  | .step eng => upTo 10 eng
  | .commit eng => upTo 10 eng
  | .endd eng => upTo 10 eng
  | .next eng => upTo 10 eng
  | .spawn eng => upTo 10 eng
  | .jump eng => upTo 10 eng
  | .wait eng => upTo 10 eng
  | .waitSatisfied ctx sid => upTo 40959 ctx && u32 sid
  | .signalAdd eng => upTo 10 eng
  | .signalRaise eng => upTo 10 eng
  | .fence eng => upTo 10 eng
  | .fenceComplete ctx sid => upTo 40959 ctx && u32 sid
  | .tapeHail eng => upTo 10 eng
  | .tapeRelease eng => upTo 10 eng
  | .event eng => upTo 10 eng
  | .trigger eng => upTo 10 eng
  | .gate eng => upTo 10 eng
  | .add eng => upTo 10 eng
  | .proj eng => upTo 10 eng
  | .sumq eng => upTo 10 eng
  | .rmsnorm eng => upTo 10 eng
  | .outer eng => upTo 10 eng
  | .update eng => upTo 10 eng
  | .digest eng => upTo 10 eng
  | .digestVerdict group => upTo 7 group
  | .attend eng => upTo 10 eng
  | .append eng => upTo 10 eng
  | .scan eng => upTo 10 eng
  | .hold eng => upTo 10 eng
  | .conv eng => upTo 10 eng
  | .pool eng => upTo 10 eng
  | .econv eng => upTo 10 eng
  | .commandEnd eng _ => upTo 10 eng
  | .strandSuspend eng => upTo 10 eng
  | .placeStrand => true
  | .commitTaken => true
  | .completionTaken => true
  | .abortTaken => true
  | .jobReport ctx => upTo 40959 ctx
  | .jobStart ctx => upTo 40959 ctx
  | .stepReplay ctx => upTo 40959 ctx
  | .quantumExpiry eng => upTo 10 eng
  | .boundOverrun eng => upTo 10 eng
  | .slotStart => true
  | .guardOpen => true
  | .watchdog => true
  | .switchBind => true
  | .switchHoldExpiry => true
  | .derate level => upTo 15 level
  | .haloRowRaise eng row => upTo 10 eng && u16 row
  | .haloPush eng _ row => upTo 10 eng && u16 row
  | .pushAcked eng _ row => upTo 10 eng && u16 row
  | .segmentFilled seg => u8 seg
  | .furrowFillStart => true
  | .walkerBlock eng block => upTo 10 eng && upTo 1023 block
  | .flushCopyDone ctx => upTo 40959 ctx
  | .heldEditApply ctx => upTo 40959 ctx
  | .swapOut => true
  | .swapIn _ => true
  | .migrationStart field page => upTo 7 field && upTo 16777215 page
  | .migrationSwitch field page => upTo 7 field && upTo 16777215 page
  | .leaseReturn _ => true
  | .poisonBlock field ua => upTo 7 field && upTo 1099511627775 ua
  | .refetchDone field ua _ => upTo 7 field && upTo 1099511627775 ua
  | .dmListCheck ch => upTo 31 ch
  | .dmAccessError ch code _ => upTo 31 ch && u8 code
  | .dmRunComplete ch => upTo 31 ch
  | .dmTimerExpiry ch => upTo 31 ch
  | .dramStartupStage fail _ => u16 fail
  | .linkFrame port _ _ hdr crc body => upTo 3 port && upTo 15 hdr && u16 crc && lens 640 640 body
  | .hello port system devid pport rev pm1 qm1 => upTo 3 port && u32 system && upTo 1023 devid && upTo 3 pport && u8 rev && u8 pm1 && u8 qm1
  | .lack port count => upTo 3 port && u32 count
  | .lnak port num => upTo 3 port && u32 num
  | .cred port _ => upTo 3 port
  | .bye port => upTo 3 port
  | .mrd port m => upTo 3 port && msg m
  | .mwr port m => upTo 3 port && msg m
  | .urd port m => upTo 3 port && msg m
  | .evt port m => upTo 3 port && msg m
  | .dig port m => upTo 3 port && msg m
  | .wake port m => upTo 3 port && msg m
  | .rdata port m => upTo 3 port && msg m
  | .wack port m => upTo 3 port && msg m
  | .portDown port => upTo 3 port
  | .prbsDetect port => upTo 3 port
  | .trainingDone port _ => upTo 3 port
  | .linkWaking port => upTo 3 port
  | .wakeLimitExpiry port => upTo 3 port
  | .linkTimeout tag => upTo 4095 tag
  | .wakePattern port => upTo 3 port
  | .afSample pins => lens 4 4 pins
  | .loFrame => true
  | .loSessionFrame => true
  | .serveHail => true
  | .holdExpiry hail => upTo 13 hail
  | .wakeTimer => true
  | .wakeNLow => true
  | .wakeNEdge => true
  | .idleTimerExpiry => true
  | .entryWindow => true
  | .entryAbandon => true
  | .climbStep => true
  | .bankZeroed bank => upTo 127 bank
  | .powerSample _ _ => true
  | .telemUpdate _ _ => true
  | .coldBoot _ => true
  | .railDroop check => upTo 4 check
  | .clockLoss check => upTo 3 check
  | .relockAttempt _ _ => true
  | .relockGiveUp => true
  | .faultPulse => true
  | .blockResetDone block => upTo 63 block
  | .fieldResetDone => true
  | .waypoint => true
  | .soundingStart _ _ => true
  | .soundingVerdict => true
  | .csiFrameStart port num _ => upTo 3 port && u16 num
  | .csiLine port vc dtype _ _ _ => upTo 3 port && upTo 15 vc && upTo 63 dtype
  | .frameComplete port _ => upTo 3 port
  | .resetNLow => true
  | .frameSend port => upTo 3 port
  | .copyComplete => true
  | .clockPresent check => count 2 3 check

end Sys2Proof
end

