-- ==== Sys2Proof/Tests/Slice0.lean ====
section
/-!
SUPPORT. The model's own tests: WellFormed refuses an ill-formed command for each check; for each statement, concrete states
and operands that meet the hypotheses of its clauses; and single steps whose results are worked out from the manual.
-/
namespace Sys2Proof.Tests

open Sys2Proof Sys2Proof.Machine

set_option Elab.async false

/-! ### Small states -/

/-- One shared field with every engine, sixteen contexts, 64 frames and eight state slots. -/
def tField : FieldRec := ⟨0, false, 0xFF, 0xFF, 0x7FF, 0, 0, 0, 0, 16, 8, 64, 8⟩

/-- An image with scratch, store, furrow and tier cache, and one tape of each engine kind; every client reaches every bank
group, which is more than one image may name. -/
def tImage : Image where
  measurement := []
  len := 0
  version := 1
  imageId := 7
  seed := 0
  dram := 0
  frame := 0
  renorm := 0
  digest := 1
  connect := (List.range 39).map (fun c => (c, 0xFFFF))
  part := ⟨⟨0, 32⟩, ⟨32, 4⟩, ⟨36, 4⟩, 2, ⟨40, 8⟩⟩
  fields := [tField]
  retain := []
  tapes := (List.range 5).map (fun k => ⟨k, k, 1, 0xE000000 + k * 65536, 64⟩)
  blobs := []
  watches := []

/-- Run, by the host's claim, with that image in force. -/
def tState : State :=
  { State.reset with image := some tImage, pw := { State.reset.pw with rung := .run, hostClaim := some .run } }

/-- A strand on word 0 of the tape of kind `k`, holding engine `e`. -/
def tStrand (k e : Nat) : Strand := ⟨0, true, k, 0, [0, 0, 0, 0], some e, none, none, 0⟩

/-- An open step at word 0 of the tape. -/
def tOpen (k : Nat) : OpenStep := ⟨List.replicate 8 0, [0, 0, 0, 0], k, 0, [], 0, [], []⟩

/-- An active job of context 0, whose one strand holds engine `e`. -/
def tJob (k e : Nat) (o : Option OpenStep) : JobRun := ⟨⟨0, k * 65536, none, none⟩, .active, [tStrand k e], 1, o, 0, 0, false, [], []⟩

/-- An open context of field 0. -/
def tCtx (r : Option JobRun) : Ctx := { Ctx.opened 0 none with running := r, accepted := 1 }

/-- `tState` with context 0 open and running that job on engine `e`, and the words of its tape. -/
def tTape (k e : Nat) (o : Option OpenStep) (ws : List Nat) : State :=
  { (tState.write (0xE000000 + k * 65536) (ws.flatMap (natLE 8))) with
    dx := { tState.dx with ctxs := [(0, tCtx (some (tJob k e o)))] }
    engines := listUpd tState.engines e (fun g => { g with strand := some (0, 0) }) }


/-- A command in progress at word 0 of tape `k`. -/
def tRunning (k : Nat) : Running := ⟨k, 0, 4, true, 0, [], false, 0, [], false, 0, 0, 0, 0⟩

/-- The state with engine `e` running that command. -/
def tOn (s : State) (e : Nat) (r : Running) : State :=
  { s with engines := listUpd s.engines e (fun g => { g with running := some r }) }

/-- The state with the root strand of context 0 waiting. -/
def tWaits (s : State) (w : Wait) : State := s.updStrand 0 0 (fun t => { t with wait := some w })

/-! ### The port (statements on reset, steps and frames) -/

/-- A frame written to the device: its header, payload and tag, and CRC32. -/
def tFrame (h rest : List Byte) : List Byte := h ++ rest ++ natLE 4 (crc32 (h ++ rest)).toNat

/-- An open ECHO of RID 5 with two bytes. -/
def tEcho : List Byte := tFrame (frameHeader 0x0F 1 2 5 0) [0xAA, 0x55]

/-- The key of field session 0 in these tests. -/
def tKey : List Byte := List.replicate 32 7

/-- An ECHO without data of session 0 with counter 3, sealed under that key. -/
def tSealed : List Byte :=
  frameHeader 0 1 0 6 3 ++ [128, 57, 78, 118, 59, 11, 81, 209, 54, 180, 100, 205, 56, 107, 146, 109, 251, 14, 148, 29]

/-- A state whose session 0 holds that key, and whose last accepted counter is 2 or 3. -/
def tKeyed (c : Nat) : State := { tState with sx := { tState.sx with sessionKeys := [(0, tKey)], inCtr := [(0, c)] } }

/-- A state with one reply waiting to be read. -/
def tReply : State := { tState with hp := { tState.hp with outq := [⟨.anon, 0x8001, 5, 0, none, [0, 0, 0, 0]⟩] } }

/-- A state whose inbound buffer is full. -/
def tFull : State := { tState with hp := { tState.hp with requests := [⟨.anon, 1, 1, [], 262144⟩] } }

/-- The 8D mode. -/
def tDtr : State := { tState with hp := { tState.hp with dtr := true } }

theorem test_witness_StepRunsFrontCommand : State.reset.pending = [] := rfl

theorem test_witness_StepTakesExactlyTheFront :
    (match step { State.reset with pending := [.mode 0 1, .nop 0] } with | .next t => t.pending | _ => []) = [.nop 0] := by decide

theorem test_witness_StepKeepsMemoryCanonical : State.reset.Safe ∧ step State.reset = .next State.reset :=
  ⟨(by decide : Memory.wf State.reset.mem = true), rfl⟩

theorem test_witness_FusesNeverUnblow : Memory.wf State.reset.mem = true ∧ ∃ t, exec .guardOpen State.reset = .next t :=
  ⟨by decide, _, rfl⟩

theorem test_witness_StatusDrivesSixteenBytes :
    State.reset.coreUp = true ∧ State.reset.inReset 40 = false ∧ State.reset.hp.dtr = false ∧ tDtr.hp.dtr = true ∧
      tDtr.coreUp = true ∧ tDtr.inReset 40 = false := by decide

theorem test_witness_FrameReadTakesTheHeadFrame :
    tState.coreUp = true ∧ tState.inReset 40 = false ∧ tState.hp.dtr = false ∧ tState.hp.outq = [] ∧ tReply.coreUp = true ∧
      tReply.inReset 40 = false ∧ tReply.hp.dtr = false ∧ tReply.armed Reg.hpInject 1 = false ∧
      tReply.hp.outq.map (fun f => f.bytes.length) = [40] ∧ tReply.hp.requests = [] := by decide +kernel

theorem test_witness_FrameReadTakesTheHeadFrame_armed :
    (tReply.setReg Reg.hpInject 2).armed Reg.hpInject 1 = true ∧ (tReply.setReg Reg.hpInject 2).hp.outq ≠ [] ∧
      (tReply.setReg Reg.hpInject 2).coreUp = true ∧ tDtr.coreUp = true ∧ tDtr.inReset 40 = false ∧ tDtr.hp.dtr = true ∧
      (0x13 : Byte) ≠ ~~~(0x13 : Byte) ∧ (messageOf .anon 1 5 []).isSome = true := by decide +kernel

theorem test_witness_FrameWriteDiscardsBadFrames :
    tState.coreUp = true ∧ tState.inReset 40 = false ∧ tState.hp.dtr = false ∧ ([1] : List Byte).length ≠ 0 ∧ 0 ≤ tState.inFree ∧
      tState.armed Reg.hpInject 0 = false ∧ frameOk [] = false ∧ tFull.inFree < 1 ∧ tFull.coreUp = true ∧
      tFull.inReset 40 = false ∧ tFull.hp.dtr = false ∧ (tState.setReg Reg.hpInject 1).armed Reg.hpInject 0 = true ∧
      1 ≤ (tState.setReg Reg.hpInject 1).inFree ∧ tState.outUsed + 56 ≤ 262144 := by decide

theorem test_witness_FrameWriteAcceptsRequests_open :
    tEcho.length ≤ tState.inFree ∧ tState.armed Reg.hpInject 0 = false ∧ frameOk tEcho = true ∧ tState.hp.requests = [] ∧
      Role.ofCode (fld tEcho 3 1) = some .anon ∧
      (messageOf .anon (fld tEcho 4 2) (fld tEcho 12 4) (slice tEcho 32 (fld tEcho 8 4))).isSome = true := by decide +kernel

/-- What the session clauses ask of `s` and a frame; `ok` says what the tag does. -/
def tSession (s : State) (d : List Byte) (ok : Bool) : Bool :=
  decide (d.length ≤ s.inFree) && !s.armed Reg.hpInject 0 && frameOk d && decide (Role.ofCode (fld d 3 1) = some (.field 0)) &&
    decide (s.keyCheck.sessionKey (.field 0) = some tKey) && decide (Map.get s.sx.outCtr 0 0 < 2 ^ 64 - 1) &&
    (gcmOpen tKey (frameNonce 0 0 (fld d 16 8)) (d.take 32) (slice d 32 (fld d 8 4)) (slice d (32 + fld d 8 4) 16)).isSome == ok

theorem test_witness_FrameWriteAcceptsRequests_session :
    tSession (tKeyed 2) tSealed true = true ∧ Map.find (tKeyed 2).keyCheck.sx.inCtr 0 = some 2 ∧ fld tSealed 16 8 = 3 ∧
      Map.find (tKeyed 3).keyCheck.sx.inCtr 0 = some 3 ∧ tSession (tKeyed 3) tSealed true = true ∧
      tState.keyCheck.sessionKey (.field 0) = none := by decide +kernel

theorem test_witness_FrameWriteAcceptsRequests_forged :
    tSession (tKeyed 2) (tFrame (frameHeader 0 1 0 6 3) (List.replicate 16 0)) false = true := by decide +kernel

theorem test_witness_ModeIsSetAndEchoReturnsItsData_mode :
    tDtr.coreUp = true ∧ tDtr.inReset 40 = false ∧ tDtr.hp.dtr = true ∧ (0x8E : Byte) = ~~~(0x71 : Byte) ∧
      (0x8F : Byte) ≠ ~~~(0x71 : Byte) ∧ (2 : Byte) ≠ 0 ∧ (2 : Byte) ≠ 1 := by decide

theorem test_witness_ModeIsSetAndEchoReturnsItsData_echo :
    (tKeyed 2).Performs (.field 0) Msg.echo 2 ∧ tState.Performs .anon Msg.echo 131072 ∧ (tKeyed 2).hp.discard = [] ∧
      (tKeyed 2).sessionKey (.field 0) = some tKey := ⟨⟨by decide, by decide⟩, ⟨by decide, by decide⟩, rfl, by decide⟩

/-- The CRC32 of R641 over the nine digits "123456789", the check value published for it. -/
theorem test_crc32 : crc32 [0x31, 0x32, 0x33, 0x34, 0x35, 0x36, 0x37, 0x38, 0x39] = 0xCBF43926 := by decide +kernel

/-- SHA-256 of "abc", from the standard. -/
theorem test_sha256 : fld (sha256 [0x61, 0x62, 0x63]) 0 4 = 0xBF1678BA := by decide +kernel

/-! ### Registers -/

theorem test_witness_RegisterReadsCaptureTheHighWord :
    tState.Performs .owner Msg.regRead 1024 ∧ controlSpan 0xFFFC 1 = true ∧ controlSpan 0xFC00 256 = true ∧
      (regAt (Reg.hpAper 8)).map (fun p => (p.1.width, p.2.2.2)) = some (64, false) ∧
      (regAt (Reg.hpAper 8 + 4)).map (fun p => (p.1.width, p.2.2.2)) = some (64, true) ∧ Reg.hpAper 8 % 4 = 0 ∧
      Map.find ({ tState with cap := [(8, (Reg.hpAper 8, 5))] } : State).cap 8 = some (Reg.hpAper 8, 5) ∧
      tState.cap = [] := ⟨⟨by decide, by decide⟩, by decide +kernel⟩

theorem test_witness_RegisterWritesActWordByWord :
    tState.Performs .owner Msg.regWrite 0 ∧ (regAt 0x013FFFFC).isNone = true ∧ tState.inReset 40 = false ∧
      controlSpan 0xFC00 256 = true ∧ controlSpan 0 1 = true := ⟨⟨by decide, by decide⟩, by decide +kernel⟩

theorem test_witness_OwnerWritesWithAStepOfTheirOwn :
    tState.Performs .owner Msg.regWrite 0 ∧ ((List.range 64).all (fun b => !tState.inReset b)) = true ∧
      (regAt Reg.mcTrain).map (fun p => p.2.2.2) = some false ∧ (0x80000000#32).getLsbD 31 = true ∧ (1#32).getLsbD 0 = true ∧
      10 < tState.engines.length := ⟨⟨by decide, by decide⟩, by decide +kernel⟩

theorem test_witness_OwnerWritesWithAStepOfTheirOwn_held :
    ((tOn tState 10 (tRunning 0)).engine 10).running.isSome = true ∧
      ((tWaits (tTape 0 10 none [0]) .walker).engWaits 10).any Wait.inner = true ∧
      Map.find ({ tState with dig := { tState.dig with waiting := [(7, ⟨0, 0, 0, 0, []⟩)] } } : State).dig.waiting 7 ≠ none := by
  decide

theorem test_witness_OwnerWritesToLinksChannelsAndCameras :
    tState.Performs .owner Msg.regWrite 0 ∧ ((List.range 64).all (fun b => !tState.inReset b)) = true ∧
      (regAt (Reg.ipPortCTL 3)).map (fun p => p.2.2.2) = some false ∧ (regAt Reg.afCfg).map (fun p => p.2.2.2) = some false :=
  ⟨⟨by decide, by decide⟩, by decide +kernel⟩

/-- A DM run of field 0 that has just started, from one list or address to another. -/
def tDmRun (src dst : W64) : DmRun :=
  { cfg := 0, src := src, dst := dst, srcs := [], dsts := [], checked := false, rd := none, wr := none, asked := 0, parts := []
    wrote := 0, back := false, reads := [], writes := [], code := none, aborts := [] }

/-- Channel 31 of DM is busy. -/
def tBusyChan : State := tState.setDm 31 ⟨some (tDmRun 0 0), []⟩

theorem test_witness_OwnerWritesToLinksChannelsAndCameras_field :
    tState.Performs (.field 0) Msg.regWrite 0 ∧ (tState.setReg (Reg.dmChCFG 31) 0).fieldChannel 0 31 = true ∧
      (tBusyChan.dmChan 31).run ≠ none := ⟨⟨by decide, by decide⟩, by decide +kernel⟩

theorem test_witness_FaultCollectorWrites :
    tState.Performs .owner Msg.regWrite 0 ∧ ((List.range 64).all (fun b => !tState.inReset b)) = true ∧
      (regAt Reg.wpCtl).map (fun p => p.2.2.2) = some false ∧
      (regAt (regAddr 0 (injectOff 0))).map (fun p => p.2.2.2) = some false ∧
      (regAt (regAddr 63 (injectOff 63))).map (fun p => p.2.2.2) = some false := ⟨⟨by decide, by decide⟩, by decide +kernel⟩

/-! ### Memory, claims, images and keys -/

theorem test_witness_ApertureReadsAndWritesMemory :
    tState.Performs .owner Msg.aperture 0 ∧ tState.Performs .owner Msg.memRead 64 ∧ tState.Performs .owner Msg.memWrite 0 ∧
      (2 ^ 47) % 2 ^ 31 = 0 ∧ tState.aperWaits .owner false 0xFFFFFC0 64 = false ∧ tState.aperWaits .owner true 0 2 = false ∧
      tState.aperReach .owner false 0xFFFFFC0 64 = .here 0xFFFFFC0 ∧ tState.aperReach .owner true 0 2 = .here 0 ∧
      ((tState.takeRequest .owner 1 Msg.memRead).readHere 0xFFFFFC0 64).2.isSome = true :=
  ⟨⟨by decide, by decide⟩, ⟨by decide, by decide⟩, ⟨by decide, by decide⟩, by decide +kernel⟩

/-- Field channel 0 of DM with windows on banks 0 to 3. -/
def tWindow : State := tState.setReg (Reg.dmChCFG 0) (2 ^ 63 + 4 * 2 ^ 11)

theorem test_witness_OwnerReachesAllOfLocalMemory :
    State.reset.image = none ∧ State.reset.aperture .owner + 0xFFFFFFF + 1 ≤ 0x10000000 ∧
      (0 : Nat) < 2 ^ 31 ∧ tWindow.aperReach (.field 0) false 0 64 = .here 0 := by decide +kernel

/-- A hail table with HOST, TIMER and slot 0's hail enabled, HOST with a hold time, and a standing claim of HOST. -/
def tHailed : State :=
  let e : HailEntry := ⟨true, false, false, false, .doze, 0, 0, 0, 0, 0, none, none, 100, none, 0⟩
  { tState with pw := { tState.pw with island := some (⟨.doze, 0, 0, 0, [0, 0, 0, 0, 0], 1000, 0⟩, [], List.replicate 14 e) } }

/-- HOST raised. -/
def tRaised : State := { tHailed with pw := { tHailed.pw with raised := [⟨11, none⟩] } }

/-- HOST's claim standing. -/
def tClaimed : State := { tHailed with pw := { tHailed.pw with claims := [⟨11, .doze, 100, false, 0⟩] } }

theorem test_witness_HostClaimsAndHailsAreServed :
    tHailed.Performs .owner Msg.hostClaim 0 ∧ tHailed.Performs .owner Msg.hail 0 ∧ tHailed.Performs .owner Msg.release 0 ∧
      tClaimed.Performs .owner Msg.hail 0 ∧ Rung.ofCode 0 = some .moor ∧ Rung.ofCode 5 = some .run ∧
      tHailed.pw.claims.any (fun c => c.hail == 11) = false ∧ tHailed.pw.raised.any (fun q => q.hail == 11) = false ∧
      (tHailed.hailEntry 11).any HailEntry.enable = true ∧ tHailed.safe = false ∧
      tClaimed.pw.claims.any (fun c => c.hail == 11) = true ∧ tRaised.resetLow = false ∧ tRaised.inReset 41 = false ∧
      tRaised.pw.window = false ∧ tRaised.pw.latch = false ∧ tRaised.safe = false ∧ tRaised.firstRaised = some ⟨11, none⟩ ∧
      tClaimed.getF Reg.ckStatus 29 29 = 1 ∧ tClaimed.pw.claims.any (fun c => c.hail == 11 && c.hold != 0) = true :=
  ⟨⟨by decide, by decide⟩, ⟨by decide, by decide⟩, ⟨by decide, by decide⟩, ⟨by decide, by decide⟩, by decide⟩

/-! The other answers of the aperture: channels still starting up, nothing there, a neighbour, an uncorrectable word. -/

/-- Sixteen channels of 512 MiB in service, and the owner's aperture over channel 8. -/
def tDram : State :=
  let s := (tState.setReg Reg.mcTstat 0xFFFF0000).setReg (Reg.hpAper 8) 0x200000000
  { s with image := some { tImage with dram := 1 } }

/-- As `tDram`, with GDDR6 start-up in progress. -/
def tStarting : State := { tDram with mcStage := some (6, false) }

/-- A system of two devices, the owner's aperture over the other's window. -/
def tFar : State := (tState.setReg (Reg.lxId 0) 0x400).setReg (Reg.hpAper 8) 0x11000000000

/-- As `tFar`, with one tag free. -/
def tFarFull : State := { tFar with lx := { tFar.lx with tags := List.replicate 4095 ⟨0, 0, .dma 0⟩ } }

/-- An injected uncorrectable error armed on bank 127. -/
def tPoisoned : State := tState.setReg Reg.cmInject (2 + 256 * 127)

/-- The clauses of a read and of a write of `n` bytes at aperture offset `off` are met, with that wait and that place. -/
def tAccess (s : State) (off n : Nat) (wait : Bool) (p : Bool → Reach) : Prop :=
  s.Performs .owner Msg.memRead n ∧ s.Performs .owner Msg.memWrite 0 ∧
    [false, true].all (fun w => s.aperWaits .owner w off n == wait && decide (s.aperReach .owner w off n = p w)) = true

theorem test_witness_ApertureReadsAndWritesMemory_waits :
    (tStarting.Performs .owner Msg.memRead 1 ∧ tStarting.Performs .owner Msg.memWrite 0 ∧
      [false, true].all (fun w => tStarting.aperWaits .owner w 0 1) = true) ∧
    tAccess tFarFull 0 513 true (fun _ => .there 1 0) :=
  ⟨⟨⟨by decide, by decide⟩, ⟨by decide, by decide⟩, by decide +kernel⟩, ⟨by decide, by decide⟩, ⟨by decide, by decide⟩, by decide +kernel⟩

theorem test_witness_ApertureReadsAndWritesMemory_bad :
    tAccess tState (2 ^ 31 - 1) 2 false (fun _ => .bad) ∧ tAccess tFar (2 ^ 31 - 512) 512 false (fun _ => .there 1 0x7FFFFE00) ∧
      tAccess tDram 0 65536 false (fun _ => .here 0x200000000) :=
  ⟨⟨⟨by decide, by decide⟩, ⟨by decide, by decide⟩, by decide +kernel⟩, ⟨⟨by decide, by decide⟩, ⟨by decide, by decide⟩, by decide +kernel⟩,
    ⟨by decide, by decide⟩, ⟨by decide, by decide⟩, by decide +kernel⟩

theorem test_witness_ApertureReadsAndWritesMemory_poison :
    tPoisoned.Performs .owner Msg.memRead 64 ∧ tPoisoned.aperReach .owner false 0xFFFFFC0 64 = .here 0xFFFFFC0 ∧
      tPoisoned.aperWaits .owner false 0xFFFFFC0 64 = false ∧
      ((tPoisoned.takeRequest .owner 1 Msg.memRead).readHere 0xFFFFFC0 64).2 = none :=
  ⟨⟨by decide, by decide⟩, by decide +kernel⟩

theorem test_witness_FirstRaisedHailHasTheLowestNumber :
    ({ tRaised with pw := { tRaised.pw with raised := [⟨13, none⟩, ⟨0, none⟩, ⟨11, none⟩] } } : State).firstRaised =
      some ⟨0, none⟩ := by decide

/-! ### The image load -/

/-- A load of 128 bytes that has seen `n` zero bytes. -/
def tLoad (n : Nat) (z : Bool) : Load := ⟨.owner, 3, 128, List.replicate n 0, z⟩

/-- Reset's state with that load. -/
def tLoading (n : Nat) (z : Bool) : State := { State.reset with load := some (tLoad n z) }

theorem test_witness_ImageLoadRunsItsStages_begin :
    State.reset.Performs .owner Msg.imgBegin 0 ∧ State.reset.sxBusy = false ∧ State.reset.getF Reg.fcSafe 30 30 = 0 ∧
      State.reset.load = none ∧ State.reset.dispatcherIdle = true ∧ (tLoading 0 true).coreUp = true ∧
      (tLoading 0 true).load = some (tLoad 0 true) ∧ (tLoad 0 true).zeroing = true ∧
      (tLoading 0 false).coreUp = true ∧ (tLoad 0 false).zeroing = false :=
  ⟨⟨by decide, by decide⟩, by decide, by decide, by decide, by decide, by decide, by decide, by decide, by decide, by decide⟩

theorem test_witness_ImageLoadRunsItsStages_data :
    (tLoading 64 false).Performs .owner Msg.imgData 8 ∧ (tLoading 64 false).load = some (tLoad 64 false) ∧
      (tLoad 64 false).seen.length + 63 < (tLoad 64 false).len ∧ (tLoad 64 false).seen.length + 64 = (tLoad 64 false).len ∧
      imageReject none ((tLoad 64 false).seen ++ List.replicate 64 0) (List.replicate 128 0) =
        some (Code.imgFormat, noRec, noRec) :=
  ⟨⟨by decide, by decide⟩, by decide, by decide, by decide, by decide +kernel⟩

theorem test_witness_ImageLoadRunsItsStages_refused :
    State.reset.Performs .owner Msg.imgData 8 ∧ State.reset.load = none ∧ (tLoading 0 false).Performs .anon Msg.imgData 8 ∧
      (tLoad 0 false).role ≠ .anon ∧ (tLoading 0 true).Performs .owner Msg.imgData 8 ∧
      (tLoading 64 false).Performs .owner Msg.imgData 8 ∧ (63 : Nat) ≠ (tLoad 64 false).seen.length ∧
      (tLoad 64 false).len < (tLoad 64 false).seen.length + 65 :=
  ⟨⟨by decide, by decide⟩, by decide, ⟨by decide, by decide⟩, by decide, ⟨by decide, by decide⟩, ⟨by decide, by decide⟩, by decide, by decide⟩

/-! ### Quotes and owners -/

/-- `tState` with leaf 7 of bit 1's epoch open, one quote waiting. -/
def tQuoting : State :=
  { tState with sx := { tState.sx with epoch := some (1, 7), quote := some ⟨.owner, 3, List.replicate 6196 0, 0, 1, 7⟩ } }

theorem test_witness_QuotesAndOwnersAreServed_quote :
    tState.Performs .owner Msg.quote 6580 ∧ tState.sxBusy = false ∧ tState.load = none ∧ tState.image = some tImage ∧
      tState.tallySpent = false ∧
      ((tState.takeRequest .owner 3 Msg.quote).sxChecks.openEpoch).sx.epoch = some (0, 0) ∧
      tQuoting.Performs .owner Msg.quote 6580 ∧ tQuoting.sxBusy = true ∧ tQuoting.coreUp = true ∧
      tQuoting.sx.quote = some ⟨.owner, 3, List.replicate 6196 0, 0, 1, 7⟩ ∧ tQuoting.sx.epoch = some (1, 7) :=
  ⟨⟨by decide, by decide⟩, by decide, by decide, rfl, by decide +kernel, by decide +kernel, ⟨by decide, by decide⟩, by decide, by decide,
    rfl, rfl⟩

/-- Slot 0 being burnt. -/
def tBurning : State := { State.reset with sx := { State.reset.sx with burn := some ⟨.owner, 3, 0, List.replicate 32 1⟩ } }

theorem test_witness_QuotesAndOwnersAreServed_owners :
    State.reset.Performs .anon Msg.ownerSet 0 ∧ State.reset.sxBusy = false ∧ State.reset.image = none ∧
      State.reset.sx.owners.length = 0 ∧ (List.replicate 32 (1 : Byte)).length = 32 ∧ (List.replicate 31 (1 : Byte)).length ≠ 32 ∧
      tBurning.Performs .anon Msg.ownerSet 0 ∧ tBurning.sxBusy = true ∧ tBurning.coreUp = true ∧
      tBurning.sx.burn = some ⟨.owner, 3, 0, List.replicate 32 1⟩ ∧ tBurning.sx.queue = [] :=
  ⟨⟨by decide, by decide⟩, by decide, by decide, by decide, by decide, by decide, ⟨by decide, by decide⟩, by decide, by decide, rfl, rfl⟩

/-! ### Keys, contexts, jobs and caches -/

/-- An access that ended well. -/
def tDone {α : Type} (r : Tried α) : Bool := match r with | .done _ => true | _ => false

/-- A read-only object of two pages at unified address 0 of field 0, its pages in the tier cache. -/
def tObj (ro : Bool) : Obj := ⟨0, 0, 2, 2, ro, false, 0, 0, false⟩

/-- A page of object 5 whose home is slot `k` of the tier cache's way 0. -/
def tPage (k : Nat) : Page := { Page.fresh 5 2 with home := 1, loc := k }

/-- `tState` with that object and its pages. -/
def tTier (ro : Bool) : State :=
  { tState with tu := { tState.tu with objs := [(5, tObj ro)], pages := [(0, tPage 0), (1, tPage 1)], leaves := [(0, 0)] } }

/-- The model key of these tests and a WEIGHT_LOAD of 64 zero bytes under it: the header, the ciphertext, the tag. -/
def tModelKey : ModelKey := ⟨0, 9, tKey⟩

/-- A WEIGHT_LOAD payload's header: key 9, field 0, address 0, 64 bytes. -/
def tWeightHead : List Byte := natLE 4 9 ++ List.replicate 12 0 ++ natLE 4 64 ++ List.replicate 12 0

/-- The ciphertext and tag, under the nonce and additional data of R597. -/
def tWeightTail : List Byte :=
  [97, 216, 164, 178, 251, 146, 11, 232, 225, 7, 143, 100, 196, 123, 75, 174, 189, 239, 169, 249] ++
    [115, 220, 171, 91, 22, 21, 128, 200, 79, 233, 26, 102, 237, 201, 73, 84, 131, 242, 107, 254] ++
    [196, 186, 248, 127, 152, 167, 72, 170, 70, 128, 168, 79, 137, 252, 52, 232, 201, 46, 135, 28] ++
    [6, 43, 249, 122, 71, 103, 182, 168, 55, 97, 52, 130, 133, 234, 102, 61, 228, 169, 194, 15]

/-- A WEIGHT_LOAD payload. -/
def tWeights : List Byte := tWeightHead ++ tWeightTail

/-- A state that holds the model key and the object. -/
def tLoaded : State := { tTier true with sx := { tState.sx with modelKeys := [tModelKey], kems := [⟨0, List.replicate 32 0⟩] } }

/-- A KEY_RELEASE whose layout is right and whose signature is empty. -/
def tUnsigned : List Byte :=
  ascii [0x53, 0x58, 0x4B, 0x45, 0x59, 0x52, 0x45, 0x4C] ++ List.replicate 32 0 ++ [1, 0] ++ List.replicate 1270 0

theorem test_witness_KeysAreReleasedAndWeightsLoaded :
    tState.Performs .anon Msg.keyRelease 0 ∧ tState.sxBusy = false ∧ releaseOk tUnsigned = true ∧
      hssVerify (slice tUnsigned 1248 60) (tUnsigned.drop 1312) (tUnsigned.take 1248) = false ∧
      1136 + 96 * fld tUnsigned 40 2 + 16 = 1248 :=
  ⟨⟨by decide, by decide⟩, by decide, by decide +kernel, by decide +kernel, by decide +kernel⟩

theorem test_witness_KeyDropErasesOneModelKey :
    tLoaded.Performs (.field 0) Msg.keyDrop 0 ∧ Role.mayField (.field 0) 0 = true ∧
      tLoaded.sx.modelKeys.any (fun k => k.field == 0 && k.id == 9) = true ∧
      tLoaded.sx.modelKeys.any (fun k => k.field == 0 && k.id == 0xFFFFFFFF) = false ∧
      tLoaded.armed Reg.sxInject 1 = false ∧ tLoaded.armed Reg.sxInject 2 = false :=
  ⟨⟨by decide, by decide⟩, by decide +kernel⟩

theorem test_witness_KeysAreReleasedAndWeightsLoaded_weights :
    tLoaded.Performs (.field 0) Msg.weightLoad 0 ∧ weightOk tWeights = true ∧ fld tWeights 4 1 = 0 ∧ tLoaded.slotWait 0 = false ∧
      tLoaded.mcStage = none ∧ tLoaded.sx.modelKeys.find? (fun k => k.field == fld tWeights 4 1 && k.id == fld tWeights 0 4) =
        some tModelKey ∧ tLoaded.objAt 0 0 = some (5, tObj true) ∧ (tObj true).ro = true ∧
      gcmOpen tModelKey.key (List.replicate 4 0 ++ natLE 8 ((fld tWeights 8 8 - 0) / 64))
        (slice tWeights 0 4 ++ natLE 8 (fld tWeights 8 8 - 0) ++ natLE 4 (fld tWeights 16 4)) (slice tWeights 32 (fld tWeights 16 4))
        (tWeights.drop (32 + fld tWeights 16 4)) = some (List.replicate 64 0) ∧
      tDone ((tLoaded.takeRequest (.field 0) 1 Msg.weightLoad).sxChecks.tuWrite 0 0 (List.replicate 64 0) .weights).2 = true :=
  ⟨⟨by decide, by decide⟩, by decide +kernel⟩

/-! A KEY_RELEASE that is accepted. The owner's key tree has height 5; the signature's parts are all zero, and the tree's root is the
one that they lead to for the bytes that are signed. -/

/-- The header: magic, the digest of the quote, one entry, the KEM ciphertext. -/
def tRelHead : List Byte :=
  ascii [0x53, 0x58, 0x4B, 0x45, 0x59, 0x52, 0x45, 0x4C] ++ List.replicate 32 0 ++ [1, 0] ++ List.replicate 1094 0

/-- The entry: model key 9 of field 0. -/
def tRelEntry : List Byte := [1, 0, 0, 0] ++ natLE 4 9 ++ tKey ++ List.replicate 56 0

/-- The wrapping key. -/
def tRelWrap : List Byte :=
  sha256 (ascii [0x53, 0x58, 0x57, 0x52, 0x41, 0x50, 0x30, 0x31] ++
    (List.range 32).map (Config.kemShared 0 (List.replicate 1088 0)) ++ List.replicate 32 0)

/-- The sealed entry and its tag. -/
def tRelSealed : List Byte × List Byte := gcmSeal tRelWrap (List.replicate 12 0) (tRelHead.take 48) tRelEntry

/-- What is signed. -/
def tRelBody : List Byte := tRelHead ++ (tRelSealed.1 ++ tRelSealed.2)

/-- The signature. -/
def tRelSig : List Byte :=
  List.replicate 8 0 ++ [0, 0, 0, 4] ++ List.replicate 1120 0 ++ [0, 0, 0, 5] ++ List.replicate 160 0

/-- The root that the signature leads to for the bytes `m`. -/
def tRoot (m : List Byte) : List Byte :=
  lmsRoot (List.replicate 16 0) 32
    (sha256 (List.replicate 16 0 ++ natBE 4 32 ++ [0x82, 0x82] ++
      otsCandidate 8 34 (List.replicate 16 0) 0 (List.replicate 32 0) (chunksOf 32 34 (List.replicate 1088 0)) m))
    (chunksOf 32 5 (List.replicate 160 0))

/-- The public key under which that signature of `m` verifies. -/
def tPub (m : List Byte) : List Byte := [0, 0, 0, 1, 0, 0, 0, 5, 0, 0, 0, 4] ++ List.replicate 16 0 ++ tRoot m

/-- The owner's public key. -/
def tRelPub : List Byte := tPub tRelBody

/-- The payload. -/
def tRelease : List Byte := tRelBody ++ (tRelPub ++ (natLE 4 1296 ++ tRelSig))

/-- The owner's key digest burnt, a KEM key pending, and a key held. -/
def tReleasing : State := { tLoaded with sx := { tLoaded.sx with owners := [sha256 tRelPub] } }

theorem test_relHead_length : tRelHead.length = 1136 := by decide +kernel

theorem test_relWrap_length : tRelWrap.length = 32 := sha256_length _

theorem test_relSealed_length : tRelSealed.1.length = 96 ∧ tRelSealed.2.length = 16 := by
  have h := aesKeys_last _ test_relWrap_length
  simp only [tRelSealed, gcmSeal]
  rw [gcmCtr_length _ _ _ h, gcmTag_length _ _ _ _ h]
  decide

theorem test_relBody_length : tRelBody.length = 1248 := by
  rw [tRelBody, List.length_append, List.length_append, test_relHead_length, test_relSealed_length.1, test_relSealed_length.2]

theorem test_root_length (m : List Byte) : (tRoot m).length = 32 := lmsRoot_length _ _ _ _ (by decide)

theorem test_pub_length (m : List Byte) : (tPub m).length = 60 := by
  rw [tPub, List.length_append, test_root_length]
  rfl

theorem test_relPub_length : tRelPub.length = 60 := test_pub_length _

theorem test_relSlice (i n : Nat) (h : i + n ≤ 1136) : slice tRelease i n = slice tRelHead i n := by
  rw [tRelease, slice_append_left _ _ _ _ (by have hlen := test_relBody_length; omega), tRelBody,
    slice_append_left _ _ _ _ (by have hlen := test_relHead_length; omega)]

theorem test_relSlice_pub : slice tRelease 1248 60 = tRelPub := by
  have h := slice_append_right tRelBody (tRelPub ++ (natLE 4 1296 ++ tRelSig)) 0 60
  rw [test_relBody_length] at h
  rw [tRelease, h, slice_append_left _ _ _ _ (by have hlen := test_relPub_length; omega), ← test_relPub_length, slice_all]

theorem test_relSlice_ct : slice tRelease 1136 96 = tRelSealed.1 ∧ slice tRelease 1232 16 = tRelSealed.2 := by
  have h (i n : Nat) := slice_append_right tRelHead (tRelSealed.1 ++ tRelSealed.2) i n
  rw [test_relHead_length] at h
  have h0 := slice_append_right tRelSealed.1 tRelSealed.2 0 16
  rw [test_relSealed_length.1] at h0
  constructor
  · rw [tRelease, slice_append_left _ _ _ _ (by have hlen := test_relBody_length; omega), tRelBody, h 0 96,
      slice_append_left _ _ _ _ (by have hlen := test_relSealed_length.1; omega), ← test_relSealed_length.1, slice_all]
  · rw [tRelease, slice_append_left _ _ _ _ (by have hlen := test_relBody_length; omega), tRelBody, h 96 16, h0, ← test_relSealed_length.2, slice_all]

theorem test_relSlice_sig (i n : Nat) : slice tRelease (1308 + i) n = slice (natLE 4 1296 ++ tRelSig) i n := by
  have h := slice_append_right tRelBody (tRelPub ++ (natLE 4 1296 ++ tRelSig)) (60 + i) n
  have h' := slice_append_right tRelPub (natLE 4 1296 ++ tRelSig) i n
  rw [test_relBody_length] at h
  rw [test_relPub_length] at h'
  rw [← h', ← h, tRelease]
  congr 1
  omega

theorem test_relDrop : tRelease.drop 1312 = tRelSig := by
  have h := List.drop_length_add_append (l₁ := tRelBody) (l₂ := tRelPub ++ (natLE 4 1296 ++ tRelSig)) (i := 64)
  have h' := List.drop_length_add_append (l₁ := tRelPub) (l₂ := natLE 4 1296 ++ tRelSig) (i := 4)
  rw [test_relBody_length] at h
  rw [test_relPub_length] at h'
  exact h.trans (h'.trans (by decide +kernel))

theorem test_relTake : tRelease.take 1248 = tRelBody := by
  rw [tRelease, ← test_relBody_length, List.take_left]

theorem test_relOk : releaseOk tRelease = true := by
  have hn : fld tRelease 40 2 = 1 := by
    rw [fld, test_relSlice _ _ (by omega)]
    decide +kernel
  have hz : zeroAt tRelease 42 6 = true := by
    rw [zeroAt, test_relSlice _ _ (by omega)]
    decide +kernel
  have hs : fld tRelease 1308 4 = 1296 := by
    rw [fld, test_relSlice_sig 0 4]
    decide +kernel
  have hm : slice tRelease 0 8 = ascii [0x53, 0x58, 0x4B, 0x45, 0x59, 0x52, 0x45, 0x4C] := by
    rw [test_relSlice _ _ (by omega)]
    decide +kernel
  have hl : tRelease.length = 2608 := by
    rw [tRelease, List.length_append, List.length_append, test_relBody_length, test_relPub_length]
    decide +kernel
  simp [releaseOk, hn, hz, hs, hm, hl]

theorem test_signed (m : List Byte) : hssVerify (tPub m) tRelSig m = true := by
  have hr : slice (tPub m) 28 32 = (tRoot m) := by
    have h := slice_append_right ([0, 0, 0, 1, 0, 0, 0, 5, 0, 0, 0, 4] ++ List.replicate 16 0) (tRoot m) 0 32
    have e : slice (tPub m) (28 + 0) 32 = slice (tRoot m) 0 32 := h
    rw [show 28 = 28 + 0 from rfl, e, ← test_root_length m, slice_all]
  have hp (i n : Nat) (h : i + n ≤ 28) : slice (tPub m) i n =
      slice ([0, 0, 0, 1, 0, 0, 0, 5, 0, 0, 0, 4] ++ List.replicate 16 (0 : Byte)) i n := slice_append_left _ _ _ _ h
  have ht (i n : Nat) (h : i + n ≤ 56) : slice (slice (tPub m) 4 56) i n = slice (tPub m) (4 + i) n := by
    simp only [slice, List.drop_take, List.take_take, List.drop_drop]
    rw [Nat.min_eq_left (by omega)]
  have e0 : beNat (slice (tPub m) 0 4) = 1 := by rw [hp _ _ (by omega)]; decide
  have e1 : beNat (slice (slice (tPub m) 4 56) 0 4) = 5 := by rw [ht _ _ (by omega), hp _ _ (by omega)]; decide
  have e2 : slice (slice (tPub m) 4 56) 4 4 = [0, 0, 0, 4] := by rw [ht _ _ (by omega), hp _ _ (by omega)]; decide
  have e3 : slice (slice (tPub m) 4 56) 0 4 = [0, 0, 0, 5] := by rw [ht _ _ (by omega), hp _ _ (by omega)]; decide
  have e4 : slice (slice (tPub m) 4 56) 8 16 = List.replicate 16 0 := by rw [ht _ _ (by omega), hp _ _ (by omega)]; decide
  have e5 : slice (slice (tPub m) 4 56) 24 32 = (tRoot m) := by rw [ht _ _ (by omega), hr]
  have g0 : beNat (slice tRelSig 0 4) = 0 := by decide +kernel
  have g1 : beNat (slice (tRelSig.drop 4) 0 4) = 0 := by decide +kernel
  have g2 : slice (tRelSig.drop 4) 4 4 = [0, 0, 0, 4] := by decide +kernel
  have g3 : slice (tRelSig.drop 4) 8 32 = List.replicate 32 0 := by decide +kernel
  have g4 : slice (tRelSig.drop 4) 40 (32 * 34) = List.replicate 1088 0 := by decide +kernel
  have g5 : slice (tRelSig.drop 4) (4 + 4 + 32 + 32 * 34) 4 = [0, 0, 0, 5] := by decide +kernel
  have g6 : slice (tRelSig.drop 4) (4 + 4 + 32 + 32 * 34 + 4) (32 * 5) = List.replicate 160 0 := by decide +kernel
  have g7 : (tRelSig.drop 4).length = 4 + 4 + 32 + 32 * 34 + 4 + 32 * 5 := by decide +kernel
  have b4 : beNat [0, 0, 0, 4] = 4 := by decide
  rw [hssVerify_one (test_pub_length m) e0 g0]
  refine lmsVerify_of_root (h := 5) (w := 8) (p := 34) (by rw [e1]; rfl) (by rw [e2, b4]; rfl) g7 (by rw [g1]; decide) (by rw [g2, e2])
    (by rw [g5, e3]) ?_
  rw [e4, e5, g1, g3, g4, g6]
  rfl

theorem test_witness_KeysAreReleasedAndWeightsLoaded_release :
    tReleasing.Performs .anon Msg.keyRelease 0 ∧ tReleasing.sxBusy = false ∧ releaseOk tRelease = true ∧
      1136 + 96 * fld tRelease 40 2 + 16 = 1248 ∧
      hssVerify (slice tRelease 1248 60) (tRelease.drop 1312) (tRelease.take 1248) = true ∧
      tReleasing.ownerDigest = some (sha256 (slice tRelease 1248 60)) ∧
      tReleasing.sx.kems.find? (fun j => j.qd == slice tRelease 8 32) = some ⟨0, List.replicate 32 0⟩ ∧
      gcmOpen (sha256 (ascii [0x53, 0x58, 0x57, 0x52, 0x41, 0x50, 0x30, 0x31] ++
        (List.range 32).map (Config.kemShared 0 (slice tRelease 48 1088)) ++ List.replicate 32 0)) (List.replicate 12 0)
        (slice tRelease 0 48) (slice tRelease 1136 96) (slice tRelease 1232 16) = some tRelEntry ∧
      firstBad tReleasing.entryOkSx (records tRelEntry 0 96 1) = none ∧
      ((records tRelEntry 0 96 1).map KeyEntry.of).any (fun e => e.kind == 2 && tReleasing.keyInUse e.field) = false ∧
      (((records tRelEntry 0 96 1).map KeyEntry.of).foldl putModelKey tReleasing.sx.modelKeys).length ≤ 64 := by
  refine ⟨⟨by decide, by decide⟩, by decide, test_relOk, ?_, ?_, ?_, ?_, ?_, by decide +kernel, by decide +kernel, by decide +kernel⟩
  · rw [fld, test_relSlice _ _ (by omega)]
    decide +kernel
  · rw [test_relSlice_pub, test_relDrop, test_relTake]
    exact test_signed _
  · rw [test_relSlice_pub]
    rfl
  · rw [test_relSlice _ _ (by omega)]
    decide +kernel
  · rw [test_relSlice _ _ (by omega), test_relSlice _ _ (by omega), test_relSlice_ct.1, test_relSlice_ct.2,
      show slice tRelHead 48 1088 = List.replicate 1088 0 by decide +kernel, show slice tRelHead 0 48 = tRelHead.take 48 from rfl]
    exact gcmOpen_gcmSeal _ _ _ _ test_relWrap_length


/-! OWNER_SET of slot 1, signed by the owner of slot 0. -/

/-- The bytes that are signed. -/
def tOwnerMsg : List Byte :=
  ascii [0x53, 0x58, 0x4F, 0x57, 0x4E, 0x45, 0x52, 0x31] ++ serial ++ natLE 1 1 ++ List.replicate 32 1

/-- The rest of the payload. -/
def tOwnerRest : List Byte := tPub tOwnerMsg ++ (natLE 4 1296 ++ tRelSig)

/-- Reset's state with slot 0 programmed. -/
def tOwned : State := { State.reset with sx := { State.reset.sx with owners := [sha256 (tPub tOwnerMsg)] } }

theorem test_ownerSlice : slice tOwnerRest 0 60 = tPub tOwnerMsg := by
  rw [tOwnerRest, slice_append_left _ _ _ _ (by have hlen := test_pub_length tOwnerMsg; omega), ← test_pub_length tOwnerMsg, slice_all]

theorem test_ownerDrop : tOwnerRest.drop 64 = tRelSig := by
  have h := List.drop_length_add_append (l₁ := tPub tOwnerMsg) (l₂ := natLE 4 1296 ++ tRelSig) (i := 4)
  rw [test_pub_length] at h
  exact h.trans (by decide +kernel)

theorem test_witness_QuotesAndOwnersAreServed_signed :
    tOwned.Performs .owner Msg.ownerSet 0 ∧ tOwned.sxBusy = false ∧ tOwned.image = none ∧ tOwned.sx.owners.length = 1 ∧
      tOwned.ownerDigest = some (sha256 (slice tOwnerRest 0 60)) ∧ fld tOwnerRest 60 4 + 64 = tOwnerRest.length ∧
      hssVerify (slice tOwnerRest 0 60) (tOwnerRest.drop 64)
        (ascii [0x53, 0x58, 0x4F, 0x57, 0x4E, 0x45, 0x52, 0x31] ++ serial ++ natLE 1 1 ++ List.replicate 32 1) = true := by
  refine ⟨⟨rfl, rfl⟩, rfl, rfl, rfl, ?_, ?_, ?_⟩
  · rw [test_ownerSlice]
    rfl
  · have h := slice_append_right (tPub tOwnerMsg) (natLE 4 1296 ++ tRelSig) 0 4
    rw [test_pub_length] at h
    rw [fld, show slice tOwnerRest 60 4 = slice (natLE 4 1296 ++ tRelSig) 0 4 from h, tOwnerRest, List.length_append, test_pub_length]
    decide +kernel
  · rw [test_ownerSlice, test_ownerDrop]
    exact test_signed _

/-- `tState` with context 0 open. -/
def tWith (x : Ctx) : State := { tState with dx := { tState.dx with ctxs := [(0, x)] } }

/-- Context 0 open and idle. -/
def tIdle : State := tWith (tCtx none)

/-- Context 0 whose close waits for a flush in progress, and the same with the flush over. -/
def tClosing : State := tWith { tCtx none with closing := some (some (.owner, 4)) }

/-- Context 0 of `tIdle` with that KV record. -/
def tKv (k : KvRec) : State := { tIdle with km := { tIdle.km with recs := [(0, k)] } }

theorem test_witness_ContextsOpenAndClose :
    tState.Performs (.field 0) Msg.ctxOpen 0 ∧ tState.openRefusal (.field 0) 0 0 0 = none ∧ tState.ctxField 0 = some 0 ∧
      tState.openRefusal (.field 0) 15 0 1 = none ∧ tState.ctxField 15 = some 0 ∧ tIdle.Performs (.field 0) Msg.ctxClose 0 ∧
      tIdle.outsideField (.field 0) 0 = false ∧ tIdle.ctx 0 = some (tCtx none) ∧ (tCtx none).isClosing = false ∧
      (tCtx none).busy = false ∧ tIdle.closeWaits 0 = false ∧ (tKv ⟨1, 0, false, false, 64, 0, false⟩).closeWaits 0 = true ∧
      tClosing.dxUp = true ∧ tClosing.closeWaits 0 = false ∧ tIdle.Performs (.field 0) Msg.ctxResume 0 ∧
      tIdle.Performs (.field 1) Msg.ctxResume 0 ∧ tIdle.outsideField (.field 1) 0 = true :=
  ⟨⟨by decide, by decide⟩, by decide, by decide, by decide, by decide, ⟨by decide, by decide⟩, by decide, by decide, by decide, by decide,
    by decide, by decide, by decide, by decide, ⟨by decide, by decide⟩, ⟨by decide, by decide⟩, by decide⟩

theorem test_witness_JobsAndCountersServeTheHost :
    (tTape 0 0 none [0]).Performs (.field 0) Msg.jobSubmit 4 ∧ tIdle.submitRefusal 0 0 = none ∧
      tIdle.Performs (.field 0) Msg.jobAbort 0 ∧ tIdle.Performs (.field 0) Msg.counter 4 ∧
      tIdle.counterRefusal (.field 0) false 0 0 7 = none ∧ tIdle.counterRefusal (.field 0) false 1 0 511 = none ∧
      tIdle.counterRefusal .owner true 1 0 0 = none ∧ (1 ≤ (5#32 - 4#32).toNat ∧ (5#32 - 4#32).toNat ≤ 2 ^ 31 - 1) :=
  ⟨⟨by decide, by decide⟩, by decide +kernel, ⟨by decide, by decide⟩, ⟨by decide, by decide⟩, by decide⟩

/-- A KV operation of field 0's session on context 0 is performed. -/
theorem test_kvPerforms (k : KvRec) (h : k.flush = 0) (b : Bool) : (tKv k).KvPerforms (.field 0) 0 0 b false none := by
  refine ⟨⟨rfl, rfl⟩, rfl, rfl, rfl, rfl, rfl, Or.inr ?_, Or.inl rfl⟩
  cases k; cases h; cases b <;> rfl

/-- The pages of frames 0 to 3 of KM's system object, in the tier cache. -/
def tFramePages : Map Page := (List.range 16).map (fun i => (0xF00000 + i, { Page.fresh 4095 0 with home := 1, loc := i }))

/-- A cache of 70 tokens, its block 0 linked to frame 3. -/
def tCut : State :=
  let s := tKv ⟨0, 0, false, false, 70, 0, false⟩
  { s with km := { s.km with table := [(0, 3)], descs := [(3, ⟨1, 0, true, false, false, false, false, 0, 0⟩)] }
           tu := { s.tu with pages := tFramePages } }

theorem test_witness_KvCachesAreStartedCutAndFreed_copy :
    let u := (tCut.takeRequest (.field 0) 1 Msg.kv).kmCheck 2
    tDone (u.copyTokens 0 (1 % 64) (u.blockSource 0 0 (1 / 64))).2 = true := by decide +kernel

theorem test_witness_KvCachesAreStartedCutAndFreed :
    (tKv ⟨0, 0, false, false, 0, 0, false⟩).KvPerforms (.field 0) 0 0 false false none ∧
      (tKv ⟨0, 0, false, false, 0, 0, false⟩).stageOk 64 = true ∧ ((tKv ⟨0, 0, false, false, 0, 0, false⟩).kv 0).tc = 0 ∧
      (tKv ⟨0, 0, false, false, 70, 0, false⟩).KvPerforms (.field 0) 0 0 false false none ∧
      1 ≤ ((tKv ⟨0, 0, false, false, 70, 0, false⟩).kv 0).tc ∧ ((tKv ⟨0, 0, false, false, 70, 0, false⟩).kv 0).linked ≤ 65 / 64 ∧
      1 / 64 < ((tKv ⟨0, 0, false, false, 70, 0, false⟩).kv 0).linked ∧ (tKv ⟨0, 0, false, false, 70, 0, false⟩).stageOk 0 = true ∧
      (tKv ⟨0, 0, false, false, 70, 0, false⟩).KvPerforms (.field 0) 0 0 true false none :=
  ⟨test_kvPerforms _ rfl _, by decide, by decide, test_kvPerforms _ rfl _, by decide, by decide, by decide, by decide, test_kvPerforms _ rfl _⟩

/-- The pages of frames 0 to 3, from page `lo` of them on under migration, the others unbacked. -/
def tFrames (lo : Nat) : Map Page :=
  (List.range 16).map (fun i => (0xF00000 + i, { Page.fresh 4095 0 with busy := decide (lo ≤ i) }))

/-- A cache of one linked block in frame 0, whose REFS is `refs`, in the given KM mode, with `free` free frames from frame 1 on. -/
def tCache (mode refs free lo : Nat) : State :=
  let s := (tKv ⟨0, 0, false, false, 65, 0, false⟩).setF Reg.kmCtl 0 0 mode
  { s with km := { s.km with table := [(0, 0)], descs := [(0, ⟨refs, 0, true, false, false, false, false, 0, 0⟩)], free := free, head := 1 }
           tu := { s.tu with pages := (0xEF0000, { Page.fresh 4095 0 with home := 1, loc := 20 }) :: tFrames lo } }

/-- Pages `lo` to 15 of the frames are under migration, and nothing else stands in the way of a write. -/
def tHeld (lo : Nat) (s : State) : Prop :=
  s.tu.objs = [] ∧ s.tu.poison = [] ∧ s.mcStage = none ∧ (List.range 16).all (fun q =>
    decide (q < lo) || (Map.find s.tu.pages (0xF00000 + q)).any (fun p => p.holds && p.mig != 5)) = true

theorem test_heldPage (lo q : Nat) (s : State) (bs : List Byte) (h : tHeld lo s) (hl : lo ≤ q) (hq : q < 16) :
    ∃ t, s.writePage 0 ((0xF00000 + q) * 65536) bs .km = (t, .done ()) ∧ tHeld lo t ∧ t.km = s.km := by
  obtain ⟨ho, hp, hm, hb⟩ := h
  have hc := List.all_eq_true.mp hb q (List.mem_range.mpr hq)
  rw [decide_eq_false (by omega : ¬ q < lo), Bool.false_or, Option.any_eq_true] at hc
  obtain ⟨p, hf, hy⟩ := hc
  obtain ⟨hy, hg⟩ := Bool.and_eq_true_iff.mp hy
  have hd : (0xF00000 + q) * 65536 / 65536 = 0xF00000 + q := by omega
  refine ⟨{ s with tu := { s.tu with heldWrites := s.tu.heldWrites ++ [⟨0, (0xF00000 + q) * 65536, bs, .km⟩] } }, ?_, ⟨ho, hp, hm, hb⟩, rfl⟩
  have hpg : s.page 0 (0xF00000 + q) = some p := by
    rw [State.page, show pageKey 0 (0xF00000 + q) = 0xF00000 + q by simp [pageKey], hf, Option.filter_some, if_pos hg]
  simp [State.writePage, hd, hpg, State.blocked, State.partialCheck, State.poisonIn, hp, hm, hy]

theorem test_heldPages (lo : Nat) : ∀ (n q : Nat) (s : State) (bs : List Byte), tHeld lo s → lo ≤ q → q + n ≤ 16 →
    tDone (s.tuWriteAux 0 ((0xF00000 + q) * 65536) bs .km n).2 = true ∧
      (s.tuWriteAux 0 ((0xF00000 + q) * 65536) bs .km n).1.km = s.km
  | 0, _, _, _, _, _, _ => ⟨rfl, rfl⟩
  | n + 1, q, s, bs, h, hl, hq => by
    obtain ⟨t, ht, hh, hk'⟩ := test_heldPage lo q s (bs.take 65536) h hl (by omega)
    have hk : 65536 - (0xF00000 + q) * 65536 % 65536 = 65536 := by omega
    have hn : (0xF00000 + q) * 65536 + 65536 = (0xF00000 + (q + 1)) * 65536 := by omega
    simp only [State.tuWriteAux, hk]
    split
    · exact ⟨rfl, rfl⟩
    · rw [ht, hn, ← hk']
      exact test_heldPages lo n (q + 1) t (bs.drop 65536) hh (by omega) (by omega)

/-- A frame's bytes are written to pages under migration. -/
theorem test_heldFrame (lo q : Nat) (s : State) (bs : List Byte) (h : tHeld lo s) (hl : lo ≤ q) (hq : q ≤ 10) (hb : bs.length = 262144)
    (hw : s.writable 0 ((0xF00000 + q) * 65536) 262144 .km = none) :
    tDone (s.tuWrite 0 ((0xF00000 + q) * 65536) bs .km).2 = true ∧ (s.tuWrite 0 ((0xF00000 + q) * 65536) bs .km).1.km = s.km := by
  have he : s.fetchEnds 0 ((0xF00000 + q) * 65536) 262144 = (s, false) := by
    rw [State.fetchEnds, if_pos (by omega), if_pos (by omega)]
    rfl
  simp only [State.tuWrite, hb, hw, he]
  exact test_heldPages lo 6 q s bs h hl (by omega)

theorem test_heldMove (lo q a : Nat) (s : State) (h : tHeld lo s) (hl : lo ≤ q) (hq : q ≤ 10)
    (hw : s.writable 0 ((0xF00000 + q) * 65536) 262144 .km = none) (hk : s.kmReach a 262144 = true)
    (hc : s.cmRead a 262144 = (s, false)) :
    tDone (s.move ⟨.unified 0 ((0xF00000 + q) * 65536), .commons a, 262144⟩).2 = true ∧
      (s.move ⟨.unified 0 ((0xF00000 + q) * 65536), .commons a, 262144⟩).1.km = s.km := by
  have t := test_heldFrame lo q s (s.read a 262144) h hl hq (State.read_length _ _ _) hw
  simpa only [State.move, State.readPlace, State.writePlace, hk, hc, Bool.not_true, Bool.false_eq_true, if_false] using t

/-- The same, in an image whose other field's headland keeps every node for itself. -/
def tNoNode : State :=
  let f1 : FieldRec := { tField with id := 1, ctxFirst := 16, headland := 65536 }
  { tCache 1 1 5 4 with image := some { tImage with fields := [{ tField with headland := 0 }, f1] } }

/-- A block of frame 0 is being fetched again by TU, so that no copy of the frame can be read. -/
def tAwaited (s : State) : State := { s with tu := { s.tu with poison := [⟨0, 0xF000000000, false, false, [], []⟩] } }

/-- Publishing one block of context 0. -/
def tPublish (s : State) : Published :=
  (((s.takeRequest (.field 0) 1 Msg.kv).kmCheck 2).useKm 0).publishBlocks 0 0 0 0 0xFFFF 0 0 false 1

/-- What it answers: the code, and whether a copy was made; none where it waits. -/
def tPublishCode (s : State) : Option (Nat × Bool) :=
  match tPublish s with
  | .ok (_, _, c, copied) => some (c, copied)
  | .error _ => none

/-- The tree with one node, of block 0 of tokens at 0 with tag 0, whose frame's REFS is `refs`. -/
def tTree (refs free : Nat) : State :=
  match tPublish (tCache 1 refs free 4) with
  | .ok (w, _) => w
  | .error _ => State.reset

/-- What adopting 64 tokens into context 1 answers there: the blocks matched; none where it waits. -/
def tAdopt (s : State) : Option Nat :=
  match (((s.takeRequest (.field 0) 1 Msg.kv).kmCheck 2).useKm 0).adoptBlocks 1 0 0 0 0xFFFF 0 0 false (min 1024 (64 / 64)) with
  | .ok (_, m, _) => some m
  | .error _ => none

/-- A REFS of 65,535 at the tree's one frame. -/
def tFullRefs (s : State) : State := s.updDesc 0 (fun d => { d with refs := 65535 })

theorem test_kvTree (s : State) (c : Nat) (b : Bool) (h : (s.canTake (.field 0) 4 && (s.msgGate (.field 0) Msg.kv).isNone && !s.hostWaits &&
    s.hostSlot (.field 0) 0 && s.mcStage.isNone && decide (s.ctxField c = some 0) && (b || !s.kvBusy c false)) = true) (m : Bool)
    (hm : s.kmService = m) : s.KvPerforms (.field 0) c 0 false b (some m) := by
  simp only [Bool.and_eq_true, Option.isNone_iff_eq_none, Bool.not_eq_true', decide_eq_true_eq, Bool.or_eq_true] at h
  obtain ⟨⟨⟨⟨⟨⟨a1, a2⟩, a3⟩, a4⟩, a5⟩, a6⟩, a7⟩ := h
  exact ⟨⟨a1, a2⟩, a3, a4, a5, a6, rfl, a7, Or.inr (by rw [hm])⟩

theorem test_witness_ThePrefixTreeIsUsed_adopt :
    (tTree 1 5).KvPerforms (.field 0) 1 0 false false (some true) ∧ ((tTree 1 5).kv 1).tc = 0 ∧ inCommons 0 (4 * 64) = true ∧
      (((tTree 1 5).takeRequest (.field 0) 1 Msg.kv).kmCheck 2).tokensRead 0 (256 * min 1024 (64 / 64)) =
        (((tTree 1 5).takeRequest (.field 0) 1 Msg.kv).kmCheck 2, none) ∧ tAdopt (tTree 1 5) = some 1 ∧
      (tAwaited (tFullRefs (tTree 1 5))).KvPerforms (.field 0) 1 0 false false (some true) ∧
      tAdopt (tAwaited (tFullRefs (tTree 1 5))) = none :=
  ⟨test_kvTree _ _ _ (by decide +kernel) _ (by decide +kernel), by decide +kernel, by decide, rfl, by decide +kernel,
    test_kvTree _ _ _ (by decide +kernel) _ (by decide +kernel), by decide +kernel⟩

theorem test_witness_ThePrefixTreeIsUsed_publish :
    (tCache 1 1 5 4).KvPerforms (.field 0) 0 0 false true (some true) ∧ ((tCache 1 1 5 4).kv 0).linked = 1 ∧
      inCommons 0 (256 * 1) = true ∧ tPublishCode (tCache 1 1 5 4) = some (Code.ok, false) ∧
      tNoNode.KvPerforms (.field 0) 0 0 false true (some true) ∧ tPublishCode tNoNode = some (Code.nodesFull, false) ∧
      tPublishCode (tCache 1 65535 0 4) = some (Code.pageStarved, false) ∧ tPublishCode (tAwaited (tCache 1 65535 5 4)) = none ∧
      (tAwaited (tCache 1 65535 5 4)).KvPerforms (.field 0) 0 0 false true (some true) :=
  ⟨test_kvTree _ _ _ (by decide +kernel) _ (by decide +kernel), by decide +kernel, by decide, by decide +kernel,
    test_kvTree _ _ _ (by decide +kernel) _ (by decide +kernel), by decide +kernel, by decide +kernel, by decide +kernel,
    test_kvTree _ _ _ (by decide +kernel) _ (by decide +kernel)⟩

theorem test_witness_ThePrefixTreeIsUsed_prune :
    (tTree 1 5).Performs (.field 0) Msg.kv 4 ∧ (tTree 1 5).kmService = true ∧ ((tTree 1 5).fieldRec 0).isSome = true ∧
      (tTree 1 5).hostSlot (.field 0) 0 = true ∧ (tTree 1 5).hostWaits = false :=
  ⟨⟨by decide +kernel, by decide +kernel⟩, by decide +kernel⟩

/-- What forking `t` tokens of context 0 into context 1 comes to: none where it fails. -/
def tFork (s : State) (t : Nat) (copied : Bool) : Option Bool :=
  match s.forkBlocks 0 1 0 0 copied (t / 64) with
  | .done _ c => some c
  | _ => none

/-- The states in which KV_FORK and KV_LOAD act: a cache of one block whose frame REFS is `refs`. -/
def tKvAct (refs free lo : Nat) : State := ((tCache 0 refs free lo).takeRequest (.field 0) 1 Msg.kv).kmCheck 2

/-- The state once the tail's one token is copied. -/
def tTail (refs free : Nat) : State × Tried Unit :=
  (tKvAct refs free 4).copyTokens 1 (65 % 64) ((tKvAct refs free 4).blockSource 0 0 (65 / 64))

theorem test_witness_CachesAreForkedAndLoaded_fork :
    (tCache 0 1 5 4).KvPerforms (.field 0) 0 0 false false (some false) ∧ (tCache 0 1 5 4).kvBusy 1 false = false ∧
      (tCache 0 1 5 4).ctxField 1 = some 0 ∧ ((tCache 0 1 5 4).kv 0).tc = 65 ∧ ((tCache 0 1 5 4).kv 1).tc = 0 ∧
      (tCache 0 1 5 4).stageOk ((tCache 0 1 5 4).kv 1).stage = true ∧ tFork (tKvAct 1 5 4) 64 false = some false ∧
      tFork (tKvAct 65535 0 4) 64 false = none ∧ tDone (tTail 1 5).2 = true ∧ tFork (tTail 1 5).1 65 true = some true ∧
      tDone (tTail 65535 0).2 = true ∧ tFork (tTail 65535 0).1 65 true = none :=
  ⟨test_kvTree _ _ _ (by decide +kernel) _ (by decide +kernel), by decide +kernel⟩

theorem test_witness_CachesAreForkedAndLoaded_load :
    (tCache 0 1 5 0).KvPerforms (.field 0) 0 0 false false (some false) ∧ (tCache 0 2 5 4).KvPerforms (.field 0) 0 0 false false (some false) ∧
      (tCache 0 1 5 0).entry 0 0 = some 0 ∧ ((tCache 0 1 5 0).kv 0).linked = 1 ∧ inCommons 0x100000 (tCache 0 1 5 0).frameBytes = true ∧
      (((tKvAct 1 5 0).kmCheck 0).desc 0).refs = 1 ∧ (((tKvAct 2 0 4).kmCheck 0).desc 0).refs ≠ 1 ∧
      ((tKvAct 2 0 4).takeFrame 0).isNone = true ∧ ((tKvAct 2 0 4).reclaimFrame 0).isNone = true :=
  ⟨test_kvTree _ _ _ (by decide +kernel) _ (by decide +kernel), test_kvTree _ _ _ (by decide +kernel) _ (by decide +kernel),
    by decide +kernel⟩

/-- KV_LOAD in place: frame 0, its pages under migration, takes the bytes at commons address 1 MiB. -/
theorem test_witness_CachesAreForkedAndLoaded_inPlace :
    tDone ((tKvAct 1 5 0).move ⟨.unified 0 ((0xF00000 + 0) * 65536), .commons 0x100000, 262144⟩).2 = true ∧
      (tKvAct 1 5 0).frameUa 0 = (0xF00000 + 0) * 65536 ∧ (tKvAct 1 5 0).frameBytes = 262144 :=
  ⟨(test_heldMove 0 0 _ _ ⟨rfl, rfl, rfl, by decide +kernel⟩ (by decide) (by decide) (by decide +kernel) (by decide +kernel) rfl).1,
    by decide +kernel⟩

/-- KV_LOAD into a frame of its own: the list's first is frame 1, which takes the old one's place in the table. -/
theorem test_witness_CachesAreForkedAndLoaded_loadOwn :
    ∃ v, (tKvAct 2 5 4).takeFrame 0 = some (1, v) ∧ v.frameUa 1 = (0xF00000 + 4) * 65536 ∧ v.frameBytes = 262144 ∧
      tDone (v.move ⟨.unified 0 ((0xF00000 + 4) * 65536), .commons 0x100000, 262144⟩).2 = true :=
  ⟨_, rfl, by decide +kernel, by decide +kernel,
    (test_heldMove 4 4 _ _ ⟨rfl, rfl, rfl, by decide +kernel⟩ (by decide) (by decide) (by decide +kernel) (by decide +kernel) rfl).1⟩

/-! ### The copier and state streams -/

/-- A flush of context 0 into frame 0 at the copier's head, with its copy made or not, and with or without an open walk. -/
def tFlush (written : Bool) (walks : List (Nat × Nat)) : State :=
  let s := tCache 0 1 5 0
  { s with km := { s.km with copier := [.flush 0 0 written], walks := walks } }

/-- A write to frame 0's pages that a neighbour has still to answer. -/
def tOwed (s : State) : State := { s with lx := { s.lx with tags := [⟨0, 0, .tierWrite 0 0xF000000000 64⟩] } }

/-- A host operation at the copier's head, with or without a held MODE write. -/
def tHostOp (m : Option Nat) : State :=
  { tState with km := { tState.km with copier := [.host .owner 3 0 [1, 0, 0, 0]], heldMode := m } }

theorem test_witness_TheCopierFinishesItsWork :
    [[], [(0, 0)]].all (fun w => (tFlush true w).kmUp && (tFlush true w).blockSlot ((tFlush true w).desc 0).field &&
      (tFlush true w).writesDone 0 ((tFlush true w).frameUa 0) (tFlush true w).frameBytes &&
      (tFlush false w).frameUa 0 == (0xF00000 + 0) * 65536 && (tFlush false w).frameBytes == 262144) = true ∧
      (tFlush true [(0, 0)]).km.walks.any (fun w => w.1 == 0) = true ∧ (tFlush true []).km.walks.any (fun w => w.1 == 0) = false ∧
      (tOwed (tFlush true [])).kmUp = true ∧ (tOwed (tFlush true [])).blockSlot 0 = true ∧
      (tOwed (tFlush true [])).writesDone 0 ((tFlush true []).frameUa 0) (tFlush true []).frameBytes = false := by decide +kernel

/-- The flush copy is made, and leaves KM's state as it was, the open walks with it. -/
theorem test_witness_TheCopierFinishesItsWork_copy (w : List (Nat × Nat)) (hw : w = [] ∨ w = [(0, 0)]) :
    tDone ((tFlush false w).flushCopy 0 0 0).2 = true ∧ ((tFlush false w).flushCopy 0 0 0).1.km = (tFlush false w).km := by
  have h : tHeld 0 (tFlush false w) ∧ (tFlush false w).writable 0 ((0xF00000 + 0) * 65536) 262144 .km = none ∧
      (tFlush false w).kmReach 262144 262144 = true ∧ (tFlush false w).cmRead 262144 262144 = (tFlush false w, false) ∧
      (tFlush false w).flushCopy 0 0 0 =
        (tFlush false w).move ⟨.unified 0 ((0xF00000 + 0) * 65536), .commons 262144, 262144⟩ := by
    obtain rfl | rfl := hw <;>
      exact ⟨⟨rfl, rfl, rfl, by decide +kernel⟩, by decide +kernel, by decide +kernel, rfl, rfl⟩
  generalize tFlush false w = s at h
  rw [h.2.2.2.2]
  exact test_heldMove 0 0 262144 s h.1 (by decide) (by decide) h.2.1 h.2.2.1 h.2.2.2.1

/-- A flush whose frame has no home to be had: its pages are unbacked, and no memory lies below. -/
def tNoRoom : State :=
  let s := tFlush false []
  { s with tu := { s.tu with pages := (List.range 16).map (fun i => (0xF00000 + i, Page.fresh 4095 0)) } }

theorem test_witness_TheCopierFinishesItsWork_refused :
    tNoRoom.kmUp = true ∧ tNoRoom.blockSlot (tNoRoom.desc 0).field = true ∧
      (match (tNoRoom.flushCopy 0 0 0).2 with | .code c => c == Code.tierFull | _ => false) = true := by decide +kernel

theorem test_witness_TheCopierFinishesItsWork_heldAndHost :
    (tKv ⟨0, 0, false, true, 65, 0, false⟩).kmUp = true ∧ ((tKv ⟨0, 0, false, true, 65, 0, false⟩).kv 0).held = true ∧
      (tKv ⟨0, 0, false, true, 65, 0, false⟩).km.walks.any (fun w => w.1 == 0) = false ∧
      (tKv ⟨0, 0, false, true, 65, 0, false⟩).blockSlot 0 = true ∧ (tKv ⟨0, 0, false, true, 65, 0, false⟩).mcStage = none ∧
      [none, some 1].all (fun m => (tHostOp m).kmUp && (tHostOp m).hostSlot .owner 0 &&
        (tHostOp m).writesDone 0 0xEF00000000 (2 ^ 40 - 0xEF00000000) && (tHostOp m).canTake .owner 4) = true := by decide +kernel

/-- `tState` with a stream of context 0 and that swap path. -/
def tStream (q : StreamRec) (l : List SwapReq) : State := { tState with se := { tState.se with streams := [(0, q)], swapQ := l } }

/-- A stream with its swap area in the object of `tTier`; a resident one holds slot 0. -/
def tSwapped (l : List SwapReq) (q : StreamRec) : State :=
  { tTier false with se := { tState.se with streams := [(0, q)], swapQ := l, slots := if q.state = 1 then [(0, ⟨0, 0, 0, 0, 0⟩)] else [] } }

theorem test_witness_StateStreamsAreServed :
    tState.Performs (.field 0) Msg.st 0 ∧ tState.ctxField 0 = some 0 ∧ tState.idleCtx 0 = true ∧ tState.stream 0 = none ∧
      tState.slotTotal ≠ 0 ∧ (2 ^ 40 - 49152) % 4096 = 0 ∧ (2 ^ 40 - 49152) + 8 * 6144 ≤ 2 ^ 40 ∧
      (tStream ⟨2, false, true, 1, 0, 0⟩ []).Performs .owner Msg.st 0 ∧ (tStream ⟨2, false, true, 1, 0, 0⟩ []).idleCtx 0 = true ∧
      (tSwapped [] ⟨1, false, false, 1, 0, 0⟩).Performs .owner Msg.st 0 ∧ (tSwapped [] ⟨1, false, false, 1, 0, 0⟩).idleCtx 0 = true :=
  ⟨⟨by decide, by decide⟩, by decide, by decide, by decide, by decide, by decide, by decide, ⟨by decide, by decide⟩, by decide,
    ⟨by decide, by decide⟩, by decide⟩

/-- Swapping out of a resident stream; where `bad`, a bank that holds its slot is uncorrectable. -/
def tOut (bad : Bool) : State :=
  (tSwapped [.out 0] ⟨1, false, false, 1, 0, 0⟩).setReg Reg.cmInject (if bad then 2 + 256 * 32 else 0)

/-- What reading the slot's banks answers. -/
def tOutRead (bad : Bool) : State × Bool :=
  ((tOut bad).streamSlots ⟨1, false, false, 1, 0, 0⟩).foldl (fun (a : State × Bool) k =>
      ((a.1.cmRead (a.1.slotBank k 0) 12288).1, a.2 || (a.1.cmRead (a.1.slotBank k 0) 12288).2)) (tOut bad, false)

theorem test_witness_StateStreamsAreServed_out :
    (tOut false).seUp = true ∧ (tOut false).blockSlot 0 = true ∧ (tOutRead false).2 = false ∧
      tDone ((tOutRead false).1.tuWrite 0 0 (((tOut false).streamSlots ⟨1, false, false, 1, 0, 0⟩).flatMap (tOut false).savedSlot)
        .swap).2 = true ∧ (tOut true).seUp = true ∧ (tOut true).blockSlot 0 = true ∧ (tOutRead true).2 = true := by decide +kernel

/-- Swapping in a stream that was open in a step when it was displaced, blank or saved. -/
def tInto (zero : Bool) : State :=
  let s := tSwapped [.into 0] ⟨3, zero, false, 1, 0, 0⟩
  { s with se := { s.se with displaced := [0] } }

theorem test_witness_StateStreamsAreServed_into :
    [false, true].all (fun z => (tInto z).seUp && (tInto z).blockSlot 0 && decide ((tInto z).ctxField 0 = some 0)) = true ∧
      tDone ((tInto false).tuRead 0 0 (6144 * 1) false).2 = true ∧
      (match (({ tInto false with tu := { tState.tu with objs := [] } } : State).tuRead 0 0 (6144 * 1) false).2 with
        | .code _ => true
        | _ => false) = true ∧
      ({ tInto false with tu := { tState.tu with objs := [] } } : State).seUp = true := by decide +kernel

/-! ### Tiers -/

/-- A sowing list of one entry at commons address 0: 64 bytes of unified address 0 into segment 0, read once. -/
def tListed (s : State) : State := s.write 0 (natLE 8 0 ++ natLE 4 64 ++ [0, 1] ++ natLE 2 1)

/-- `tTier` with that list, and what TU checks first. -/
def tTu : State := ((tListed (tTier false)).takeRequest (.field 0) 1 Msg.tu).check Reg.tuInject Reg.tuErr 0 31 none

/-- The object's pages replaced. -/
def tPaged (ps : List (Nat × Page)) : State := { tTier false with tu := { (tTier false).tu with pages := ps } }

/-- A page of the object in a neighbour's page 0 of entry 7. -/
def tFarPage : Page := { Page.fresh 5 2 with home := 3, loc := 7 * 2 ^ 25 }

/-- Page 0 is BUSY. -/
def tBusyPage : State := tPaged [(0, { tPage 0 with busy := true, mig := 1, target := some (1, 5) })]

theorem test_witness_TierOperationsAreServed_map :
    (tListed (tTier false)).Performs (.field 0) Msg.tu 0 ∧ (tListed (tTier false)).tu.op = none ∧ (tTier false).slotWait 0 = false ∧
      Role.mayField (.field 0) 0 = true ∧ tTu.mapBad 0 6 0x20000 1 4 3 2 1023 = false ∧ (tTu.needLeaves 0 0x20000 1).isSome = true ∧
      tTu.mapBad 0 4094 0x10000000 1 0 0 0 0 = false ∧ tTu.needLeaves 0 0x10000000 1 = none :=
  ⟨⟨by decide, by decide⟩, by decide +kernel⟩

theorem test_witness_TierOperationsAreServed_unmap :
    (tTier false).Performs (.field 0) Msg.tu 0 ∧ (tTier false).objOf 0 5 = some (tObj false) ∧ (tObj false).shared = false ∧
      ((tTier false).objPages 0 (tObj false)).all (fun p => p.2.pins == 0 && !p.2.busy) = true ∧
      tBusyPage.Performs (.field 0) Msg.tu 0 ∧ tBusyPage.objOf 0 5 = some (tObj false) ∧ tBusyPage.tu.op = none ∧
      (tBusyPage.objPages 0 (tObj false)).all (fun p => p.2.pins == 0) = true ∧
      (tBusyPage.objPages 0 (tObj false)).any (fun p => p.2.busy) = true :=
  ⟨⟨by decide, by decide⟩, by decide +kernel, by decide, by decide +kernel, ⟨by decide, by decide⟩, by decide +kernel⟩

theorem test_witness_TierOperationsAreServed_place :
    (tPaged [(0, tFarPage)]).Performs (.field 0) Msg.tu 0 ∧ ((tPaged [(0, tFarPage)]).runObj 0 0 2).isSome = true ∧
      (((tPaged [(0, tFarPage)]).takeRequest (.field 0) 1 Msg.tu).check Reg.tuInject Reg.tuErr 0 31 none).homesFor 0 1
        ((tPaged [(0, tFarPage)]).runPages 0 0 2) = true ∧
      ((tTier false).runPages 0 0 2).all (fun q => q.2.home == 1 && decide (q.2.pins < 255) && !q.2.busy) = true ∧
      (tBusyPage.runObj 0 0 1).isSome = true ∧ (tBusyPage.runPages 0 0 1).any (fun q => q.2.busy) = true ∧
      (tBusyPage.runPages 0 0 1).all (fun q => decide (q.2.pins < 255)) = true :=
  ⟨⟨by decide, by decide⟩, by decide +kernel⟩

theorem test_witness_TierOperationsAreServed_evacuate :
    (tPaged [(0, tFarPage)]).Performs .owner Msg.tu 0 ∧
      (((tPaged [(0, tFarPage)]).takeRequest .owner 1 Msg.tu).dropShadows 7).tu.pages.filter (fun q => q.2.inEntry 7) = [(0, tFarPage)] ∧
      tFarPage.pins = 0 ∧
      (((tPaged [(0, tFarPage)]).takeRequest .owner 1 Msg.tu).dropShadows 0).tu.pages.filter (fun q => q.2.inEntry 0) = [] :=
  ⟨⟨by decide, by decide⟩, by decide +kernel⟩

theorem test_witness_TierOperationsAreServed_sow :
    tTu.ctxField 15 = some 0 ∧ (tTu.cmRead 0 (16 * 1)).2 = false ∧ (tTu.cmRead 0 (16 * 1)).1.sowOk 0 1 = true ∧
      (tTu.cmRead 0 (16 * 1)).1.tu.sow = none := by decide +kernel

/-- Page 0 with that descriptor, asked to a home. -/
def tAsked (p : Page) (home : Nat) : State := { tPaged [(0, p)] with tu := { (tPaged [(0, p)]).tu with pending := [(0, home)] } }

/-- An evacuation of entry 7 waits. -/
def tEvac (s : State) : State := { s with tu := { s.tu with op := some (.owner, 4, .evacuate 7) } }

/-- What every clause on the start of a migration asks of the state. -/
def tMayMove (s : State) (home : Nat) : Bool :=
  decide (Map.find s.tu.pending (pageKey 0 0) = some home) && s.tuUp && !s.slotWait 0 && (s.page 0 0).any (fun p => !p.busy) &&
    !s.unmapWaits 0 0

/-- Every slot of the tier cache is taken, by pages of the object that may be evicted or are pinned. -/
def tCacheFull (pins : Nat) : State :=
  let ps := (List.range 256).map (fun i => (8192 + i, { Page.fresh 5 2 with home := 1, loc := i / 16 * 2 ^ 24 + i % 16, pins := pins }))
  { tPaged ((0, tFarPage) :: ps) with tu := { (tPaged ((0, tFarPage) :: ps)).tu with pending := [(0, 1)] } }

theorem test_witness_MigrationsRunAndEnd_start :
    tMayMove (tAsked (Page.fresh 5 2) 2) 2 = true ∧ tMayMove (tAsked (tPage 0) 1) 1 = true ∧
      tMayMove (tAsked { tPage 0 with pins := 1 } 2) 2 = true ∧ tMayMove (tEvac (tAsked { tFarPage with pins := 1 } 2)) 2 = true ∧
      (tEvac (tAsked tFarPage 2)).evacuating tFarPage.loc = true ∧ (tAsked tFarPage 2).evacuating tFarPage.loc = false ∧
      tMayMove (tAsked tFarPage 1) 1 = true ∧ ((tAsked tFarPage 1).moveTarget 0 tFarPage 1).isSome = true ∧
      tMayMove (tAsked tFarPage 2) 2 = true ∧ ((tAsked tFarPage 2).moveTarget 0 tFarPage 2).isNone = true ∧
      tMayMove (tEvac (tAsked tFarPage 2)) 2 = true ∧ ((tEvac (tAsked tFarPage 2)).moveTarget 0 tFarPage 2).isNone = true := by
  decide +kernel

theorem test_witness_MigrationsRunAndEnd_full :
    tMayMove (tCacheFull 0) 1 = true ∧ ((tCacheFull 0).moveTarget 0 tFarPage 1).isNone = true ∧ ((tCacheFull 0).victim 0).isSome = true ∧
      ((tCacheFull 1).moveTarget 0 tFarPage 1).isNone = true ∧ (tCacheFull 1).victim 0 = none := by decide +kernel

/-- A promotion of page 0 whose bytes were on this device, and one whose copy has switched already; a lease is out. -/
def tMoving (t : Option (Nat × Nat)) : State :=
  let p : Page := { tPage 0 with busy := true, mig := 1, home := if t.isSome then 2 else 1, target := t }
  { tPaged [(0, p)] with tu := { (tPaged [(0, p)]).tu with leases := [⟨0, 0, 1, 9⟩] } }

theorem test_witness_MigrationsRunAndEnd_switch :
    ((tMoving (some (1, 5))).page 0 0).any (fun p => p.busy && p.mig == 1 && decide (p.target = some (1, 5)) && p.copying == 1 &&
        (tMoving (some (1, 5))).copyReady 0 0 p) = true ∧
      ((tMoving none).page 0 0).any (fun p => p.busy && p.target.isNone) = true ∧ (tMoving none).tuUp = true ∧
      (tMoving none).slotWait 0 = false ∧ (tMoving (some (1, 5))).tu.heldWrites = [] ∧ 0 < (tMoving none).tu.leases.length := by
  decide +kernel

/-- Block 1 of page 0 awaits its refetch; the page has a shadow in local GDDR6 where `sh`; its object has a replica where `rep`. -/
def tHurt (sh rep : Bool) : State :=
  let p : Page := { tPage 0 with mig := 4, busy := true, poison := true }
  let s := tPaged [(0, if sh then { p with shadow := true, shome := 2, sloc := 0 } else p)]
  { s with tu := { s.tu with
    objs := [(5, { tObj true with back := if rep then 1 else 0 })], poison := [⟨0, 64, false, false, [], []⟩] } }

theorem test_witness_PoisonedBlocksAndFurrowSegmentsAreFilled_poison :
    ((tTier false).page 0 (127 / 65536)).any (fun p => p.home == 1) = true ∧ (tTier false).tuUp = true ∧
      (tTier false).poisonIn 0 (127 / 64 * 64) 1 = [] ∧ (tHurt false true).tuUp = true ∧
      (tHurt false true).poisonAt 0 127 = some ⟨0, 64, false, false, [], []⟩ ∧
      (tHurt false true).shadowOut ⟨0, 64, false, false, [], []⟩ = false ∧
      (tHurt false true).ownCopy ⟨0, 64, false, false, [], []⟩ = none ∧ (tHurt false true).replicaOf ⟨0, 64, false, false, [], []⟩ = true ∧
      (tHurt true false).poisonAt 0 127 = some ⟨0, 64, false, false, [], []⟩ ∧
      (tHurt true false).shadowOut ⟨0, 64, false, false, [], []⟩ = false ∧
      (tHurt true false).ownCopy ⟨0, 64, false, false, [], []⟩ = some (List.replicate 64 0) := by decide +kernel

/-- The list bound to context 15, with those fills in flight; where `bad`, the bank that holds it is uncorrectable. -/
def tSown (flight : List (Nat × Nat)) (bad : Bool) : State :=
  let s := (tListed (tTier false)).setReg Reg.cmInject (if bad then 2 else 0)
  { s with tu := { s.tu with sow := some ⟨15, 0, 1, 0, flight, []⟩ } }

theorem test_witness_PoisonedBlocksAndFurrowSegmentsAreFilled_start :
    (tSown [] false).tuUp = true ∧ (tSown [] false).slotWait (((tSown [] false).ctxField 15).getD 8) = false ∧
      ((tSown [] false).cmRead (0 + 16 * 0) 16).2 = false ∧ ((tSown [] true).cmRead (0 + 16 * 0) 16).2 = true ∧ (tSown [] true).tuUp = true ∧
      (Sowing.isFree ⟨15, 0, 1, 0, [], []⟩ ((tSown [] false).sowEntry 0 0).2.2.1) = true ∧
      (Sowing.isFree ⟨15, 0, 1, 0, [(0, 0)], []⟩ ((tSown [(0, 0)] false).sowEntry 0 0).2.2.1) = false := by decide +kernel

/-- What the fill of segment 0 reads. -/
def tFill (s : State) : Tried (List Byte) := (s.tuRead 0 (s.sowEntry 0 0).1 (s.sowEntry 0 0).2.1 false).2

/-- A state whose first block of the object waits to be fetched again. -/
def tFillWaits : State :=
  { tSown [(0, 0)] false with tu := { (tSown [(0, 0)] false).tu with poison := [⟨0, 0, false, false, [], []⟩] } }

/-- A state without the object that the list reads. -/
def tFillFails : State := { tSown [(0, 0)] false with tu := { (tSown [(0, 0)] false).tu with objs := [], pages := [] } }

theorem test_witness_PoisonedBlocksAndFurrowSegmentsAreFilled_end :
    [tSown [(0, 0)] false, tFillWaits, tFillFails].all (fun s => s.tuUp && !s.slotWait 0 && decide (s.ctxField 15 = some 0)) = true ∧
      tDone (tFill (tSown [(0, 0)] false)) = true ∧
      (match tFill tFillWaits, tFill tFillFails with | .wait, .code _ => true | _, _ => false) = true := by decide +kernel

/-! ### DMA -/

/-- An enabled field channel 0 and owner channel 31, each taking every source of start, with a timer. -/
def tChan : State :=
  ((tState.setReg (Reg.dmChCFG 0) (2 ^ 63 + 15 * 2 ^ 44 + 4 * 2 ^ 11)).setReg (Reg.dmChCFG 31) (3 * 2 ^ 62 + 15 * 2 ^ 44)).setReg
    (Reg.dmChTIMER 31) (2 ^ 63 + 1)

/-- A run of channel 0 that has just begun. -/
def tRun : State := tChan.beginRun 0

/-- A start pending on an idle channel 0. -/
def tPending : State := tChan.setF (Reg.dmChSTAT 0) 30 30 1

theorem test_witness_ChannelsAreStartedAndAborted_start :
    bit (tChan.reg (Reg.dmChCFG 31)) 63 = true ∧ bit (tChan.reg (Reg.dmChCFG 31)) (44 + 3) = true ∧ (tChan.dmChan 31).run = none ∧
      (tRun.dmChan 0).run ≠ none ∧ bit (tRun.reg (Reg.dmChCFG 0)) 63 = true ∧ bit (tRun.reg (Reg.dmChCFG 0)) (44 + 0) = true ∧
      bit (tState.reg (Reg.dmChCFG 0)) 63 = false ∧ bit ((tChan.setReg (Reg.dmChCFG 1) (2 ^ 63)).reg (Reg.dmChCFG 1)) (44 + 2) = false ∧
      tChan.Performs (.field 0) Msg.dmStart 0 ∧ tChan.dmRole (.field 0) 0 = true ∧ tChan.dmRole (.field 0) 31 = false ∧
      tChan.dmUp = true ∧ bit (tChan.reg (Reg.dmChTIMER 31)) 63 = true ∧ bits (tChan.reg (Reg.dmChTIMER 31)) 31 0 = 1 :=
  ⟨by decide +kernel, by decide +kernel, by decide +kernel, by decide +kernel, by decide +kernel, by decide +kernel, by decide +kernel,
    by decide +kernel, ⟨by decide, by decide⟩, by decide +kernel⟩

theorem test_witness_ChannelsAreStartedAndAborted_abort :
    tChan.Performs .owner Msg.dmAbort 0 ∧ tPending.getF (Reg.dmChSTAT 0) 30 30 = 1 ∧ (tPending.dmChan 0).run = none ∧
      tPending.Performs .owner Msg.dmAbort 0 ∧ tRun.Performs .owner Msg.dmAbort 0 ∧ tChan.getF (Reg.dmChSTAT 0) 30 30 ≠ 1 :=
  ⟨⟨by decide, by decide⟩, by decide +kernel, by decide +kernel, ⟨by decide, by decide⟩, ⟨by decide, by decide⟩, by decide +kernel⟩

theorem test_witness_ChannelsAreStartedAndAborted_trigger :
    ((tTape 0 0 (some (tOpen 0)) [14 * 2 ^ 59 + 31]).meets 0 0x0E).isSome = true ∧
      (tTape 0 0 (some (tOpen 0)) [14 * 2 ^ 59 + 31]).inReset 32 = false := by decide +kernel

/-- A run of the owner with its lists of one entry each at 0 and 64, 64 bytes long once checked. -/
def tRunOf (checked : Bool) (code : Option Nat) (aborts : List (Option (Role × Nat))) : DmRun :=
  { tDmRun 0 (BitVec.ofNat 64 (2 ^ 42)) with
    cfg := BitVec.ofNat 64 (3 * 2 ^ 62), checked := checked, code := code, aborts := aborts
    srcs := if checked then [64] else [], dsts := if checked then [64] else [] }

/-- Channel `ch` of `s` with that run, its source at `src`, its destination entry `len` bytes at commons address 0x2000. -/
def tDm (s : State) (ch : Nat) (q : DmRun) (src len : Nat) : State :=
  { (s.write 0 (natLE 8 src ++ natLE 4 64 ++ natLE 4 0)).write 64 (natLE 8 0x2000 ++ natLE 4 len ++ natLE 4 0) with
    dm := [(ch, ⟨some q, []⟩)] }

/-- Before its pre-pass, channel 4 copies 64 bytes from commons address 0x1000. -/
def tUnchecked (len : Nat) : State := tDm tState 4 (tRunOf false none []) 0x1000 len

theorem test_witness_RunsAreCheckedCopiedAndReported_lists :
    ((tUnchecked 64).dmChan 4).run = some (tRunOf false none []) ∧ (tUnchecked 64).dmUp = true ∧
      (tUnchecked 64).dmWaits (tRunOf false none []) = false ∧ (tUnchecked 64).armed Reg.dmInject 1 = false ∧
      ((tUnchecked 64).setReg Reg.dmInject 2).armed Reg.dmInject 1 = true ∧ ((tUnchecked 64).setReg Reg.dmInject 2).dmUp = true ∧
      ((tUnchecked 64).dmListRead 4 (tRunOf false none [])).2 = none ∧
      ((tUnchecked 65).dmListRead 4 (tRunOf false none [])).2 = some Code.dmList ∧
      (((tUnchecked 64).setReg Reg.cmInject 2).dmListRead 4 (tRunOf false none [])).2 = some Code.memPoison := by decide +kernel

/-- The run on which the engines' work leaves channel `ch`: its code, the bytes written and the bytes to write. -/
def tWork (s : State) (ch stop : Nat) : Option (Option Nat × Nat × Nat) :=
  (((s.dmWork ch stop s.dmFuel).dmChan ch).run).map (fun p => (p.code, p.wrote, p.srcs.sum))

/-- Channel `ch` copies 64 bytes from `src` to commons address 0x2000, its lists checked. -/
def tChecked (s : State) (ch src : Nat) : State := tDm s ch (tRunOf true none []) src 64

theorem test_witness_RunsAreCheckedCopiedAndReported_work :
    ((tChecked tState 4 0x1000).dmChan 4).run = some (tRunOf true none []) ∧ (tChecked tState 4 0x1000).dmUp = true ∧
      tWork (tChecked tState 4 0x1000) 4 (2 ^ 64) = some (none, 64, 64) ∧
      tWork (tChecked tState 4 0x10000000) 4 (2 ^ 64) = some (some Code.badAddress, 0, 64) ∧
      tWork (tChecked tFar 4 0x11100000000) 4 (2 ^ 64) = some (none, 0, 64) ∧
      (tChecked tState 4 0x10000000).dmRuns (tRunOf true none []) = true ∧
      tWork (tChecked tState 4 0x10000000) 4 0 = some (some Code.badAddress, 0, 64) := by decide +kernel

/-- The read-back of channel 0, which writes at all-memory scope. -/
theorem test_witness_RunsAreCheckedCopiedAndReported_back :
    tWork (tChecked tState 0 0x1000) 0 (2 ^ 64) = some (none, 64, 64) ∧
      (let v := (tChecked tState 0 0x1000).dmWork 0 (2 ^ 64) (tChecked tState 0 0x1000).dmFuel
       ((v.dmChan 0).run).any (fun p => p.wr.isSome && (match (v.dmBack 0 p).2 with | .done => true | _ => false) &&
         !((v.dmBack 0 p).1.dmOut 0 p)) = true) := by decide +kernel

theorem test_witness_RunsAreCheckedCopiedAndReported_ended :
    ((tDm tState 4 (tRunOf true (some 3) []) 0 64).dmChan 4).run = some (tRunOf true (some 3) []) ∧
      (tDm tState 4 (tRunOf true (some 3) []) 0 64).dmOut 4 (tRunOf true (some 3) []) = false ∧
      (tDm tState 4 (tRunOf true none [none, some (.owner, 5)]) 0 64).dmOut 4 (tRunOf true none [none, some (.owner, 5)]) = false ∧
      (tDm tState 4 (tRunOf true none [none, some (.owner, 5)]) 0 64).dmUp = true := by decide +kernel

theorem test_witness_AFailedRunsReportIsExact :
    ((tDm tState 31 (tRunOf true (some 3) []) 0 64).dmChan 31).run = some (tRunOf true (some 3) []) ∧
      ((tDm tState 31 (tRunOf true (some 3) []) 0 64).dmChan 31).held = [] ∧
      (tDm tState 31 (tRunOf true (some 3) []) 0 64).getF (Reg.dmChSTAT 31) 30 30 = 0 ∧ Code.badAddress < 256 ∧
      Code.badAddress ≠ Code.ok ∧ Code.badAddress ≠ Code.aborted := by decide +kernel

/-! ### Soundings -/

/-- A pack of one ADD's length in slot 15, with the header of an empty matrix pack. -/
def tPack : Pack := ⟨0, 0, 128, []⟩

/-- SD with a loaded pack, running or not. -/
def tSounding (r : Option (Nat × Nat × Option Nat)) : State :=
  { tState.setF Reg.sdCtl 31 31 1 with sd := { tState.sd with packs := [(15, tPack)], run := r } }
theorem test_witness_SoundingsRunAndAreJudged :
    (tSounding none).Performs .owner Msg.sdLoad 0 ∧ (tSounding none).sdUp = true ∧ (tSounding none).getF Reg.sdCtl 31 31 ≠ 0 ∧
      (List.range 11).find? (fun e => (tSounding none).soundable [2] e && !((tSounding none).packsFor e []).isEmpty) = some 2 ∧
      (tSounding none).packsFor 2 [] = [15] ∧ Map.find (tSounding none).sd.packs 15 = some tPack ∧
      (tSounding (some (15, 2, none))).sdUp = true ∧ (tSounding (some (15, 2, none))).engineOn 2 = true ∧
      (tSounding (some (15, 2, none))).armed Reg.sdInject 1 = false ∧
      (let s := tSounding (some (15, 2, none))
       (s.soundRun 2 0 0 0 0 ((packGroups (s.read 0 128) 0).getD [])).armed Reg.sdInject 1 = false) :=
  ⟨⟨by decide, by decide⟩, by decide +kernel, by decide +kernel, by decide +kernel, by decide +kernel, by decide +kernel,
    by decide +kernel, by decide +kernel, by decide +kernel, by decide +kernel⟩

/-- A choice among one takes it. -/
theorem test_witness_SoundingsRunAndAreJudged_pick (s : State) : (s.pick 1).1 = 0 := by simp [State.pick, Nat.mod_one]


theorem test_witness_SoundingsRunAndAreJudged_armed :
    (let s := (tSounding (some (15, 2, none))).setReg Reg.sdInject 2
     s.sdUp && s.engineOn 2 && !s.inReset 2 &&
       (s.soundRun 2 0 0 0 0 ((packGroups (s.read 0 128) 0).getD [])).armed Reg.sdInject 1) = true := by decide +kernel

/-! ### Strands, engines and the commit point -/

/-- The header of a COMPUTE group of operator `op` with `n` operand words. -/
def tHdr (op n : Nat) : Nat := 2 ^ 59 + op * 2 ^ 48 + n * 2 ^ 12

/-- A control word of class `c` at word 0 of a matrix tape, its strand on engine 0 with the step open. -/
def tWord (c rest : Nat) : State := tTape 0 0 (some (tOpen 0)) [c * 2 ^ 59 + rest, 0]

/-- The same with no step open. -/
def tOuter (c : Nat) : State := tTape 0 0 none [c * 2 ^ 59, 0]

/-- The job of context 0 changed. -/
def tJobbed (s : State) (f : JobRun → JobRun) : State :=
  { s with dx := { s.dx with ctxs := s.dx.ctxs.map (fun p => (p.1, { p.2 with running := p.2.running.map f })) } }

/-- Its only strand is no root. -/
def tChild (s : State) : State := tJobbed s (fun j => { j with strands := j.strands.map (fun t => { t with root := false }) })

/-- It has `n` more strands, ready at word 0 of tape 0. -/
def tMore (s : State) (n : Nat) : State :=
  tJobbed s (fun j => { j with strands := j.strands ++ (List.range n).map (fun i => { tStrand 0 0 with sid := i + 1, root := false, engine := none }) })

theorem test_witness_TapesMoveStrands :
    ((tWord 0x00 0).meets 0 0x00).isSome = true ∧ ((tWord 0x07 1).meets 0 0x07).any (fun p => !bit p.2.2.2.2 58) = true ∧
      ((tWord 0x07 (2 ^ 58 + 2 ^ 32 + 1)).meets 0 0x07).any (fun p => bit p.2.2.2.2 58 && bits p.2.2.2.2 47 32 == 1) = true ∧
      ((tWord 0x05 0x10001).meets 0 0x05).isSome = true ∧
      ((tWord 0x06 1).meets 0 0x06).any (fun p => p.2.2.1.open_.isSome && decide (p.2.2.1.strands.length < 16)) = true ∧
      ((tWord 0x06 1).tapeWord 0 1).isSome = true ∧
      ((tMore (tWord 0x06 1) 15).meets 0 0x06).any (fun p => decide (16 ≤ p.2.2.1.strands.length)) = true ∧
      (tWord 0 0).tapeDir 0 = some ⟨0, 0, 1, 0xE000000, 64⟩ ∧ ((tWord 0 0).cmRead (0xE000000 + 8 * 0) 8).2 = false ∧
      (((tWord 0 0).setReg Reg.cmInject (2 + 256 * 112)).cmRead (0xE000000 + 8 * 0) 8).2 = true := by decide +kernel

theorem test_witness_AStrandThatPassesGoesOneWordOn :
    ((tWord 0 0).strandAt 0 0).any (fun p => ((tWord 0 0).tapeWord p.2.2.tape (p.2.2.pc + 1)).isSome) = true ∧
      (tWord 0 0).armed Reg.cmInject 0 = false ∧ (tWord 0 0).armed Reg.cmInject 1 = false := by decide +kernel

/-- A furrow of context 0 with a list of two entries, of which one is filled. -/
def tSowed (s : State) (entries : Nat) : State := { s with tu := { s.tu with sow := some ⟨0, 0, entries, 0, [], [(0, 1, 0)]⟩ } }

/-- Context 0 is starved of a frame. -/
def tStarved (s : State) : State := { s with km := { s.km with recs := [(0, ⟨2, 0, false, false, 0, 0, false⟩)] } }

theorem test_witness_StepsOpenCommitAndEnd_step :
    ((tOuter 0x02).meets 0 0x02).any (fun p => p.2.2.2.1.root && p.2.2.1.open_.isNone) = true ∧ ((tOuter 0x02).kv 0).flush ≠ 2 ∧
      (tOuter 0x02).tu.sow = none ∧ ((tStarved (tOuter 0x02)).meets 0 0x02).any (fun p => p.2.2.2.1.root) = true ∧
      ((tStarved (tOuter 0x02)).kv 0).flush = 2 ∧ ((tSowed (tOuter 0x02) 2).meets 0 0x02).any (fun p => p.2.2.2.1.root) = true ∧
      (tSowed (tOuter 0x02) 2).sweepDone ⟨0, 0, 2, 0, [], [(0, 1, 0)]⟩ = false ∧ ((tSowed (tOuter 0x02) 2).kv 0).flush ≠ 2 ∧
      ((tWord 0x02 0).meets 0 0x02).any (fun p => p.2.2.1.open_.isSome) = true ∧
      ((tChild (tOuter 0x02)).meets 0 0x02).any (fun p => !p.2.2.2.1.root) = true := by decide +kernel

theorem test_witness_StepsOpenCommitAndEnd :
    ((tWord 0x0B 7).meets 0 0x0B).any (fun p => p.2.2.1.open_ == some (tOpen 0)) = true ∧ ((tOuter 0x0B).meets 0 0x0B).isSome = true ∧
      ((tWord 0x0C 13).meets 0 0x0C).isSome = true ∧ ((tWord 0x0D 5).meets 0 0x0D).isSome = true ∧
      ((tWord 0x03 0).meets 0 0x03).any (fun p => p.2.2.2.1.root && decide (p.2.2.1.strands.length ≤ 1)) = true ∧
      (tWord 0x03 0).se.displaced.contains 0 = false ∧
      ((tMore (tWord 0x03 0) 1).meets 0 0x03).any (fun p => decide (1 < p.2.2.1.strands.length)) = true ∧
      ((tOuter 0x04).meets 0 0x04).any (fun p => p.2.2.2.1.root && p.2.2.1.open_.isNone) = true ∧
      ((tWord 0x04 0).meets 0 0x04).any (fun p => p.2.2.2.1.root && p.2.2.1.open_.isSome) = true ∧
      ((tChild (tWord 0x04 0)).meets 0 0x04).any (fun p => !p.2.2.2.1.root) = true := by decide +kernel

/-- The job of the state stops. -/
def tStops (s : State) : State := tJobbed s (fun j => { j with phase := .replaying })

theorem test_witness_CountersAndFencesOrderStrands :
    ((tWord 0x08 0).meets 0 0x08).any (fun p => p.2.2.1.open_.isSome && atOrAfter ((tWord 0x08 0).counterOf p.2.1 false 0) 0) = true ∧
      ((tWord 0x08 1).meets 0 0x08).any (fun p => !atOrAfter ((tWord 0x08 1).counterOf p.2.1 false 0) 1) = true ∧
      ((tWaits (tWord 0x08 0) (.counter false 7 0)).strandAt 0 0).any (fun p => p.2.1.phase == .active &&
        decide (p.2.2.wait = some (.counter false 7 0)) && atOrAfter ((tWord 0x08 0).counterOf p.1 false 7) 0) = true ∧
      (tWaits (tWord 0x08 0) (.counter false 7 0)).dxUp = true ∧
      ((tOuter 0x09).meets 0 0x09).any (fun p => p.2.2.1.open_.isNone) = true ∧
      ((tWord 0x09 1).meets 0 0x09).any (fun p => bits p.2.2.2.2 56 54 == 0 && bits p.2.2.2.2 58 57 == 0) = true ∧
      ((tWord 0x09 (2 ^ 58 + 511 * 2 ^ 32)).meets 0 0x09).any (fun p => bit p.2.2.2.2 58 && !bit p.2.2.2.2 57) = true ∧
      ((tWord 0x09 (2 ^ 57)).meets 0 0x09).any (fun p => bit p.2.2.2.2 57 && bits p.2.2.2.2 56 54 == 0) = true ∧
      ((tWord 0x09 (2 ^ 55)).meets 0 0x09).any (fun p => bits p.2.2.2.2 56 55 == 1 && !bit p.2.2.2.2 57) = true ∧
      ((tWord 0x09 (2 ^ 57 + 2 ^ 56)).meets 0 0x09).any (fun p => bits p.2.2.2.2 56 55 == 2 && bit p.2.2.2.2 57) = true ∧
      ((tWord 0x0A (2 ^ 58)).meets 0 0x0A).isSome = true := by decide +kernel

/-- A RAISE of counter 511 of device 1, in a system of two devices or of one. -/
def tRemote (two : Bool) : State := (tWord 0x09 (2 ^ 58 + 2 ^ 57 + 2 ^ 54 + 2 ^ 44 + 511 * 2 ^ 32)).setReg (Reg.lxId 0) (if two then 0x400 else 0)

theorem test_witness_CountersAndFencesOrderStrands_remote :
    [true, false].all (fun b => ((tRemote b).meets 0 0x09).any (fun p => bit p.2.2.2.2 54 &&
      ((tRemote b).remoteRaise p.2.1.field (bits p.2.2.2.2 53 44) (bits p.2.2.2.2 43 32) 0).isSome == b)) = true := by decide +kernel

theorem test_witness_CountersAndFencesOrderStrands_fences :
    (tWaits (tWord 0x0A 0) (.fence false false)).dxUp = true ∧ (tWaits (tWord 0x0A 0) (.fence true false)).lx.tags = [] ∧
      [tWaits (tWord 0x0A 0) (.fence false false), tWaits (tWord 0x09 1) (.fence true true),
        tStops (tWaits (tWord 0x09 1) (.fence true true))].all (fun s => (s.strandAt 0 0).any (fun p => p.2.2.wait.isSome &&
          (s.tapeWord p.2.2.tape p.2.2.pc).isSome)) = true ∧
      ((tWaits (tWord 0x0A 0) (.fence false false)).strandAt 0 0).any (fun p => p.2.1.phase == .active) = true ∧
      ((tStops (tWaits (tWord 0x09 1) (.fence true true))).strandAt 0 0).any (fun p => p.2.1.phase != .active) = true := by decide +kernel

/-- That commit request first in the commit point's queue. -/
def tCommit (s : State) (q : CommitReq) : State := { s with dx := { s.dx with commitQ := [q] } }

theorem test_witness_TheCommitPointTakesRequests :
    (tCommit (tWord 0 0) (.commit 0 0)).dxUp = true ∧
      (((tCommit (tWord 0 0) (.commit 0 0)).ctx 0).bind Ctx.running).any (fun j => j.open_ == some (tOpen 0) && j.phase == .active &&
        j.job.serial == 0) = true ∧
      (tCommit (tWord 0 0) (.commit 0 0)).fc.pulses = [] ∧ (tCommit (tWord 0 0) (.commit 0 0)).inReset 38 = false ∧
      (tCommit (tWord 0 0) (.commit 0 0)).inReset 7 = false ∧
      (((tCommit (tOuter 0) (.commit 0 0)).ctx 0).bind Ctx.running).any (fun j => j.open_.isNone) = true ∧
      (((tCommit (tOuter 0) (.complete 0 0)).ctx 0).bind Ctx.running).any (fun j => j.phase == .active && j.job.serial == 0) = true ∧
      (((tCommit (tOuter 0) (.abort 0 0 .owner 3)).ctx 0).bind Ctx.running).any (fun j => j.phase != .completed) = true ∧
      (((tCommit (tJobbed (tOuter 0) (fun j => { j with phase := .completed })) (.abort 0 0 .owner 3)).ctx 0).bind Ctx.running).any
        (fun j => j.phase == .completed && j.job.serial == 0) = true ∧
      ((tCommit (tWith { tCtx none with queue := [⟨0, 0, none, none⟩] }) (.abort 0 0 .owner 3)).ctx 0).any
        (fun x => x.running.isNone && x.queue.any (fun k => k.serial == 0)) = true ∧
      ((tCommit tIdle (.abort 0 0 .owner 3)).ctx 0).any (fun x => x.running.isNone && x.queue.isEmpty && x.received 0) = true ∧
      (tCommit tState (.abort 0 5 .owner 3)).ctx 0 = none ∧
      ((tCommit tIdle (.abort 0 5 .owner 3)).ctx 0).any (fun x => x.running.isNone && x.queue.isEmpty && !x.received 5) = true := by
  decide +kernel

/-- Engine `e` runs a command of the word its strand met, which may yield, and is asked to. -/
def tGoing (e : Nat) (s : State) : State :=
  let t := tOn s e { tRunning (engineKind e) with next := 1, bound := 1 }
  { t with engines := listUpd t.engines e (fun g => { g with yield := true }) }

/-- Engine 0's strand is asked to yield. -/
def tYield (s : State) : State := { s with engines := listUpd s.engines 0 (fun g => { g with yield := true }) }

/-- Context 0's strand is ready and holds no engine. -/
def tReady (im : Image) : State :=
  let s := tWord 0 0
  { tJobbed s (fun j => { j with strands := j.strands.map (fun t => { t with engine := none }) }) with
    engines := tState.engines, image := some im }

/-- DX's choice of the strand to place next. -/
def tPlaced (s : State) : Option Ready :=
  s.readyStrands.find? (fun p => !(List.range 11).any (s.engineSuits p.2.1 p.2.2) || (s.engineFor p.2.1 p.2.2).isSome)

theorem test_witness_EnginesAreGivenAndTaken :
    (tGoing 0 (tTape 0 0 (some (tOpen 0)) [tHdr 0x10 4, 0, 0, 0, 0])).coreUp = true ∧
      (tGoing 0 (tTape 0 0 (some (tOpen 0)) [tHdr 0x10 4, 0, 0, 0, 0])).runDone 0 = true ∧
      ((tGoing 0 (tTape 0 0 (some (tOpen 0)) [tHdr 0x10 4, 0, 0, 0, 0])).strandAt 0 0).any (fun p => p.2.1.phase == .active) = true ∧
      ((tGoing 0 (tWord 1 0)).engine 0).yield = true ∧ (((tGoing 0 (tWord 1 0)).engine 0).running).any Running.preempt = true ∧
      ((tYield (tWord 0 0)).engine 0).yield = true ∧ ((tYield (tWord 0 0)).engine 0).running = none ∧
      ((tStops (tYield (tWord 0 0))).strandAt 0 0).any (fun p => p.2.1.phase != .active) = true ∧
      (tReady tImage).dxUp = true ∧ (tPlaced (tReady tImage)).any (fun p => (List.range 11).any ((tReady tImage).engineSuits p.2.1 p.2.2) &&
        (tReady tImage).engineFor p.2.1 p.2.2 == some 0) = true ∧
      (let s := tReady { tImage with fields := [{ tField with engines := 0 }] }
       (tPlaced s).any (fun p => !(List.range 11).any (s.engineSuits p.2.1 p.2.2)) = true) ∧
      tField.isolated = false ∧ ((tMore (tWord 0 0) 1).setF Reg.dxCtl 31 16 1).getF Reg.dxCtl 31 16 ≠ 0 ∧
      ((tMore (tWord 0 0) 1).setF Reg.dxCtl 31 16 1).readyStrands.any (fun p =>
        ((tMore (tWord 0 0) 1).setF Reg.dxCtl 31 16 1).tapeKind p.2.2.tape == engineKind 0) = true ∧
      (((tGoing 0 (tWord 1 0)).engine 0).running).any (fun r => r.bound != 0 && !r.overrun) = true := by decide +kernel

/-! ### Compute commands -/

/-- A command of `op` with operand words `ws` at word 0 of the tape of engine `e`'s kind, in an open step. -/
def tCmd (e op : Nat) (ws : List Nat) : State :=
  tTape (engineKind e) e (some (tOpen (engineKind e))) (tHdr op ws.length :: ws)

/-- The command is met in an open step; its ranges are read, or, where `ok` is false, refused. -/
def tReads (s : State) (e op base : Nat) (ok : Bool) (f : State → Met → List (Nat × Nat)) : Bool :=
  (s.met e (engineKind e) op base).any (fun m => m.j.open_.isSome && (s.readRanges m (f s m)).1.isNone == ok)

/-- No client reaches any bank group. -/
def tCut2 (s : State) : State := { s with image := some { tImage with connect := [] } }

/-- A PROJ whose weights stream from the furrow. -/
def tFurrowProj : State := tCmd 0 0x12 [0, 2 ^ 62, 0]

/-- The furrow bound to context 0, its segments filled or not. -/
def tBound (s : State) (filled : List (Nat × Nat × Nat)) : State := { s with tu := { s.tu with sow := some ⟨0, 0, 1, 0, [], filled⟩ } }

/-- The ranges that a matrix command reads. -/
def tMat (_ : State) (m : Met) : List (Nat × Nat) := matReads m.v.h m.ops

theorem test_witness_MatrixCommandsRun :
    tReads (tCmd 0 0x10 [0, 0, 0, 0]) 0 0x10 4 true tMat = true ∧ tReads (tCmd 4 0x11 [0, 0, 0, 0]) 4 0x11 4 true tMat = true ∧
      tReads (tCmd 0 0x13 [0, 0, 0]) 0 0x13 3 true tMat = true ∧ tReads (tCmd 0 0x14 [0, 0, 0, 0]) 0 0x14 4 true tMat = true ∧
      tReads (tCmd 0 0x18 [0, 0, 0]) 0 0x18 3 true tMat = true ∧ tReads (tCmd 0 0x19 [0, 0, 0, 0]) 0 0x19 4 true tMat = true ∧
      tReads (tCut2 (tCmd 0 0x10 [0, 0, 0, 0])) 0 0x10 4 false tMat = true ∧
      ((tTape 0 0 none [tHdr 0x10 4, 0, 0, 0, 0]).met 0 0 0x10 4).any (fun m => m.j.open_.isNone) = true ∧
      ((tTape 0 0 none [tHdr 0x12 3, 0, 0, 0]).met 0 0 0x12 3).any (fun m => m.j.open_.isNone && decide (m.v.eng < 11)) = true := by
  decide +kernel

/-- Where the PROJ stops that the running command of engine 0 of a state goes on with: 0 it failed, 1 it ended, 2 it waits or is
done. -/
def tFeeds (s : State) : Option Nat :=
  (s.met 0 0 0x12 3).map (fun m => match (s.projFeed m m.proj 0 [] (m.proj.passes * m.proj.groups - 0)).2 with
    | .failed _ _ => 0
    | .ended _ => 1
    | .at_ _ _ => 2)

theorem test_witness_MatrixCommandsRun_proj :
    tReads (tCmd 0 0x12 [0, 0, 0]) 0 0x12 3 true tMat = true ∧ (tCmd 0 0x12 [0, 0, 0]).runningProj 0 = none ∧
      ((tCmd 0 0x12 [0, 0, 0]).met 0 0 0x12 3).any (fun m => m.proj.s.src != 1) = true ∧
      tReads tFurrowProj 0 0x12 3 true tMat = true ∧ (tFurrowProj.met 0 0 0x12 3).any (fun m => m.proj.s.src == 1) = true ∧
      ((tOn tFurrowProj 0 (tRunning 0)).runningProj 0).isSome = true ∧ (tOn tFurrowProj 0 (tRunning 0)).engineOn 0 = true ∧
      (tOn tFurrowProj 0 (tRunning 0)).inReset 0 = false ∧ tFeeds (tBound tFurrowProj []) = some 2 ∧
      tFeeds (tBound tFurrowProj [(0, 1, 0), (1, 1, 0)]) = some 0 := by decide +kernel

/-- A strand that waits inside its command is one that may give up its engine. -/
theorem test_witness_EnginesAreGivenAndTaken_inner :
    ((tOn (tBound tFurrowProj []) 0 (tRunning 0)).innerWait 0).isSome = true := by decide +kernel

/-- A DIGEST of group 0 over 64 bytes, the group's registers set: EN and the interval as in `grp`, `n` replicas 0, 1 and 2. -/
def tDigest (grp n : Nat) : State :=
  ((tCmd 0 0x1C [2 ^ 20]).setReg (Reg.meDgrp 0) grp).setReg (Reg.meDpeer 0) (n * 2 ^ 60 + 2 * 2 ^ 20 + 2 ^ 10)

theorem test_witness_ReplicasCompareDigests :
    ((tDigest 0 2).met 0 0 0x1C 1).any (fun m => m.j.open_.isSome && (MatD.of (opWord m.ops 0)).group == 0 &&
        decide (m.v.field = 0) && decide (m.v.step = 0)) = true ∧
      ((tTape 0 0 none [tHdr 0x1C 1, 2 ^ 20]).met 0 0 0x1C 1).any (fun m => m.j.open_.isNone) = true ∧
      bit ((tDigest 0 2).reg (Reg.meDgrp 0)) 63 = false ∧ bit ((tDigest (2 ^ 63) 2).reg (Reg.meDgrp 0)) 63 = true ∧
      bits ((tDigest (2 ^ 63 + 2 ^ 48) 2).reg (Reg.meDgrp 0)) 50 48 ≠ 0 ∧
      bits ((tDigest (2 ^ 63) 2).reg (Reg.meDgrp 0)) 50 48 = 0 ∧ (tDigest (2 ^ 63) 2).devId ∈ (tDigest (2 ^ 63) 2).dgrpIds 0 ∧
      ((tDigest (2 ^ 63) 2).setReg (Reg.lxId 0) 3).devId ∉ ((tDigest (2 ^ 63) 2).setReg (Reg.lxId 0) 3).dgrpIds 0 ∧
      bits ((tDigest (2 ^ 63 + 2 ^ 33) 2).reg (Reg.meDgrp 0)) 47 32 = 2 ∧ (0 + 1) % 2 ≠ 0 ∧
      bits ((tDigest (2 ^ 63) 2).reg (Reg.meDgrp 0)) 47 32 = 0 ∧ (0 + 1) % 1 = 0 ∧
      tReads (tDigest (2 ^ 63) 2) 0 0x1C 1 true tMat = true ∧ tReads (tCut2 (tDigest (2 ^ 63) 2)) 0 0x1C 1 false tMat = true := by
  decide +kernel

/-- A DIGEST awaiting the digests of a group of `n` replicas, this device's being [1], and those that have come. -/
def tVerdict (n tmo : Nat) (peers : List (Nat × Nat × W32 × List Byte)) : State :=
  { tDigest (2 ^ 63 + tmo * 2 ^ 16) n with dig := ⟨peers, [(0, ⟨0, 0, 0, 0, [1]⟩)], []⟩ }

/-- The verdict on those present, the ids of the group, and whether one is absent. -/
def tJudged (s : State) : (Nat × Option Nat) × List Nat × Bool :=
  let ids := s.dgrpIds 0
  let got (i : Nat) : Option (List Byte) := if i = s.devId then some [1]
    else (s.dig.peers.find? (fun p => p.1 == 0 && p.2.1 == i && p.2.2.1 == 0)).map (fun p => p.2.2.2)
  let slots := List.zip (List.range ids.length) ids
  (digestVerdict (slots.filterMap (fun p => (got p.2).map (fun d => (p.1, d)))), ids, slots.any (fun p => (got p.2).isNone))

theorem test_witness_ReplicasCompareDigests_verdict :
    (Map.find (tVerdict 2 0 [(0, 1, 0, [1])]).dig.waiting 0).isSome = true ∧ (tVerdict 2 0 []).devId = 0 ∧
      tJudged (tVerdict 2 0 [(0, 1, 0, [1])]) = ((1, none), [0, 1], false) ∧
      tJudged (tVerdict 2 1 []) = ((1, none), [0, 1], true) ∧
      (tVerdict 2 1 []).getF (Reg.meDgrp 0) 31 16 ≠ 0 ∧
      tJudged (tVerdict 3 0 [(0, 1, 0, [1]), (0, 2, 0, [2])]) = ((2, some 2), [0, 1, 2], false) ∧
      tJudged (tVerdict 3 0 [(0, 1, 0, [2]), (0, 2, 0, [2])]) = ((2, some 0), [0, 1, 2], false) ∧
      tJudged (tVerdict 2 0 [(0, 1, 0, [2])]) = ((4, none), [0, 1], false) := by decide +kernel

theorem test_witness_ReplicasCompareDigests_unlike : ([1] : List Byte) ≠ [2] ∧ (0 : Nat) ≠ 2 ∧ (1 : Nat) ≠ 2 := by decide

/-- An ATTEND of one query row and `own` tokens of its own, with `tc` tokens committed; its edits are held where `held`. -/
def tAttend (tc own : Nat) (held : Bool) : State :=
  let s := tCmd 5 0x20 [0, own * 2 ^ 10, 0, 0, 0, 0]
  { s with km := { s.km with recs := [(0, ⟨0, 0, false, held, tc, 0, false⟩)] } }

/-- The ranges that an ATTEND reads. -/
def tAtt (s : State) (m : Met) : List (Nat × Nat) :=
  attReads m.v.h m.ops ++ (Attend.of m.ops).furrow.flatMap (fun r => s.furrowRanges r.1 r.2)

/-- What an ATTEND asks before its walk: its first failed group, and the blocks that it walks. -/
def tAttends (s : State) : Option (Option Nat × List Nat) :=
  (s.met 5 1 0x20 6).map (fun m =>
    let a := Attend.of m.ops
    let v := (((s.readRanges m (tAtt s m)).2).engChecks m.v 7 (min 4 (a.q.q * a.q.g))).attPair m.v a
    (v.2.map Prod.fst, v.1.attBlocks a (s.kv m.c).tc))

theorem test_witness_AttentionIsWalked :
    tReads (tAttend 1 1 false) 5 0x20 6 true tAtt = true ∧ tReads (tCut2 (tAttend 1 1 false)) 5 0x20 6 false tAtt = true ∧
      ((tAttend 1 1 true).kv 0).held = true ∧ ((tAttend 1 1 true).met 5 1 0x20 6).any (fun m => (Attend.of m.ops).furrow == []) = true ∧
      tAttends (tAttend 1 1 false) = some (some 0, [0]) := by decide +kernel

/-- The cells of a block header at `a`: tag, 32 channels from `first`, and the row length. -/
def tHead (a tag first row : Nat) : List Host.Cell :=
  [(a, BitVec.ofNat 8 tag), (a + 1, 31#8), (a + 4, BitVec.ofNat 8 first), (a + 5, BitVec.ofNat 8 (first / 256)),
    (a + 8, BitVec.ofNat 8 row), (a + 9, BitVec.ofNat 8 (row / 256))].filter (fun c => c.2 != 0)

/-- The streams of one head of 32 values, all of whose groups pair: the scale stream at 1 MiB, its records flat, and the headers of
the weight stream at 2 MiB. -/
def tStreams (s : State) : State :=
  { s with mem := (List.range 33).flatMap (fun i => tHead (0x100000 + 320 * i) i (32 * (i % 16)) 0 ++
      (List.range 32).map (fun k => (0x100000 + 320 * i + 66 + 8 * k, 1#8))) ++
    (List.range 17).flatMap (fun i => if i = 16 then tHead (0x200000 + 2112 * i) 32 0 512 else tHead (0x200000 + 2112 * i) i (32 * i) 32) ++
    s.mem }

/-- An ATTEND over those streams with no token of its own. -/
def tPairs (tc : Nat) : State :=
  let s := tStreams (tCmd 5 0x20 [0, 0, 0x8000 * 2 ^ 37 + 0x4000 * 2 ^ 15, 0, 0, 0])
  { s with km := { s.km with recs := [(0, ⟨0, 0, false, false, tc, 0, false⟩)] } }

theorem test_witness_AttentionIsWalked_paired :
    tReads (tPairs 65) 5 0x20 6 true tAtt = true ∧ tAttends (tPairs 65) = some (none, [0, 1]) ∧
      ((tPairs 0).met 5 1 0x20 6).any (fun m => (tPairs 0).attBlocks (Attend.of m.ops) ((tPairs 0).kv m.c).tc == []) = true := by
  decide +kernel

theorem test_witness_AttentionIsWalked_refused :
    ((tAttend 65535 2 false).met 5 1 0x20 6).any (fun m => m.j.open_.isSome &&
      decide (65536 < ((tAttend 65535 2 false).kv m.c).tc + (Attend.of m.ops).c.nOwn)) = true ∧
      ((tTape 1 5 none [tHdr 0x20 6, 0, 0, 0, 0, 0, 0]).met 5 1 0x20 6).any (fun m => m.j.open_.isNone) = true ∧
      (let s := tCmd 5 0x20 [0, 0, 2 ^ 62, 0, 0, 0]
       (s.met 5 1 0x20 6).any (fun m => (Attend.of m.ops).furrow != [] &&
         s.furrowWait m.c (((Attend.of m.ops).furrow.flatMap (fun r => s.furrowSegs r.1 r.2)).eraseDups))) = true := by decide +kernel

/-- An ATTEND that runs over `tc` tokens, its block 0 in the table or not. -/
def tWalk (tc : Nat) (table : Map Nat) (lost : Bool) : State :=
  let s := tGoing 5 (tCmd 5 0x20 [0, 0, 0, 0, 0, 0])
  { s with km := { s.km with recs := [(0, ⟨0, 0, false, false, tc, 0, false⟩)], table := table
                             descs := [(3, ⟨1, 0, true, false, false, lost, false, 0, 0⟩)] }
           tu := { s.tu with pages := tFramePages } }

/-- A place in numbers: its field, or 9 for the commons, its address, and 1 where its frame is lost. -/
def tPlace (p : Place × Bool) : List Nat :=
  match p.1 with
  | .commons a => [9, a, b2n p.2]
  | .unified f ua => [f, ua, b2n p.2]

/-- The number of blocks that the running ATTEND walks, the number supplied, and the place of block 0. -/
def tBlock (s : State) : Option (List Nat) :=
  (s.runningAttend 5).map (fun p => [(s.attBlocks (Attend.of p.1.ops) (s.kv p.1.c).tc).length, p.2] ++
    ((((s.kmCheck 2).kmCheck 0).blockPlace p.1.c p.1.x.field 0 (Attend.of p.1.ops).c.layer).map tPlace).getD [])

theorem test_witness_AttentionIsWalked_blocks :
    (tWalk 64 [] false).kmUp = true ∧ tBlock (tWalk 64 [] false) = some [1, 0] ∧
      tBlock (tWalk 64 [(0, 3)] true) = some [1, 0, 0, 0xF0000C0000, 1] ∧
      tBlock (tWalk 1 [] false) = some [1, 0, 9, 0, 0] ∧ ((tWalk 1 [] false).cmRead 0 16384).2 = false ∧
      (((tWalk 1 [] false).setReg Reg.cmInject 2).cmRead 0 16384).2 = true := by decide +kernel

theorem test_witness_AttentionIsWalked_direct :
    tBlock (tWalk 64 [(0, 3)] false) = some [1, 0, 0, 0xF0000C0000, 0] ∧
      (tWalk 64 [(0, 3)] false).directSlot 5 0 0xF0000C0000 16384 = some 0x50C0000 ∧
      ((tWalk 64 [(0, 3)] false).cmRead 0x50C0000 16384).2 = false ∧
      (((tWalk 64 [(0, 3)] false).setReg Reg.cmInject (2 + 256 * 40)).cmRead 0x50C0000 16384).2 = true := by decide +kernel

/-- The same, its engine connected to no bank group, so that TU reads the frame. -/
def tWalkTu : State := tCut2 (tWalk 64 [(0, 3)] false)

theorem test_witness_AttentionIsWalked_tiers :
    tWalkTu.directSlot 5 0 0xF0000C0000 16384 = none ∧ tDone (tWalkTu.tuRead 0 0xF0000C0000 16384 true).2 = true ∧
      (match (({ tWalkTu with tu := { tWalkTu.tu with poison := [⟨0, 0xF0000C0000, false, false, [], []⟩] } } : State).tuRead 0 0xF0000C0000
        16384 true).2 with | .wait => true | _ => false) = true ∧
      (match (({ tWalkTu with tu := { tWalkTu.tu with poison := [⟨0, 0xF0000C0000, true, false, [], []⟩] } } : State).tuRead 0 0xF0000C0000
        16384 true).2 with | .code k => k == Code.memPoison | _ => false) = true := by decide +kernel

/-- An APPEND of `n` tokens of layer 0 from address 0, with that cache. -/
def tAppend (n : Nat) (k : KvRec) : State :=
  let s := tCmd 5 0x21 [(n - 1) * 2 ^ 30]
  { s with km := { s.km with recs := [(0, k)] } }

/-- What the APPEND of a state holds: the count, and whether its ranges are read. -/
def tAppends (s : State) (n : Nat) (ok : Bool) : Bool :=
  tReads s 5 0x21 1 ok (fun _ m => attReads m.v.h m.ops) && (s.met 5 1 0x21 1).any (fun m => (AttL.of (opWord m.ops 0)).n == n)

theorem test_witness_AttentionIsWalked_append :
    tAppends (tAppend 1 ⟨0, 0, false, false, 65535, 0, false⟩) 1 true = true ∧ 65535 + 1 ≤ 65536 ∧
      tAppends (tCut2 (tAppend 1 ⟨0, 0, false, false, 65535, 0, false⟩)) 1 false = true ∧
      tAppends (tAppend 2 ⟨0, 0, false, false, 65535, 0, false⟩) 2 true = true ∧ 65536 < 65535 + 2 ∧
      tAppends (tAppend 2 ⟨1, 0, false, false, 63, 0, false⟩) 2 true = true ∧ (63 + 2 - 1) / 64 ≠ 63 / 64 ∧
      ((tJobbed (tAppend 2 ⟨0, 0, false, false, 0, 0, false⟩) (fun j => { j with open_ := j.open_.map (fun o => { o with appended := 1 }) })).met
        5 1 0x21 1).any (fun m => m.j.open_.any (fun o => o.appended == 1)) = true ∧
      ((tTape 1 5 none [tHdr 0x21 1, 0]).met 5 1 0x21 1).any (fun m => m.j.open_.isNone) = true := by decide +kernel

/-- A state command over a stream of one slot, or none. -/
def tState7 (op : Nat) (ws : List Nat) (l : Map StreamRec) : State :=
  let s := tCmd 7 op ws
  { s with se := { s.se with streams := l, slots := [(0, ⟨0, 0, 0, 0, 0⟩)]
                             stages := [(0, ⟨0x10000, 0, [], [], []⟩)] } }

/-- A SCAN of one layer of 32 channels from 0x10000, its stage loaded, over a stream. -/
def tScan (l : Map StreamRec) : State :=
  (tState7 0x30 [0, 0x400 * 2 ^ 42, 0, 0] l).write 0x10000 [32]

/-- The stream that a state command meets: none, lost, elsewhere, or resident. -/
def tMeets (s : State) (op base : Nat) (p : Option StreamRec → Bool) : Bool :=
  (s.met 7 2 op base).any (fun m => m.j.open_.isSome && p ((s.slotCheck (some (m.c, m.x.step))).stream m.c))

/-- A resident stream of one slot. -/
def tHome : StreamRec := ⟨1, false, false, 1, 0, 0⟩

/-- The first check that a SCAN over that stream fails. -/
def tScanFault (s : State) : Option (Option Nat) :=
  (s.met 7 2 0x30 4).map (fun m =>
    let u := s.slotCheck (some (m.c, m.x.step))
    u.scanFault (Scan.of m.ops) tHome (u.scanLayers (Scan.of m.ops)))

/-- Whether a SCAN's table, blocks and ranges are read, and the first group that its stages fail. -/
def tScans (s : State) : Option (Bool × Option Nat) :=
  (s.met 7 2 0x30 4).map (fun m =>
    let u := s.slotCheck (some (m.c, m.x.step))
    let c := Scan.of m.ops
    let ls := u.scanLayers c
    let r := u.readRanges m (u.scanReads c ls ++ ls.flatMap (fun y => u.blockReads (u.streamSlots tHome) y.e.boff y.nb))
    (r.1.isNone, ((r.2.engChecks m.v 13 c.l.layers).scanLoad m.v c 0 ls).2.map Prod.fst))

/-- A HOLD of two taps of one block over a stream whose blocks hold vectors; its first block has kind `k`. -/
def tHold (boff k : Nat) (l : Map StreamRec) : State := (tState7 0x31 [0, 2 ^ 52 + boff * 2 ^ 55, 0] l).write 0x4000000 [BitVec.ofNat 8 k]

theorem test_witness_StateAndWindowCommandsRun_state :
    [(0x30, 4), (0x31, 3)].all (fun p =>
      let s (l : Map StreamRec) := if p.1 = 0x30 then tScan l else tHold 0 1 l
      tMeets (s []) p.1 p.2 (fun q => q.isNone) && tMeets (s [(0, ⟨2, false, true, 1, 0, 0⟩)]) p.1 p.2 (fun q => q.any StreamRec.lost) &&
        tMeets (s [(0, ⟨2, false, false, 1, 0, 0⟩)]) p.1 p.2 (fun q => q.any (fun r => !r.lost && r.state != 1)) &&
        tMeets (s [(0, tHome)]) p.1 p.2 (fun q => decide (q = some tHome))) = true ∧
      ((tTape 2 7 none [tHdr 0x30 4, 0, 0, 0, 0]).met 7 2 0x30 4).any (fun m => m.j.open_.isNone) = true ∧
      ((tTape 2 7 none [tHdr 0x31 3, 0, 0, 0]).met 7 2 0x31 3).any (fun m => m.j.open_.isNone) = true := by decide +kernel

theorem test_witness_StateAndWindowCommandsRun_scan :
    tScanFault (tScan [(0, tHome)]) = some none ∧ tScans (tScan [(0, tHome)]) = some (true, none) ∧
      tScans (tCut2 (tScan [(0, tHome)])) = some (false, none) ∧
      tScans ({ tScan [(0, tHome)] with se := { (tScan [(0, tHome)]).se with stages := [] } } : State) = some (true, some 0) ∧
      (tScanFault ((tScan [(0, tHome)]).write 0x10006 [255])).any Option.isSome = true := by decide +kernel

/-- The block, the blocks needed, and the kind and bytes of block `boff` that a HOLD finds. -/
def tHolds (s : State) : Option (List Nat) :=
  (s.met 7 2 0x31 3).map (fun m =>
    let u := s.slotCheck (some (m.c, m.x.step))
    let h := StH.of (opWord m.ops 1)
    let n := ceilDiv ((h.taps - 1) * (StX.of (opWord m.ops 0)).k) 192
    let g := u.getBlock (u.streamSlots tHome) (h.boff + 0)
    [h.boff, n, g.1, b2n (g.2.all (fun a => a == 0)),
      b2n (u.readRanges m (holdReads m.ops ++ u.blockReads (u.streamSlots tHome) h.boff n)).1.isNone])

theorem test_witness_StateAndWindowCommandsRun_hold :
    tHolds (tHold 0 1 [(0, tHome)]) = some [0, 1, 1, 1, 1] ∧ tHolds (tHold 0 2 [(0, tHome)]) = some [0, 1, 2, 1, 1] ∧
      tHolds (tCut2 (tHold 0 1 [(0, tHome)])) = some [0, 1, 1, 1, 0] ∧
      tHolds (tHold 63 1 [(0, tHome)]) = some [63, 1, 1, 1, 1] := by decide +kernel

/-- What a window command finds: whether it has outputs, and whether its input and streams are read. -/
def tWin (s : State) (e op : Nat) : Option (Bool × Bool) :=
  (s.met e (engineKind e) op 4).map (fun m =>
    let w := WinCmd.of m.v.h m.ops
    (w.oht != 0 && w.owt != 0,
      (s.readRanges m (w.streamReads ++ (if w.cn.isSome then [] else w.inReads w.rows.1 w.rows.2))).1.isNone))

/-- CN of device 1 as the low neighbour, one row each way: raising counter 5, waiting on 6 and 7. -/
def tCN : Nat := 5 * 2 ^ 55 + 6 * 2 ^ 46 + 7 * 2 ^ 37 + 2 ^ 27 + 2 ^ 12

/-- A CONV with a stripe of two rows, the first of them the low neighbour's, and that CN. -/
def tHalo : State := tCmd 8 0x40 [2 ^ 28, 0, 0, 2 ^ 28, 2 ^ 40 + 2 ^ 28 + 2 ^ 16 + 2 ^ 15, tCN]

theorem test_witness_StateAndWindowCommandsRun_window :
    tWin (tCmd 8 0x40 [0, 0, 0, 0]) 8 0x40 = some (true, true) ∧ tWin (tCmd 9 0x41 [0, 0, 0, 0]) 9 0x41 = some (true, true) ∧
      tWin (tCmd 10 0x48 [0, 0, 0, 0]) 10 0x48 = some (true, true) ∧ tWin (tCmd 8 0x40 [0, 2 ^ 32, 0, 0]) 8 0x40 = some (false, true) ∧
      tWin (tCut2 (tCmd 8 0x40 [0, 0, 0, 0])) 8 0x40 = some (true, false) ∧ tWin tHalo 8 0x40 = some (true, true) ∧
      (tHalo.met 8 3 0x40 4).any (fun m => (WinCmd.of m.v.h m.ops).cn.isSome && m.j.open_.isSome) = true ∧
      ((tTape 3 8 none [tHdr 0x40 4, 0, 0, 0, 0]).met 8 3 0x40 4).any (fun m => m.j.open_.isNone) = true := by decide +kernel

/-- The CONV of `tHalo` with both rows its own, running with `raised` rows raised and `pushed` pushed, in a system of `n` devices. -/
def tHaloRun (raised pushed n : Nat) : State :=
  let s := tCmd 8 0x40 [2 ^ 28, 0, 0, 2 ^ 28, 2 ^ 40 + 2 ^ 16 + 2 ^ 15, tCN]
  (tOn s 8 { tRunning 3 with next := 7, raised := raised, pushLo := pushed }).setReg (Reg.lxId 0) ((n - 1) * 0x400)

/-- What the running window command of engine 8 has: its rows, those raised, the neighbour's rows, and whether a halo row or the
neighbour's commit is awaited. -/
def tHaloAt (s : State) : Option (List Nat × Bool × Bool) :=
  (s.runningHalo 8).map (fun p => ([p.2.2.1.rows.1, p.2.2.1.rows.2, p.2.1.raised, p.2.2.2.nlo, p.2.2.2.devlo],
    (s.haloWait p.1.v.field p.1.v.step p.2.2.1 p.2.1.raised).isSome, (s.pushWait p.1.v.field p.1.v.step p.2.2.2 false).isSome))

theorem test_witness_HaloRowsAreRaisedAndPushed :
    tHaloAt (tHaloRun 0 0 2) = some ([0, 2, 0, 1, 1], false, false) ∧ tHaloAt (tHaloRun 1 0 2) = some ([0, 2, 1, 1, 1], false, false) ∧
      (tHaloRun 1 0 2).engineOn 8 = true ∧ (tHaloRun 1 0 2).devId = 0 ∧ (tHaloRun 1 0 2).idExists 1 = true ∧
      (tHaloRun 1 0 1).idExists 1 = false ∧ ((tHaloRun 1 0 2).setReg (Reg.lxId 0) 0x401).devId = 1 := by decide +kernel

/-- Whether row 0 goes out to the low neighbour, where no tags are free or all are. -/
def tSends (s : State) : Bool :=
  (s.runningHalo 8).any (fun p => (s.sendWrites p.1.v.field false 1 p.2.2.1.y.addr (.push p.1.c p.1.t.sid false 0)
    (pieces (s.read p.2.2.1.y.addr (p.2.2.1.outBytes (p.2.2.1.owt * p.2.2.1.f.n))))).isSome)

theorem test_witness_HaloRowsAreRaisedAndPushed_push :
    tSends (tHaloRun 1 0 2) = true ∧
      tSends ({ tHaloRun 1 0 2 with lx := { tState.lx with tags := List.replicate 4096 ⟨0, 0, .dma 0⟩ } } : State) = false ∧
      (tHaloRun 1 1 2).lx.tags = [] ∧ tHaloAt (tHaloRun 1 1 2) = some ([0, 2, 1, 1, 1], false, false) ∧
      ((tHaloRun 1 1 2).remoteRaise 0 1 5 (rowTag 0 0)).isSome = true ∧ pieces [1] = [(0, [1])] := by
  decide +kernel

theorem test_witness_RequantisedValuesAreLaneValues :
    4 ∈ [0, 1, 2, 4] ∧ fmtMin 4 ≤ -32768 ∧ (-32768 : Int) ≤ fmtMax 4 ∧ fmtMin 2 ≤ 12 ∧ (12 : Int) ≤ fmtMax 2 ∧ (12 : Int) ∈ f4Values := by
  decide

/-- Context 0 has a job queued; it may need a furrow of one entry, and may wait for it. -/
def tQueued (sow : Option (Nat × Nat × Nat)) (q : List Nat) (w : Option Sowing) : State :=
  let s := tListed (tWith { tCtx none with queue := [⟨0, 0, none, none⟩], sow := sow })
  { s with dx := { s.dx with switchQ := q, switchLate := true }, tu := { s.tu with sow := w } }

/-- The furrow bound to context `c`, its one segment filled. -/
def tFilled (c : Nat) : Option Sowing := some ⟨c, 0, 1, 0, [], [(0, 1, 0)]⟩

theorem test_witness_JobsStartReplayAndReport_start :
    ((tQueued none [] none).ctx 0).any (fun x => x.queue == [⟨0, 0, none, none⟩] && x.running.isNone && !x.halted && x.sow.isNone) = true ∧
      (tQueued none [] none).dxUp = true ∧ ((tQueued none [] none).kv 0).flush ≠ 2 ∧
      (tQueued (some (0, 1, 1)) [] none).bound 0 = false ∧
      (tQueued (some (0, 1, 1)) [0] (tFilled 0)).bound 0 = true ∧ (tQueued (some (0, 1, 1)) [0] (tFilled 0)).primed 1 = true ∧
      (tQueued (some (0, 1, 1)) [1] (tFilled 0)).bound 0 = true ∧ (tQueued (some (0, 1, 1)) [1] (tFilled 0)).mustSwitch 0 = true ∧
      (tQueued (some (0, 1, 1)) [] (tFilled 0)).bound 0 = true ∧ (tQueued (some (0, 1, 1)) [] (tFilled 0)).mustSwitch 0 = false := by
  decide +kernel

theorem test_witness_JobsStartReplayAndReport_began :
    (tQueued none [] none).armed Reg.cmInject 0 = false ∧ (tQueued none [] none).armed Reg.cmInject 1 = false ∧
      ((tQueued none [] none).stream 0).any StreamRec.lost = false ∧
      (let s := tQueued none [] none
       (({ s with se := { s.se with streams := [(0, ⟨2, false, true, 1, 0, 0⟩)] } } : State).stream 0).any StreamRec.lost) = true := by
  decide +kernel

theorem test_witness_JobsStartReplayAndReport_switch :
    (tQueued (some (0, 1, 1)) [0] (tFilled 1)).dxUp = true ∧ (tQueued (some (0, 1, 1)) [0] (tFilled 1)).bound 0 = false ∧
      (tQueued (some (0, 1, 1)) [0] (tFilled 1)).keepsFurrow 1 = false ∧ (tQueued (some (0, 1, 1)) [0] (tFilled 1)).sowOk 0 1 = true ∧
      (tQueued (some (16, 1, 1)) [0] none).sowOk 16 1 = false ∧ (tQueued (some (16, 1, 1)) [0] none).bound 0 = false ∧
      (tQueued (some (0, 1, 1)) [0] none).dx.switchQ.any (fun c => !(tQueued (some (0, 1, 1)) [0] none).bound c) = true := by
  decide +kernel

/-- An abandoned step whose strands have stopped, and a job that has ended. -/
def tStopped : State := tJobbed (tWord 0 0) (fun j => { j with phase := .replaying, strands := [] })

/-- Context 0's job has ended with a code. -/
def tEnded (code : Nat) : State :=
  tJobbed (tWord 0 0) (fun j => { j with phase := if code = 0 then .completed else .ending code, strands := [], open_ := none })

theorem test_witness_JobsStartReplayAndReport_report :
    ((tStopped.ctx 0).bind Ctx.running).any (fun j => j.phase == .replaying && j.strands.isEmpty && j.open_.isSome) = true ∧
      tStopped.dxUp = true ∧
      (((tEnded 0).ctx 0).bind Ctx.running).any (fun j => j.code == some Code.ok && j.strands.isEmpty && j.job.gate.isNone) = true ∧
      (((tEnded Code.watchdog).ctx 0).bind Ctx.running).any (fun j => j.code == some Code.watchdog && j.strands.isEmpty) = true ∧
      (tEnded 0).dxUp = true ∧ (tEnded 0).lx.tags = [] := by decide +kernel

/-- Field 0 isolated at phase 0 of the round, in its slot or its guard. -/
def tIsolated (guard : Bool) (s : State) : State :=
  { s with image := some { tImage with fields := [{ tField with isolated := true }] }, dx := { s.dx with guard := guard, phase := 0 } }

theorem test_witness_IsolatedFieldsTakeTurns :
    (tIsolated true tState).slotField = some { tField with isolated := true } ∧ (tIsolated true tState).dx.guard = true ∧
      (tIsolated true tState).coreUp = true ∧ (tIsolated true tState).inReset 39 = false ∧
      (List.range 11).all (fun e => (tIsolated true tState).engineField e == none) = true ∧
      (tIsolated false (tWord 0 0)).slotField = some { tField with isolated := true } ∧ (tIsolated false (tWord 0 0)).dx.guard = false ∧
      (tIsolated true (tGoing 0 (tWord 0 0))).dxUp = true ∧ (tIsolated true (tGoing 0 (tWord 0 0))).engineField 0 = some 0 ∧
      (tIsolated true (tGoing 0 (tWord 0 0))).runsCommand 0 = true ∧ ((tWord 0 0).engine 0).strand = some (0, 0) ∧
      (((tWord 0 0).ctx 0).bind Ctx.running).any (fun j => j.phase == .active) = true ∧ tState.dxUp = true ∧ 15 ≤ 15 := by decide +kernel

/-! ### Links -/

/-- A ring of two devices; port 0 in state `k` with one sequenced frame held for replay and those units received. -/
def tPort (k : Nat) (units : List (List Byte)) : State :=
  (tState.setF (Reg.lxId 0) 14 10 1).updPort 0 (fun t => { t with state := k, sent := 1, replay := [[]], units := units })

/-- The HELLO of device `d`'s port 1 in that ring. -/
def tHello (d : Nat) : List Byte := ctrlUnit 0xC0 (natLE 4 0 ++ natLE 2 d ++ natLE 1 1 ++ natLE 1 0x10 ++ natLE 1 1 ++ natLE 1 0)

/-- A message that waits to leave through port 0. -/
def tWake : LinkMsg := ⟨0x06, 0, true, false, 1, 0, 0, 0, 0, []⟩

/-- Port 0 holds a message while it wakes its partner. -/
def tHeldMsg (k back : Nat) : State :=
  (tPort k []).updPort 0 (fun t => { t with held := [(none, tWake)], back := back, sent := 0 })

theorem test_witness_PortsTakeFramesAndUnits :
    (tPort 4 []).lxOpen 0 = true ∧ (List.replicate 640 (0 : Byte)).length = 640 ∧ (tPort 4 []).armed (Reg.lxInject 0) 0 = false ∧
      (tPort 4 []).armed (Reg.lxInject 0) 1 = false ∧ (tPort 4 []).armed (Reg.lxInject 0) 2 = false ∧
      ((tPort 4 [ctrlUnit 0xC4 []]).takeUnit 0 (ctrlUnit 0xC4 [])).isSome = true ∧
      ((tPort 4 [ctrlUnit 0xC1 (natLE 4 1)]).takeUnit 0 (ctrlUnit 0xC1 (natLE 4 1))).isSome = true ∧
      ((tPort 4 [ctrlUnit 0xC3 (natLE 4 0)]).takeUnit 0 (ctrlUnit 0xC3 (natLE 4 0))).any (fun u => (u.port 0).lnakRun == 0 &&
        decide ((u.port 0).past 0 < (u.port 0).replay.length)) = true ∧
      ((tPort 4 [ctrlUnit 0xC2 (natLE 4 (2 + 5 * 65536))]).takeUnit 0 (ctrlUnit 0xC2 ([(2, 5)].flatMap (fun q =>
        natLE 4 (q.1 % 64 + q.2 % 1024 * 65536))))).isSome = true ∧ (tPort 3 [tHello 1]).lxOpen 0 = true ∧
      ((tPort 3 [tHello 1]).takeUnit 0 (tHello 1)).any (fun u => (u.port 0).state != 4 && u.helloOk 0 (fld (tHello 1) 4 4)
        (fld (tHello 1) 8 2) (fld (tHello 1) 10 1) (fld (tHello 1) 12 1) (fld (tHello 1) 13 1)) = true ∧
      ((tPort 3 [tHello 9]).takeUnit 0 (tHello 9)).any (fun u => (u.port 0).state != 4 && !u.helloOk 0 (fld (tHello 9) 4 4)
        (fld (tHello 9) 8 2) (fld (tHello 9) 10 1) (fld (tHello 9) 12 1) (fld (tHello 9) 13 1)) = true := by decide +kernel

theorem test_witness_PortsTakeFramesAndUnits_states :
    (tPort 1 []).lxUp 0 = true ∧ (tPort 1 []).image.isSome = true ∧ (tPort 1 []).hasRing 0 = true ∧ ((tPort 1 []).port 0).state = 1 ∧
      ((tHeldMsg 3 0).port 0).state = 3 ∧ (tHeldMsg 3 0).lxOpen 0 = false ∧ (tHeldMsg 3 0).lxUp 0 = true ∧
      ((tHeldMsg 5 0).port 0).state = 5 ∧ ((tHeldMsg 5 0).port 0).held ≠ [] ∧ ((tHeldMsg 2 5).port 0).back ≠ 0 ∧
      (tHeldMsg 2 5).lxUp 0 = true := by decide +kernel

/-- Message `m` waits at port 0, UP; the port has bank group 0; a field's memory key; group 0 of field 0 has device 1 as
its peer; and a tag for that use is out. -/
def tAsks (m : LinkMsg) (use : TagUse) : State :=
  let s := (tTier true).write 0x8000000 []
  let s := ((s.setF (Reg.lxId 0) 14 10 1).setReg (Reg.meDgrp 0) (2 ^ 63)).setReg (Reg.meDpeer 0) (2 * 2 ^ 60 + 2 ^ 10)
  let s := { s with image := some { tImage with connect := [(33, 1)] }, lx := { s.lx with tags := [⟨3, 0, use⟩] }
                    sx := { s.sx with memKeys := [(0, (tKey, tKey))] } }
  s.updPort 0 (fun t => { t with state := 4, rx := [m], ctl := 1 })

/-- A message of a type from device 1 about field 0. -/
def tMsg (typ len arg : Nat) (payload : List Byte) : LinkMsg := ⟨typ, 0, false, false, 0, 1, len, 3, arg, payload⟩

/-- Port 0 takes the message, and more holds of the states before and after. -/
def tTaken (m : LinkMsg) (use : TagUse) (f : State → State → Bool) : Bool :=
  let s := tAsks m use
  s.lxUp 0 && (s.port 0).state == 4 && (s.takeMsg 0 m).any (f s)

theorem test_witness_LinkMessagesActHere_requests :
    tTaken (tMsg 1 16 0 []) (.dma 0) (fun s u => !s.dramBusy 0 && u.linkReach 0 (tMsg 1 16 0 []) == some 0 && (u.linkRead 0 16).2.isSome) = true ∧
      tTaken (tMsg 1 0 0 []) (.dma 0) (fun s u => !s.dramBusy 0 && (u.linkReach 0 (tMsg 1 0 0 [])).isNone) = true ∧
      tTaken (tMsg 2 16 0 (List.replicate 16 1)) (.dma 0) (fun s u => !s.dramBusy 0 &&
        u.linkReach 0 (tMsg 2 16 0 (List.replicate 16 1)) == some 0 && (u.linkWrite 0 (List.replicate 16 1)).2) = true ∧
      tTaken (tMsg 2 0 0 []) (.dma 0) (fun s u => !s.dramBusy 0 && (u.linkReach 0 (tMsg 2 0 0 [])).isNone) = true ∧
      tTaken (tMsg 4 0 (511 + 65536 * 7) []) (.dma 0) (fun s _ => (s.fieldRec 0).isSome) = true ∧ (511 + 65536 * 7) % 65536 < 512 ∧
      tTaken (tMsg 5 32 0 (List.replicate 32 1)) (.dma 0) (fun s _ => bit (s.reg (Reg.meDgrp 0)) 63 &&
        bits (s.reg (Reg.meDgrp 0)) 50 48 == 0 && (s.dgrpIds 0).contains 1) = true ∧
      tTaken (tMsg 6 0 0 []) (.dma 0) (fun _ _ => true) = true := by decide +kernel

theorem test_witness_LinkMessagesActHere_answers :
    tTaken (tMsg 0x81 16 0 (List.replicate 16 1)) (.host 0 0) (fun s _ => s.lx.tags == [⟨3, 0, .host 0 0⟩]) = true ∧
      tTaken (tMsg 0x81 16 0 (List.replicate 16 1)) (.dmaRead 0 0 0 16) (fun s _ => s.lx.tags == [⟨3, 0, .dmaRead 0 0 0 16⟩]) = true ∧
      tTaken (tMsg 0x81 0 Code.badAddress []) (.dmaRead 0 0 0 16) (fun s _ => s.lx.tags == [⟨3, 0, .dmaRead 0 0 0 16⟩]) = true ∧
      tTaken (tMsg 0x81 16 0 (List.replicate 16 1)) (.refetch 0 0) (fun s _ => s.lx.tags == [⟨3, 0, .refetch 0 0⟩]) = true ∧
      tTaken (tMsg 0x82 0 0 []) (.dma 0) (fun s _ => s.lx.tags == [⟨3, 0, .dma 0⟩]) = true ∧
      tTaken (tMsg 0x82 0 0 []) (.push 0 0 false 0) (fun s _ => s.lx.tags == [⟨3, 0, .push 0 0 false 0⟩]) = true ∧
      tTaken (tMsg 0x82 0 Code.badAddress []) (.push 0 0 false 0) (fun s _ => s.lx.tags == [⟨3, 0, .push 0 0 false 0⟩]) = true ∧
      ((tAsks tWake (.host 0 0)).port 0).ctl.toNat % 65536 ≠ 0 := by decide +kernel

/-- A URD of the block of page 0, under the tag of the field's key. -/
def tUrd : LinkMsg := tMsg 3 64 0 ((((tAsks tWake (.dma 0)).ktag 0).getD []) ++ List.replicate 12 0)

theorem test_witness_LinkMessagesActHere_urd :
    tTaken tUrd (.dma 0) (fun s u => s.tuUp && !s.slotWait 0 && (s.fieldRec 0).isSome && s.ktag 0 == some (tUrd.payload.take 4) &&
      tDone (s.tuRead 0 0 64 false).2 && tDone (u.tuRead 0 0 64 false).2) = true := by decide +kernel


theorem test_witness_PortsTakeFramesAndUnits_armed :
    [1, 2, 4, 8].all (fun k => (((tPort 4 []).setReg (Reg.lxInject 0) k).lxOpen 0)) = true ∧
      ((tPort 4 []).setReg (Reg.lxInject 0) 2).armed (Reg.lxInject 0) 1 = true ∧
      ((tPort 4 []).setReg (Reg.lxInject 0) 4).armed (Reg.lxInject 0) 2 = true ∧ ((tPort 4 []).port 0).resend = none ∧
      (let s := ((tPort 4 []).updPort 0 (fun t => { t with resend := some 0 })).setReg (Reg.lxInject 0) 1
       (s.port 0).resend.isSome && s.armed (Reg.lxInject 0) 0 && s.lxOpen 0) = true ∧
      (let s := ((tPort 4 []).updPort 0 (fun t => { t with resend := some 0 })).setReg (Reg.lxInject 0) 8
       let v := s.sendFrame 0
       v.armed (Reg.lxInject 0) 3 && ((v.port 0).sent != (s.port 0).sent || ((v.port 0).lane.map Prod.fst).any (· < 8))) = true := by
  decide +kernel

theorem test_witness_LinkMessagesActHere_waits :
    (let s := { tAsks (tMsg 1 64 0x100000000 []) (.dma 0) with mcStage := some (6, false) }
     s.lxUp 0 && (s.takeMsg 0 (tMsg 1 64 0x100000000 [])).isSome && s.dramBusy 0x100000000) = true ∧
      (let s := { tAsks (tMsg 2 64 0x100000000 (List.replicate 64 1)) (.dma 0) with mcStage := some (6, false) }
       s.lxUp 0 && (s.takeMsg 0 (tMsg 2 64 0x100000000 (List.replicate 64 1))).isSome && s.dramBusy 0x100000000) = true := by decide +kernel

theorem test_witness_LinkMessagesActHere_refused :
    tTaken { tUrd with own := true } (.dma 0) (fun s _ => s.tuUp && !s.slotWait 0) = true ∧
      tTaken { tUrd with field := 1 } (.dma 0) (fun s _ => s.tuUp && !s.slotWait 1 && (s.fieldRec 1).isNone) = true ∧
      tTaken { tUrd with payload := List.replicate 16 0 } (.dma 0) (fun s _ => (s.ktag 0).any (fun t => t != List.replicate 4 0)) = true ∧
      tTaken { tUrd with len := 0 } (.dma 0) (fun s _ => s.ktag 0 == some (tUrd.payload.take 4)) = true := by decide +kernel

theorem test_witness_LinkMessagesActHere_tiers :
    tTaken (tMsg 0x81 64 0 (List.replicate 64 1)) (.tierRead 0 0) (fun s _ => s.lx.tags == [⟨3, 0, .tierRead 0 0⟩]) = true ∧
      tTaken (tMsg 0x82 0 0 []) (.tierWrite 0 0 64) (fun s _ => s.lx.tags == [⟨3, 0, .tierWrite 0 0 64⟩]) = true ∧
      tTaken (tMsg 0x82 0 0 []) (.host 0 0) (fun s _ => s.lx.tags == [⟨3, 0, .host 0 0⟩]) = true ∧
      ({ tAsks tWake (.host 0 0) with lx := { (tAsks tWake (.host 0 0)).lx with tags := [] } } : State).lx.tags = [] := by decide +kernel

theorem test_witness_LinkMessagesActHere_held :
    [(false, 0), (true, 1)].all (fun p =>
      let t := tAsks tUrd (.dma 0)
      let s : State := { t with tu := { t.tu with poison := [⟨0, 0, p.1, false, [], []⟩] } }
      s.lxUp 0 && s.tuUp && (s.takeMsg 0 tUrd).isSome && (match (s.tuRead 0 0 64 false).2 with
        | .wait => p.2 == 0
        | .code _ => p.2 == 1
        | .done _ => false)) = true := by decide +kernel

/-! ### The island, the cameras, power, clocks and faults -/

/-- AF running with 5000 samples, slot 0's and slot 1's model with that HOLD (byte 16) and length (byte 18), HOP 16. -/
def tAf (hold frames : Nat) : State :=
  let blob := List.replicate 6 (0 : Byte) ++ natLE 2 16 ++ List.replicate 8 0 ++ natLE 1 hold ++ [0] ++ natLE 2 frames
  { tHailed with
    af := { tHailed.af with running := true, count := 5000, hist := List.replicate 8 [] }
    lo := { tHailed.lo with model0 := some blob, model1 := some blob, session := some { LoRun.reset with start := 4000, anchor := 3999 } } }

/-- Slot 0's run after its first frame. -/
def tLoRun (s : State) : Option (Nat × LoRun) :=
  s.lo.model0.map (fun blob =>
    let n := (s.lo.run0.frames + 1) * loHop blob - 1
    let u := (s.check Reg.afInject Reg.afErr 0 12 none).loChecks
    (n, u.lo.run0.take blob (u.frameSamples [] n 0 n)))

/-- The session's run after its next frame. -/
def tLoSession (s : State) : Option (Nat × LoRun) :=
  s.lo.session.bind (fun q => s.lo.model1.map (fun blob =>
    let n := q.start + (q.frames + 1) * loHop blob - 1
    let u := s.ringChecks.loChecks
    (n, q.take blob (u.frameSamples q.kept q.anchor q.start n))))

theorem test_witness_TheIslandListensAndTheCamerasSee_island :
    (tAf 0 0).afUp = true ∧ (tAf 0 0).af.streams = [] ∧ ((tAf 0 0).setF Reg.afCfg 25 24 3).t0mic = 0 ∧
      bit (((tAf 0 0).setF Reg.afCfg 25 24 3).getF Reg.afCfg 31 24) 0 = true ∧ (tAf 0 0).loUp = true ∧
      (tLoRun (tAf 0 0)).any (fun p => decide (p.1 < 5000) && decide (0 ≤ p.2.high) && p.2.since.isNone) = true ∧
      (tLoRun (tAf 255 0)).any (fun p => decide (p.1 < 5000) && !decide (255 ≤ p.2.high)) = true ∧
      (tLoSession (tAf 0 0)).any (fun p => decide (p.1 < 5000) && decide (0 ≤ p.2.high)) = true ∧
      (tLoSession (tAf 255 0)).any (fun p => decide (p.1 < 5000) && decide (p.2.high < 255) && decide (0 ≤ p.2.frames)) = true ∧
      (tLoSession (tAf 255 9)).any (fun p => decide (p.2.high < 255) && decide (p.2.low < 255) && decide (p.2.frames < 9)) = true := by
  decide +kernel

/-- A parameter block of one exposure of 64 by 2 pixels, both outputs off. -/
def tParams : List Byte :=
  [0, 1, 0x2A, 0] ++ natLE 2 64 ++ natLE 2 2 ++ natLE 2 256 ++ natLE 2 256 ++ List.replicate 52 0 ++
    (List.range 3).flatMap (fun _ => (List.range 17).flatMap (fun i => natLE 4 i ++ natLE 4 0)) ++ List.replicate 552 0

/-- Camera 0 runs at every frame, its parameter block at byte 64 of the commons; a frame is open or not. -/
def tCamera (open_ : Bool) : State :=
  let cells := ((List.range 1024).zip tParams).filter (fun c => c.2 != 0)
  let s := { tState with mem := cells.map (fun c : Nat × Byte => (64 + c.1, c.2)) }
  let s := (s.setReg (Reg.ipPortCTL 0) (2 ^ 31)).setReg (Reg.ipPortPARAM 0) 1
  s.updCamera 0 (fun q => { q with
    running := true, ctl := 0x80000000#32, frame := if open_ then some ⟨1, 0, tParams, [[], [], []], (0, 0)⟩ else none })

theorem test_witness_TheIslandListensAndTheCamerasSee_cameras :
    (tCamera false).ipUp = true ∧ (tCamera false).ip.ports.length = 4 ∧ ((tCamera false).camera 0).running = true ∧
      ((tCamera false).camera 0).frame.isNone = true ∧ (tCamera false).visionGate = false ∧
      (let u := ((tCamera false).updCamera 0 (fun q => { q with ctl := BitVec.ofNat 32 ((tCamera false).reg (Reg.ipPortCTL 0)) })).settleCameras
       let v := u.bump (Reg.ipPortCNT0 0) 31 0 48 1 none
       (u.camera 0).running = true ∧ u.cameraRate 0 = 0 ∧ v.paramOk (v.read (v.getF (Reg.ipPortPARAM 0) 21 0 * 64) 1024) = true) ∧
      (((tCamera true).camera 0).frame).any (fun f => 0x2A == fld f.params 2 1 && decide (0 < pbExposures f.params) &&
        64 == pbWidth f.params && decide (((f.lines[0]?).getD []).length < pbHeight f.params)) = true ∧
      (tCamera true).armed Reg.ipInject 0 = false ∧ (tCamera true).armed Reg.ipInject 1 = false ∧ (tCamera true).ipUp = true ∧
      ((tCamera true).camera 0).bands = none ∧ ((tCamera true).camera 0).verdicts.length < 3 ∧ (tCamera true).visionGate = false := by
  decide +kernel


/-- The array switched on at sample index `b`. -/
def tArray (b : Nat) : State := { tAf 0 0 with af := { (tAf 0 0).af with array := some b, splice := none } }

theorem test_witness_TheIslandListensAndTheCamerasSee_splice :
    (tArray 5000).afUp = true ∧ (tArray 5000).af.count = 5000 ∧ (tArray 5001).af.splice = none ∧ tState.afUp = false ∧
      (tAf 0 0).lo.model0.any (fun b => decide ((tAf 0 0).af.count ≤ (400 + 1) * loHop b - 1)) = true := by decide +kernel

/-- A frame that a started port would drop: 60 frames a second are asked for, and the last came 1 ms ago. -/
def tFast : State := (tCamera true).setF (Reg.ipPortCTL 0) 29 24 60

theorem test_witness_TheIslandListensAndTheCamerasSee_starts :
    (let s := tFast.updCamera 0 (fun q => { q with ctl := BitVec.ofNat 32 (tFast.reg (Reg.ipPortCTL 0)), admitted := true })
     (s.camera 0).running && s.ipUp) = true ∧
      (let s := (tCamera false).setReg (Reg.ipPortCTL 0) 0
       !((s.updCamera 0 (fun q => { q with ctl := BitVec.ofNat 32 (s.reg (Reg.ipPortCTL 0)) })).settleCameras.camera 0).running &&
         (s.camera 0).running) = true ∧
      (let s := (tCamera false).setReg (Reg.ipPortPARAM 0) 0
       !(s.paramOk (s.read (s.getF (Reg.ipPortPARAM 0) 21 0 * 64) 1024))) = true := by decide +kernel

theorem test_witness_TheIslandListensAndTheCamerasSee_lines :
    ((tCamera true).setReg Reg.ipInject 1).armed Reg.ipInject 0 = true ∧ ((tCamera true).setReg Reg.ipInject 1).ipUp = true ∧
      (((tCamera true).camera 0).frame).any (fun f => 0x2B != fld f.params 2 1 && decide (pbExposures f.params ≤ 3) &&
        decide (([1] : List Nat).length ≠ pbWidth f.params)) = true ∧
      (((tCamera true).updCamera 0 (fun q => { q with bands := some [1, 2], verdicts := [1, 1] })).camera 0).bands.isSome = true := by
  decide +kernel

/-- `tHailed` on a rung, with a host claim or none. -/
def tRung (r : Rung) (c : Option Rung) : State := { tHailed with pw := { tHailed.pw with rung := r, hostClaim := c } }

/-- That state in an entry into a rung. -/
def tEntry (r down : Rung) (c : Option Rung) (window latch : Bool) : State :=
  { tRung r c with pw := { (tRung r c).pw with entry := some down, window := window, latch := latch } }

theorem test_witness_TheLadderIsDescendedAndClimbed_entries :
    (tRung .run none).pw.rung.below = some .idle ∧ (tRung .run none).pwUp = true ∧ (tRung .run none).ck.stopped = false ∧
      (tRung .run none).ck.gaveUp = false ∧ (tRung .run none).pw.entry = none ∧
      (tRung .run none).standing.height < (tRung .run none).pw.rung.height ∧ (tRung .run none).quietFor = true ∧
      (tRung .run none).idleTime ≠ 0xFFFFFFFF ∧ (tRung .moor none).pw.rung.below = some .fallow ∧
      (tRung .moor none).getF Reg.ckStatus 28 28 ≠ 0 ∧
      (tEntry .run .idle none true false).pw.window = true ∧ (tEntry .run .idle none false true).pw.latch = true ∧
      (tEntry .doze .nap none false false).saved = true ∧
      (tEntry .run .idle (some .run) false false).pw.rung.height ≤ (tEntry .run .idle (some .run) false false).standing.height ∧
      (tRung .doze (some .run)).pw.rung.above = some .idle ∧ (tRung .nap (some .run)).pw.rung.above = some .doze ∧
      (tRung .nap (some .run)).image.isSome = true ∧ (tRung .doze (some .run)).pw.rung.height < (tRung .doze (some .run)).standing.height := by
  decide +kernel

theorem test_witness_TheLadderIsDescendedAndClimbed_island :
    ({ tRung .run none with pw := { (tRung .run none).pw with zeroing := [127] } }).pw.zeroing.contains 127 = true ∧
      tState.coreUp = true ∧
      tHailed.pw.island.any (fun q => q.1.wakeTimer == 1000) = true ∧
      (tRung .moor none).getF Reg.ckStatus 29 29 = 1 ∧ (tRung .moor none).pw.window = false ∧
      ((tRung .moor none).setReg Reg.pwLinkwake 8).getF Reg.pwLinkwake 3 3 ≠ 0 ∧
      (tRung .moor none).pw.rung.height < Rung.height .doze ∧ (tRung .moor none).pwUp = true ∧ tHailed.islandUp = true ∧
      (derateNext tHailed.pw.level tHailed.pw.budget tHailed.pw.quiet tHailed.powerCap 0 25).1 = 0 := by decide +kernel

/-- A state whose domains are stopped by a loss of lock. -/
def tUnlocked (s : State) : State := { s with ck := { s.ck with stopped := true } }

/-- GDDR6 fitted: one 512 MiB channel device each. -/
def tFitted : State := { tState with image := some { tImage with dram := 1 } }

/-- DRAM start-up in stage `k`. -/
def tStage (k : Nat) (full : Bool) : State := { tFitted with mcStage := some (k, full) }

theorem test_witness_BootsClocksAndRails :
    ({ State.reset with pw := { State.reset.pw with rung := .nap } }).pwUp = true ∧ State.reset.image = none ∧
      State.reset.ck.stopped = false ∧ State.reset.ck.gaveUp = false ∧ tState.pwUp = true ∧
      (List.range 4).all (fun k => tState.clockWatched k && tState.getF Reg.ckStatus (31 - k) (31 - k) != 0) = true ∧
      tState.resetLow = false ∧ (tUnlocked tState).ck.stopped = true ∧ (tUnlocked tState).dramBytes = 0 ∧
      (tUnlocked tFitted).dramBytes ≠ 0 ∧ (tStage 3 true).mcStage = some (3, true) ∧ (tStage 6 false).mcStage = some (6, false) ∧
      (tStage 7 true).mcStage = some (7, true) ∧ (tStage 3 true).coreUp = true ∧ (tStage 3 true).inReset 15 = false := by decide +kernel

/-- Two pulses wait. -/
def tPulsed : State := { tState with fc := { tState.fc with pulses := [⟨0, none⟩, ⟨63, none⟩] } }

/-- A block in reset. -/
def tReset (b : Nat) : State := { tState with fc := { tState.fc with resets := [b] } }

theorem test_witness_FaultsAreCollectedAndReset :
    tPulsed.coreUp = true ∧ tPulsed.fc.pulses ≠ [] ∧ tPulsed.sd.run = none ∧ (tReset 0).inReset 0 = true ∧ (tReset 7).inReset 7 = true ∧
      (tReset 40).inReset 40 = true ∧ (tReset 40).coreUp = true ∧
      ({ tState with fc := { tState.fc with fieldReset := some 0 } }).fc.fieldReset = some 0 ∧ tState.dx.ctxs = [] ∧
      tState.fieldRuns 0 = false ∧ (tState.setF Reg.wpStatus 30 30 1).getF Reg.wpStatus 30 30 = 1 ∧
      ({ tState with hp := { tState.hp with lost := [(0, 5)] } }).hpUp = true ∧ tState.outUsed + 64 ≤ 188416 := by decide +kernel

theorem test_witness_CommandsThatStoreNothing :
    (Instr.jobStart 0).storesNothing = true ∧ (match exec (.jobStart 0) tState with | .next _ => true | _ => false) = true := by
  decide +kernel

theorem test_witness_NoFieldTakesBeyondItsFrameLimit : ((tCache 1 1 5 16).takeFrame 0).isSome = true := by decide +kernel

/-- R501: a packet that finds the input buffer full cuts the frame, which counts in OVERFLOW. -/
theorem test_full_buffer_cuts_the_frame :
    (match exec (.csiLine 0 0 0x2A true true []) (tCamera true) with
      | .next t => t.getF (Reg.ipPortCNT1 0) 15 0 == 1 && t.getF (Reg.ipPortCNT1 0) 31 16 == 0 && (t.camera 0).frame.isNone
      | _ => false) = true := by decide +kernel

theorem test_witness_TheLadderIsDescendedAndClimbed_windows :
    (tEntry .run .idle none true false).pwUp = true ∧ (tEntry .run .idle none false true).pwUp = true ∧
      (tEntry .run .idle none false false).standing.height < (tEntry .run .idle none false false).pw.rung.height ∧
      (tEntry .run .idle (some .run) false false).pwUp = true ∧ (tEntry .run .idle (some .run) false false).pw.entry = some .idle ∧
      (let s := ((tEntry .doze .nap none true false).setReg Reg.pwLinkwake 8)
       s.pw.window && s.pwUp && s.pw.entry == some .nap && s.getF Reg.pwLinkwake 3 3 != 0) = true ∧
      ({ tHailed with pw := { tHailed.pw with hot := true } }).pwUp = true := by decide +kernel

theorem test_witness_BootsClocksAndRails_lost :
    (tUnlocked tState).ck.gaveUp = false ∧ (tUnlocked tState).resetLow = false ∧
      ((((({ tUnlocked tFitted with ck := { (tUnlocked tFitted).ck with stopped := false } }).setF Reg.ckStatus 31 30 3).bump16 Reg.ckCnt 1
        none).pulse 42 none).restartRound).dramBytes ≠ 0 ∧ (tStage 0 false).mcStage = some (0, false) ∧ (tStage 6 true).coreUp = true := by
  decide +kernel

/-- A sounding on engine 0 runs, and a pulse of that engine waits that names its step. -/
def tSounded : State :=
  { tState with sd := { tState.sd with run := some (0, 0, none) }, fc := { tState.fc with pulses := [⟨0, some (0xFFFF, 0#32)⟩] } }

theorem test_witness_FaultsAreCollectedAndReset_reactions :
    (∃ r ∈ tSounded.sd.run, ∃ p ∈ tSounded.fc.pulses, p.bit = r.2.1 ∧ ∃ n ∈ p.step, n.1 = 0xFFFF) ∧
      (([⟨63, none⟩] : List Pulse).find? tState.bringsSafe).isSome = true ∧
      ({ tState with fc := { tState.fc with fieldReset := some 0 }, dx := (tWord 0 0).dx }).fc.fieldReset = some 0 := by
  decide +kernel

/-! ### The manual's worked examples, and single steps worked out from it by hand -/

/-- The header word of chapter 5's example (R152). -/
theorem test_header : Hdr.of 0x0C12030114283001 = ⟨true, false, 0x12, 0x0301, 5, 40, 3, 1⟩ ∧
    (Hdr.of 0x0C12030114283001).drillKey 0 = 0x0301000 ∧ (Hdr.of 0x0C12030114283001).drillKey 1 = 0x0301001 := by decide

/-- The operand words of chapter 6's example (R182). -/
theorem test_projWords : MatX.of 0xC000000C0FC08000 = ⟨0xC000000, 0, 4, 2048, 1024, 0⟩ ∧
    MatS.of 0x4040000108040000 = ⟨1, 0, 0x20000 * 64, 0x21008 * 64, 0, 0⟩ ∧
    MatY.of 0xC2000007FF801001 = ⟨0xC200000, 0, 128, 32, 128, 64⟩ := by decide

/-- The packed rows of chapter 2's example: S4, D2, T5P and S12 (R47, R53 to R55, R57), and their sum of products. -/
theorem test_packing : (List.range 2).map (fun i => lane4 0 (nibble [0xE3] i)) = [3, -2] ∧
    (List.range 4).map (weightLane 3 [0x78]) = [-3, 1, 3, -1] ∧ (List.range 5).map (t5pLane 0xA7) = [1, 0, -1, -1, 1] ∧
    (List.range 2).map (fun i => signed 12 (elem12 [0xFB, 0xCF, 0x12] i)) = [-5, 300] ∧ dot [-3, 1, 3, -1] [3, -2, 7, -8] = 18 := by
  decide

/-- A T5P byte above 242 decodes as zeros (R56). -/
theorem test_badT5p : (List.range 5).map (t5pLane 243) = [0, 0, 0, 0, 0] ∧ (List.range 5).map (t5pLane 242) = [1, 1, 1, 1, 1] := by
  decide

/-- Chapter 3's output: accumulator 1234 under scale 0x1B00 and bias −1.5 (R72, R73). -/
theorem test_output : ((⟨0x1B00, false, 0xBFC00000⟩ : ChanRec).output 0 false 1234 12042239).q = 3 ∧
    ((⟨0x1B00, false, 0xBFC00000⟩ : ChanRec).output 0 false 1234 12042240).q = 2 ∧
    ((⟨0x1B00, false, 0xBFC00000⟩ : ChanRec).output 0 true 1234 0).q = 3 := by decide +kernel

/-- The ties of R75. -/
theorem test_ties : [(3, -1), (5, 0), (7, 0), (10, 0)].map (fun p : Int × Int => requantise 2 true ⟨p.1, p.2⟩ 0) = [2, 4, 8, 8] := by decide

/-- S16 inputs under an input shift of 4 (R58). -/
theorem test_shift : [1000, 32767].map (fun x => shiftS16 x 4) = [62, 2047] ∧ shiftS16 (-32768) 0 = -2048 := by decide

/-- The identity map and the rectifier of chapter 6. -/
theorem test_maps : (List.range 16).map (applyMap (some 0xFEDCBA9876543210)) = List.range 16 ∧
    (List.range 16).map (applyMap (some 0x0000000076543210)) = List.range 8 ++ List.replicate 8 0 := by decide

/-- Two register addresses that the manual works out (chapters 3 and 12). -/
theorem test_addresses : Reg.quSatcnt 9 5 = 0x01090B28 ∧ Reg.dmChSTAT 5 = 0x01200260 := by decide

/-- RAISE and WAIT over the wrap (R166). -/
theorem test_counters : raiseTo 0xFFFFFFFF 1 = 1 ∧ raiseTo 1 0xFFFFFFFF = 1 ∧ raiseTo 0 0x80000000 = 0 ∧
    atOrAfter 1 0xFFFFFFFF = true ∧ atOrAfter 0xFFFFFFFF 1 = false ∧ atOrAfter 5 5 = true := by decide

/-- After reset, STATUS drives an empty inbound buffer of 262,144 bytes, no frame, no flag and Doze (R636). -/
theorem test_status : (match exec (.status 0xFA) State.reset with | .next t => t.hp.dq | _ => []) =
    natLE 4 262144 ++ natLE 4 0 ++ [0, 3] ++ List.replicate 6 0 := by decide

/-- MODE with byte 0x01 sets 8D (R635). -/
theorem test_mode : (match exec (.mode 0 1) State.reset with | .next t => t.hp.dtr | _ => false) = true := by decide

/-- The strand of context 0 after a step of engine 0. -/
def tAfter (i : Instr) (s : State) : Option (Nat × List Nat × Option Wait) :=
  match exec i s with
  | .next t => (t.strandAt 0 0).map (fun p => (p.2.2.pc, p.2.2.loops, p.2.2.wait))
  | _ => none

/-- NOP goes on one word; a JUMP with LOOP of count 2 loads register 1 and jumps; a WAIT for a later value waits (R157, R166). -/
theorem test_strand : tAfter (.nop 0) (tWord 0 0) = some (1, [0, 0, 0, 0], none) ∧
    tAfter (.jump 0) (tWord 0x07 (2 ^ 58 + 2 ^ 56 + 2 * 2 ^ 32 + 1)) = some (1, [0, 1, 0, 0], none) ∧
    tAfter (.wait 0) (tWord 0x08 (7 * 2 ^ 32 + 9)) = some (0, [0, 0, 0, 0], some (.counter false 7 9)) := by decide +kernel

/-- The code of the job of context 0 after a step of engine 0. -/
def tCode (i : Instr) (s : State) : Option Nat :=
  match exec i s with
  | .next t => ((t.ctx 0).bind Ctx.running).bind JobRun.code
  | _ => none

/-- STEP in an open step ends the job with OPEN_STEP (R418). -/
theorem test_jobCodes : tCode (.step 0) (tWord 0x02 0) = some Code.openStep := by decide +kernel

/-- A SIGNAL with ADD adds its VALUE to a context counter (R156, R166). -/
theorem test_signalAdd : (match exec (.signalAdd 0) (tWord 0x09 (3 * 2 ^ 32 + 0xFFFFFFFF)) with
    | .next t => (t.ctx 0).map Ctx.counters | _ => none) = some [0, 0, 0, 0xFFFFFFFF, 0, 0, 0, 0] := by decide +kernel

/-- APERTURE moves the owner's aperture to a multiple of 2 GiB (R578). -/
theorem test_aperture : (match exec (.aperture .owner 7 0x80000000) tState with | .next t => t.aperture .owner | _ => 0) = 0x80000000 := by
  decide

/-- MEM_WRITE stores little-endian bytes where MEM_READ would find them (R578). -/
theorem test_memWrite : (match exec (.memWrite .owner 7 16 2 [0x34, 0x12]) tState with | .next t => fld (t.read 15 4) 0 4 | _ => 0) =
    0x00123400 := by decide +kernel

/-- IMG_BEGIN clears the commons, whatever they held (R657). -/
theorem test_imgBegin : (match exec (.imgBegin .anon 7 128) (State.reset.write 5 [1]) with | .next t => (t.mem, t.load.isSome) | _ => ([], false)) =
    ([], true) := by decide +kernel

/-- IRQ_N falls when a reply is queued, and is high after reset (R639). -/
theorem test_irq : State.reset.irqLow = false ∧ tReply.irqLow = true ∧ State.reset.pdmClkA = false ∧ State.reset.dramEnHigh = false := by
  decide

/-! ### Well-formedness: each check refuses a command that breaks it alone -/

theorem test_wellFormed_accepts_1 :
    ([.status 0, .frameWrite 0 0 [], .frameRead 0 0, .mode 0 0, .echo .owner 0 [], .regRead .owner 0 0 1, .lowWordRead .owner 0 0,
      .highWordRead .owner 0 0, .regWrite .owner 0 0 (List.replicate 1 0), .memRead .owner 0 0 1, .memWrite .owner 0 0 1 [0],
      .aperture .owner 0 0, .hostClaim .owner 0 0, .hail .owner 0, .release .owner 0 0, .imgBegin .owner 0 0, .commonsZeroed,
      .imgData .owner 0 0 (List.replicate 1 0), .imgTimeout, .quote .owner 0 (List.replicate 32 0), .quoteDone,
      .keyRelease .owner 0 [], .keyDrop .owner 0 0 0, .weightLoad .owner 0 [], .ownerSet .owner 0 0 (List.replicate 32 0) [],
      .ownerBurnDone, .sdLoad .owner 0 0 0, .ctxOpen .owner 0 0 0 0 0, .ctxClose .owner 0 0, .closeComplete 0,
      .jobSubmit .owner 0 0 0, .jobAbort .owner 0 0 0, .ctxResume .owner 0 0 false, .counterRead .owner 0 0 0 0,
      .counterAdd .owner 0 0 0 0 0, .counterRaise .owner 0 0 0 0 0, .kvInit .owner 0 0 0, .kvAdopt .owner 0 0 0 0 0,
      .kvPublish .owner 0 0 0 0 0, .kvTruncate .owner 0 0 0, .kvFree .owner 0 0, .kvPrune .owner 0 0, .kvFork .owner 0 0 0 0,
      .kvLoad .owner 0 0 0 0, .stInit .owner 0 0 0 0, .stReset .owner 0 0, .stEvict .owner 0 0, .stFree .owner 0 0,
      .tuMap .owner 0 0 0 0 0 0 0 0 0, .tuUnmap .owner 0 0 0, .tuHint .owner 0 0 0 0, .tuPlace .owner 0 0 0 0 0] : List Instr).all
      wellFormed = true := by decide +kernel

theorem test_wellFormed_accepts_2 :
    ([.tuPin .owner 0 0 0 0, .tuUnpin .owner 0 0 0 0, .tuEvacuate .owner 0 0, .tuSow .owner 0 0 0 0, .dmStart .owner 0 0,
      .dmAbort .owner 0 0, .eventsLost, .quClear .owner 0 0 false 0, .quWatchWrite .owner 0 0 0 false 0,
      .meDgrpWrite .owner 0 0 0 false false 0, .kmModeWrite .owner 0 0, .afBeamCommit .owner 0 0, .afCfgWrite .owner 0 0,
      .mcRetrain .owner 0 0, .tuNbrWrite .owner 0 0 false 0, .tuLendWrite .owner 0 0, .lxEnWrite .owner 0 0 0,
      .lxIdWrite .owner 0 false 0, .dmCfgWrite .owner 0 0 0 false 0, .dmTimerWrite .owner 0 0 false 0,
      .ipGateWrite .owner 0 false false 0, .ipPortCtlWrite .owner 0 0 0, .fcClear .owner 0 false 0, .fcForce .owner 0 false 0,
      .fcFenceSet .owner 0 0, .fcFenceReturn .owner 0 0, .fcBlockReset .owner 0 0, .fcFieldReset .owner 0 0, .fcSafe .owner 0,
      .wpFire .owner 0, .wpArm .owner 0 false, .injectArm .owner 0 0 0, .nop 0, .step 0, .commit 0, .endd 0, .next 0, .spawn 0,
      .jump 0, .wait 0, .waitSatisfied 0 0, .signalAdd 0, .signalRaise 0, .fence 0, .fenceComplete 0 0, .tapeHail 0,
      .tapeRelease 0, .event 0, .trigger 0, .gate 0, .add 0, .proj 0] : List Instr).all
      wellFormed = true := by decide +kernel

theorem test_wellFormed_accepts_3 :
    ([.sumq 0, .rmsnorm 0, .outer 0, .update 0, .digest 0, .digestVerdict 0, .attend 0, .append 0, .scan 0, .hold 0, .conv 0,
      .pool 0, .econv 0, .commandEnd 0 0, .strandSuspend 0, .placeStrand, .commitTaken, .completionTaken, .abortTaken,
      .jobReport 0, .jobStart 0, .stepReplay 0, .quantumExpiry 0, .boundOverrun 0, .slotStart, .guardOpen, .watchdog, .switchBind,
      .switchHoldExpiry, .derate 0, .haloRowRaise 0 0, .haloPush 0 false 0, .pushAcked 0 false 0, .segmentFilled 0,
      .furrowFillStart, .walkerBlock 0 0, .flushCopyDone 0, .heldEditApply 0, .swapOut, .swapIn false, .migrationStart 0 0,
      .migrationSwitch 0 0, .leaseReturn 0, .poisonBlock 0 0, .refetchDone 0 0 none, .dmListCheck 0, .dmAccessError 0 0 0,
      .dmRunComplete 0, .dmTimerExpiry 0, .dramStartupStage 0 0, .linkFrame 0 false false 0 0 (List.replicate 640 0),
      .hello 0 0 0 0 0 0 0] : List Instr).all
      wellFormed = true := by decide +kernel

theorem test_wellFormed_accepts_4 :
    ([.lack 0 0, .lnak 0 0, .cred 0 [], .bye 0, .mrd 0 (tMsg 1 0 0 []), .mwr 0 (tMsg 1 0 0 []), .urd 0 (tMsg 1 0 0 []),
      .evt 0 (tMsg 1 0 0 []), .dig 0 (tMsg 1 0 0 []), .wake 0 (tMsg 1 0 0 []), .rdata 0 (tMsg 1 0 0 []), .wack 0 (tMsg 1 0 0 []),
      .portDown 0, .prbsDetect 0, .trainingDone 0 false, .linkWaking 0, .wakeLimitExpiry 0, .linkTimeout 0, .wakePattern 0,
      .afSample (List.replicate 4 []), .loFrame, .loSessionFrame, .serveHail, .holdExpiry 0, .wakeTimer, .wakeNLow, .wakeNEdge,
      .idleTimerExpiry, .entryWindow, .entryAbandon, .climbStep, .bankZeroed 0, .powerSample 0 0, .telemUpdate 0 0,
      .coldBoot false, .railDroop 0, .clockLoss 0, .relockAttempt false false, .relockGiveUp, .faultPulse, .blockResetDone 0,
      .fieldResetDone, .waypoint, .soundingStart [] [], .soundingVerdict, .csiFrameStart 0 0 0, .csiLine 0 0 0 false false [],
      .frameComplete 0 0, .resetNLow, .frameSend 0, .copyComplete, .clockPresent 2] : List Instr).all
      wellFormed = true := by decide +kernel

theorem test_wellFormed_refuses_1 :
    ([.frameWrite 0 4294967296 [], .frameRead 0 4294967296, .echo .owner 4294967296 [], .regRead .owner 4294967296 0 1,
      .regRead .owner 0 4294967296 1, .regRead .owner 0 0 0, .regRead .owner 0 0 257, .lowWordRead .owner 4294967296 0,
      .lowWordRead .owner 0 4294967296, .highWordRead .owner 4294967296 0, .highWordRead .owner 0 4294967296,
      .regWrite .owner 4294967296 0 (List.replicate 1 0), .regWrite .owner 0 4294967296 (List.replicate 1 0),
      .regWrite .owner 0 0 (List.replicate 257 0), .regWrite .owner 0 0 (List.replicate 0 0), .memRead .owner 4294967296 0 1,
      .memRead .owner 0 4294967296 1, .memRead .owner 0 0 0, .memRead .owner 0 0 65537, .memWrite .owner 4294967296 0 1 [0],
      .memWrite .owner 0 4294967296 1 [0], .memWrite .owner 0 0 0 [], .memWrite .owner 0 0 1 [0, 0],
      .aperture .owner 4294967296 0, .aperture .owner 0 18446744073709551616, .hostClaim .owner 4294967296 0,
      .hostClaim .owner 0 256, .hail .owner 4294967296, .release .owner 4294967296 0, .release .owner 0 256,
      .imgBegin .owner 4294967296 0, .imgBegin .owner 0 18446744073709551616, .imgData .owner 4294967296 0 (List.replicate 1 0),
      .imgData .owner 0 18446744073709551616 (List.replicate 1 0), .quote .owner 4294967296 (List.replicate 32 0),
      .quote .owner 0 (List.replicate 33 0), .quote .owner 0 (List.replicate 31 0), .keyRelease .owner 4294967296 [],
      .keyDrop .owner 4294967296 0 0, .keyDrop .owner 0 256 0, .keyDrop .owner 0 0 4294967296, .weightLoad .owner 4294967296 [],
      .ownerSet .owner 4294967296 0 (List.replicate 32 0) [], .ownerSet .owner 0 256 (List.replicate 32 0) [],
      .ownerSet .owner 0 0 (List.replicate 33 0) [], .ownerSet .owner 0 0 (List.replicate 31 0) [], .sdLoad .owner 4294967296 0 0,
      .sdLoad .owner 0 256 0, .sdLoad .owner 0 0 4294967296, .ctxOpen .owner 4294967296 0 0 0 0] : List Instr).any
      wellFormed = false := by decide +kernel

theorem test_wellFormed_refuses_2 :
    ([.ctxOpen .owner 0 65536 0 0 0, .ctxOpen .owner 0 0 18446744073709551616 0 0, .ctxOpen .owner 0 0 0 4294967296 0,
      .ctxOpen .owner 0 0 0 0 256, .ctxClose .owner 4294967296 0, .ctxClose .owner 0 65536, .closeComplete 40960,
      .jobSubmit .owner 4294967296 0 0, .jobSubmit .owner 0 65536 0, .jobSubmit .owner 0 0 4294967296,
      .jobAbort .owner 4294967296 0 0, .jobAbort .owner 0 65536 0, .jobAbort .owner 0 0 4294967296,
      .ctxResume .owner 4294967296 0 false, .ctxResume .owner 0 65536 false, .counterRead .owner 4294967296 0 0 0,
      .counterRead .owner 0 2 0 0, .counterRead .owner 0 0 65536 0, .counterRead .owner 0 0 0 65536,
      .counterAdd .owner 4294967296 0 0 0 0, .counterAdd .owner 0 2 0 0 0, .counterAdd .owner 0 0 65536 0 0,
      .counterAdd .owner 0 0 0 65536 0, .counterAdd .owner 0 0 0 0 4294967296, .counterRaise .owner 4294967296 0 0 0 0,
      .counterRaise .owner 0 2 0 0 0, .counterRaise .owner 0 0 65536 0 0, .counterRaise .owner 0 0 0 65536 0,
      .counterRaise .owner 0 0 0 0 4294967296, .kvInit .owner 4294967296 0 0, .kvInit .owner 0 65536 0,
      .kvInit .owner 0 0 18446744073709551616, .kvAdopt .owner 4294967296 0 0 0 0, .kvAdopt .owner 0 65536 0 0 0,
      .kvAdopt .owner 0 0 18446744073709551616 0 0, .kvAdopt .owner 0 0 0 4294967296 0, .kvAdopt .owner 0 0 0 0 4294967296,
      .kvPublish .owner 4294967296 0 0 0 0, .kvPublish .owner 0 65536 0 0 0, .kvPublish .owner 0 0 18446744073709551616 0 0,
      .kvPublish .owner 0 0 0 4294967296 0, .kvPublish .owner 0 0 0 0 4294967296, .kvTruncate .owner 4294967296 0 0,
      .kvTruncate .owner 0 65536 0, .kvTruncate .owner 0 0 4294967296, .kvFree .owner 4294967296 0, .kvFree .owner 0 65536,
      .kvPrune .owner 4294967296 0, .kvPrune .owner 0 256, .kvFork .owner 4294967296 0 0 0] : List Instr).any
      wellFormed = false := by decide +kernel

theorem test_wellFormed_refuses_3 :
    ([.kvFork .owner 0 65536 0 0, .kvFork .owner 0 0 65536 0, .kvFork .owner 0 0 0 4294967296, .kvLoad .owner 4294967296 0 0 0,
      .kvLoad .owner 0 65536 0 0, .kvLoad .owner 0 0 4294967296 0, .kvLoad .owner 0 0 0 18446744073709551616,
      .stInit .owner 4294967296 0 0 0, .stInit .owner 0 65536 0 0, .stInit .owner 0 0 4294967296 0,
      .stInit .owner 0 0 0 18446744073709551616, .stReset .owner 4294967296 0, .stReset .owner 0 65536,
      .stEvict .owner 4294967296 0, .stEvict .owner 0 65536, .stFree .owner 4294967296 0, .stFree .owner 0 65536,
      .tuMap .owner 4294967296 0 0 0 0 0 0 0 0, .tuMap .owner 0 256 0 0 0 0 0 0 0, .tuMap .owner 0 0 65536 0 0 0 0 0 0,
      .tuMap .owner 0 0 0 18446744073709551616 0 0 0 0 0, .tuMap .owner 0 0 0 0 4294967296 0 0 0 0,
      .tuMap .owner 0 0 0 0 0 256 0 0 0, .tuMap .owner 0 0 0 0 0 0 256 0 0, .tuMap .owner 0 0 0 0 0 0 0 256 0,
      .tuMap .owner 0 0 0 0 0 0 0 0 65536, .tuUnmap .owner 4294967296 0 0, .tuUnmap .owner 0 256 0, .tuUnmap .owner 0 0 65536,
      .tuHint .owner 4294967296 0 0 0, .tuHint .owner 0 256 0 0, .tuHint .owner 0 0 65536 0, .tuHint .owner 0 0 0 256,
      .tuPlace .owner 4294967296 0 0 0 0, .tuPlace .owner 0 256 0 0 0, .tuPlace .owner 0 0 18446744073709551616 0 0,
      .tuPlace .owner 0 0 0 4294967296 0, .tuPlace .owner 0 0 0 0 256, .tuPin .owner 4294967296 0 0 0, .tuPin .owner 0 256 0 0,
      .tuPin .owner 0 0 18446744073709551616 0, .tuPin .owner 0 0 0 4294967296, .tuUnpin .owner 4294967296 0 0 0,
      .tuUnpin .owner 0 256 0 0, .tuUnpin .owner 0 0 18446744073709551616 0, .tuUnpin .owner 0 0 0 4294967296,
      .tuEvacuate .owner 4294967296 0, .tuEvacuate .owner 0 256, .tuSow .owner 4294967296 0 0 0, .tuSow .owner 0 65536 0 0] : List Instr).any
      wellFormed = false := by decide +kernel

theorem test_wellFormed_refuses_4 :
    ([.tuSow .owner 0 0 18446744073709551616 0, .tuSow .owner 0 0 0 4294967296, .dmStart .owner 4294967296 0,
      .dmStart .owner 0 256, .dmAbort .owner 4294967296 0, .dmAbort .owner 0 256, .quClear .owner 4294967296 0 false 0,
      .quClear .owner 0 11 false 0, .quWatchWrite .owner 4294967296 0 0 false 0, .quWatchWrite .owner 0 11 0 false 0,
      .quWatchWrite .owner 0 0 65 false 0, .meDgrpWrite .owner 4294967296 0 0 false false 0,
      .meDgrpWrite .owner 0 5 0 false false 0, .meDgrpWrite .owner 0 0 8 false false 0, .kmModeWrite .owner 4294967296 0,
      .afBeamCommit .owner 4294967296 0, .afCfgWrite .owner 4294967296 0, .mcRetrain .owner 4294967296 0,
      .tuNbrWrite .owner 4294967296 0 false 0, .tuNbrWrite .owner 0 8 false 0, .tuLendWrite .owner 4294967296 0,
      .lxEnWrite .owner 4294967296 0 0, .lxEnWrite .owner 0 4 0, .lxIdWrite .owner 4294967296 false 0,
      .dmCfgWrite .owner 4294967296 0 0 false 0, .dmCfgWrite .owner 0 32 0 false 0, .dmCfgWrite .owner 0 0 3 false 0,
      .dmTimerWrite .owner 4294967296 0 false 0, .dmTimerWrite .owner 0 32 false 0, .ipGateWrite .owner 4294967296 false false 0,
      .ipPortCtlWrite .owner 4294967296 0 0, .ipPortCtlWrite .owner 0 4 0, .fcClear .owner 4294967296 false 0,
      .fcForce .owner 4294967296 false 0, .fcFenceSet .owner 4294967296 0, .fcFenceReturn .owner 4294967296 0,
      .fcBlockReset .owner 4294967296 0, .fcBlockReset .owner 0 64, .fcFieldReset .owner 4294967296 0, .fcFieldReset .owner 0 8,
      .fcSafe .owner 4294967296, .wpFire .owner 4294967296, .wpArm .owner 4294967296 false, .injectArm .owner 4294967296 0 0,
      .injectArm .owner 0 64 0, .nop 11, .step 11, .commit 11, .endd 11, .next 11] : List Instr).any
      wellFormed = false := by decide +kernel

theorem test_wellFormed_refuses_5 :
    ([.spawn 11, .jump 11, .wait 11, .waitSatisfied 40960 0, .waitSatisfied 0 4294967296, .signalAdd 11, .signalRaise 11,
      .fence 11, .fenceComplete 40960 0, .fenceComplete 0 4294967296, .tapeHail 11, .tapeRelease 11, .event 11, .trigger 11,
      .gate 11, .add 11, .proj 11, .sumq 11, .rmsnorm 11, .outer 11, .update 11, .digest 11, .digestVerdict 11, .attend 11,
      .append 11, .scan 11, .hold 11, .conv 11, .pool 11, .econv 11, .commandEnd 11 0, .strandSuspend 11, .jobReport 40960,
      .jobStart 40960, .stepReplay 40960, .quantumExpiry 11, .boundOverrun 11, .derate 16, .haloRowRaise 11 0,
      .haloRowRaise 0 65536, .haloPush 11 false 0, .haloPush 0 false 65536, .pushAcked 11 false 0, .pushAcked 0 false 65536,
      .segmentFilled 256, .walkerBlock 11 0, .walkerBlock 0 1024, .flushCopyDone 40960, .heldEditApply 40960, .migrationStart 8 0] : List Instr).any
      wellFormed = false := by decide +kernel

theorem test_wellFormed_refuses_6 :
    ([.migrationStart 0 16777216, .migrationSwitch 8 0, .migrationSwitch 0 16777216, .poisonBlock 8 0,
      .poisonBlock 0 1099511627776, .refetchDone 8 0 none, .refetchDone 0 1099511627776 none, .dmListCheck 32,
      .dmAccessError 32 0 0, .dmAccessError 0 256 0, .dmRunComplete 32, .dmTimerExpiry 32, .dramStartupStage 65536 0,
      .linkFrame 4 false false 0 0 (List.replicate 640 0), .linkFrame 0 false false 16 0 (List.replicate 640 0),
      .linkFrame 0 false false 0 65536 (List.replicate 640 0), .linkFrame 0 false false 0 0 (List.replicate 641 0),
      .linkFrame 0 false false 0 0 (List.replicate 639 0), .hello 4 0 0 0 0 0 0, .hello 0 4294967296 0 0 0 0 0,
      .hello 0 0 1024 0 0 0 0, .hello 0 0 0 4 0 0 0, .hello 0 0 0 0 256 0 0, .hello 0 0 0 0 0 256 0, .hello 0 0 0 0 0 0 256,
      .lack 4 0, .lack 0 4294967296, .lnak 4 0, .lnak 0 4294967296, .cred 4 [], .bye 4, .mrd 4 (tMsg 1 0 0 []),
      .mrd 0 (⟨256, 0, false, false, 0, 0, 0, 0, 0, []⟩), .mrd 0 (⟨1, 8, false, false, 0, 0, 0, 0, 0, []⟩),
      .mrd 0 (⟨1, 0, false, false, 1024, 0, 0, 0, 0, []⟩), .mrd 0 (⟨1, 0, false, false, 0, 1024, 0, 0, 0, []⟩),
      .mrd 0 (⟨1, 0, false, false, 0, 0, 65536, 0, 0, []⟩), .mrd 0 (⟨1, 0, false, false, 0, 0, 0, 4096, 0, []⟩),
      .mrd 0 (⟨1, 0, false, false, 0, 0, 0, 0, 281474976710656, []⟩),
      .mrd 0 (⟨1, 0, false, false, 0, 0, 0, 0, 0, List.replicate 513 0⟩), .mwr 4 (tMsg 1 0 0 []),
      .mwr 0 (⟨256, 0, false, false, 0, 0, 0, 0, 0, []⟩), .urd 4 (tMsg 1 0 0 []),
      .urd 0 (⟨256, 0, false, false, 0, 0, 0, 0, 0, []⟩), .evt 4 (tMsg 1 0 0 []),
      .evt 0 (⟨256, 0, false, false, 0, 0, 0, 0, 0, []⟩), .dig 4 (tMsg 1 0 0 []),
      .dig 0 (⟨256, 0, false, false, 0, 0, 0, 0, 0, []⟩), .wake 4 (tMsg 1 0 0 []),
      .wake 0 (⟨256, 0, false, false, 0, 0, 0, 0, 0, []⟩)] : List Instr).any
      wellFormed = false := by decide +kernel

theorem test_wellFormed_refuses_7 :
    ([.rdata 4 (tMsg 1 0 0 []), .rdata 0 (⟨256, 0, false, false, 0, 0, 0, 0, 0, []⟩), .wack 4 (tMsg 1 0 0 []),
      .wack 0 (⟨256, 0, false, false, 0, 0, 0, 0, 0, []⟩), .portDown 4, .prbsDetect 4, .trainingDone 4 false, .linkWaking 4,
      .wakeLimitExpiry 4, .linkTimeout 4096, .wakePattern 4, .afSample (List.replicate 5 []), .afSample (List.replicate 3 []),
      .holdExpiry 14, .bankZeroed 128, .railDroop 5, .clockLoss 4, .blockResetDone 64, .csiFrameStart 4 0 0,
      .csiFrameStart 0 65536 0, .csiLine 4 0 0 false false [], .csiLine 0 16 0 false false [], .csiLine 0 0 64 false false [], .frameComplete 4 0,
      .frameSend 4, .clockPresent 1, .clockPresent 4] : List Instr).any
      wellFormed = false := by decide +kernel

theorem test_wellFormed_refuses_long :
    wellFormed (.echo .owner 0 (List.replicate 131073 0)) = false ∧
      wellFormed (.imgData .owner 0 0 (List.replicate 65537 0)) = false ∧
      wellFormed (.memWrite .owner 0 0 65537 (List.replicate 65537 0)) = false := by
  simp only [wellFormed, Wf.lens, Wf.count, Wf.u32, Wf.u64, List.length_replicate]
  decide

end Sys2Proof.Tests
end

section
/-!
SUPPORT. What every step keeps: State.Kept of the meaning of each command carries over to exec and to step.
-/
namespace Sys2Proof.Machine

/-- A block with no command waiting idles (log 1). -/
theorem step_of_pending_nil {s : State} (h : s.pending = []) : step s = .next s := by
  unfold step
  rw [h]

/-- With a command at the front of the queue, a step runs it on the rest. -/
theorem step_of_pending_cons {s : State} {c : Instr} {cs : List Instr} (h : s.pending = c :: cs) :
    step s = exec c { s with pending := cs } := by
  unfold step
  rw [h]

/-- Settles O1: the two cases of the queue. -/
theorem stepRunsFrontCommand : Obligations.StepRunsFrontCommand :=
  ⟨fun _ _ _ => step_of_pending_cons rfl, fun _ => step_of_pending_nil⟩

/-- A state with canonical memory is kept against its own mark. -/
theorem State.Safe.kept {s : State} (h : s.Safe) : s.Kept s.mark := ⟨rfl, h, List.prefix_rfl, Nat.le_refl _, Nat.le_refl _⟩

/-- No command disturbs what State.Kept names: each arm of exec by the lemma of its meaning. -/
theorem exec_kept {Q : Mark} (c : Instr) (s : State) (hk : s.Kept Q) : OutKept Q (exec c s) :=
  match c with
  | .status inv => execStatus_kept inv s hk
  | .frameWrite inv len data => execFrameWrite_kept inv len data s hk
  | .frameRead inv most => execFrameRead_kept inv most s hk
  | .mode inv b0 => execMode_kept inv b0 s hk
  | .echo r rid data => execEcho_kept r rid data s hk
  | .regRead r rid addr words => execRegRead_kept r rid addr words s hk
  | .lowWordRead r rid addr => execLowWordRead_kept r rid addr s hk
  | .highWordRead r rid addr => execHighWordRead_kept r rid addr s hk
  | .regWrite r rid addr ws => execRegWrite_kept r rid addr ws s hk
  | .memRead r rid off len => execMemRead_kept r rid off len s hk
  | .memWrite r rid off len data => execMemWrite_kept r rid off len data s hk
  | .aperture r rid base => execAperture_kept r rid base s hk
  | .hostClaim r rid rung => execHostClaim_kept r rid rung s hk
  | .hail r rid => execHail_kept r rid s hk
  | .release r rid hail => execRelease_kept r rid hail s hk
  | .imgBegin r rid len => execImgBegin_kept r rid len s hk
  | .commonsZeroed => execCommonsZeroed_kept s hk
  | .imgData r rid off data => execImgData_kept r rid off data s hk
  | .imgTimeout => execImgTimeout_kept s hk
  | .quote r rid nonce => execQuote_kept r rid nonce s hk
  | .quoteDone => execQuoteDone_kept s hk
  | .keyRelease r rid data => execKeyRelease_kept r rid data s hk
  | .keyDrop r rid field id => execKeyDrop_kept r rid field id s hk
  | .weightLoad r rid data => execWeightLoad_kept r rid data s hk
  | .ownerSet r rid slot key rest => execOwnerSet_kept r rid slot key rest s hk
  | .ownerBurnDone => execOwnerBurnDone_kept s hk
  | .sdLoad r rid slot off => execSdLoad_kept r rid slot off s hk
  | .ctxOpen r rid ctx list entries prime => execCtxOpen_kept r rid ctx list entries prime s hk
  | .ctxClose r rid ctx => execCtxClose_kept r rid ctx s hk
  | .closeComplete ctx => execCloseComplete_kept ctx s hk
  | .jobSubmit r rid ctx entry => execJobSubmit_kept r rid ctx entry s hk
  | .jobAbort r rid ctx serial => execJobAbort_kept r rid ctx serial s hk
  | .ctxResume r rid ctx drain => execCtxResume_kept r rid ctx drain s hk
  | .counterRead r rid scope id index => execCounterRead_kept r rid scope id index s hk
  | .counterAdd r rid scope id index value => execCounterAdd_kept r rid scope id index value s hk
  | .counterRaise r rid scope id index value => execCounterRaise_kept r rid scope id index value s hk
  | .kvInit r rid ctx stage => execKvInit_kept r rid ctx stage s hk
  | .kvAdopt r rid ctx tokaddr ntok tag => execKvAdopt_kept r rid ctx tokaddr ntok tag s hk
  | .kvPublish r rid ctx tokaddr nblocks tag => execKvPublish_kept r rid ctx tokaddr nblocks tag s hk
  | .kvTruncate r rid ctx t => execKvTruncate_kept r rid ctx t s hk
  | .kvFree r rid ctx => execKvFree_kept r rid ctx s hk
  | .kvPrune r rid field => execKvPrune_kept r rid field s hk
  | .kvFork r rid src dst t => execKvFork_kept r rid src dst t s hk
  | .kvLoad r rid ctx k addr => execKvLoad_kept r rid ctx k addr s hk
  | .stInit r rid ctx nslot swap => execStInit_kept r rid ctx nslot swap s hk
  | .stReset r rid ctx => execStReset_kept r rid ctx s hk
  | .stEvict r rid ctx => execStEvict_kept r rid ctx s hk
  | .stFree r rid ctx => execStFree_kept r rid ctx s hk
  | .tuMap r rid field obj ua pages hint flags back backdev => execTuMap_kept r rid field obj ua pages hint flags back backdev s hk
  | .tuUnmap r rid field obj => execTuUnmap_kept r rid field obj s hk
  | .tuHint r rid field obj hint => execTuHint_kept r rid field obj hint s hk
  | .tuPlace r rid field ua pages home => execTuPlace_kept r rid field ua pages home s hk
  | .tuPin r rid field ua pages => execTuPin_kept r rid field ua pages s hk
  | .tuUnpin r rid field ua pages => execTuUnpin_kept r rid field ua pages s hk
  | .tuEvacuate r rid n => execTuEvacuate_kept r rid n s hk
  | .tuSow r rid ctx list entries => execTuSow_kept r rid ctx list entries s hk
  | .dmStart r rid ch => execDmStart_kept r rid ch s hk
  | .dmAbort r rid ch => execDmAbort_kept r rid ch s hk
  | .eventsLost => execEventsLost_kept s hk
  | .quClear r rid eng hi v => execQuClear_kept r rid eng hi v s hk
  | .quWatchWrite r rid eng n hi v => execQuWatchWrite_kept r rid eng n hi v s hk
  | .meDgrpWrite r rid eng n peer hi v => execMeDgrpWrite_kept r rid eng n peer hi v s hk
  | .kmModeWrite r rid v => execKmModeWrite_kept r rid v s hk
  | .afBeamCommit r rid v => execAfBeamCommit_kept r rid v s hk
  | .afCfgWrite r rid v => execAfCfgWrite_kept r rid v s hk
  | .mcRetrain r rid v => execMcRetrain_kept r rid v s hk
  | .tuNbrWrite r rid n hi v => execTuNbrWrite_kept r rid n hi v s hk
  | .tuLendWrite r rid v => execTuLendWrite_kept r rid v s hk
  | .lxEnWrite r rid port v => execLxEnWrite_kept r rid port v s hk
  | .lxIdWrite r rid hi v => execLxIdWrite_kept r rid hi v s hk
  | .dmCfgWrite r rid ch which hi v => execDmCfgWrite_kept r rid ch which hi v s hk
  | .dmTimerWrite r rid ch hi v => execDmTimerWrite_kept r rid ch hi v s hk
  | .ipGateWrite r rid entry hi v => execIpGateWrite_kept r rid entry hi v s hk
  | .ipPortCtlWrite r rid port v => execIpPortCtlWrite_kept r rid port v s hk
  | .fcClear r rid hi v => execFcClear_kept r rid hi v s hk
  | .fcForce r rid hi v => execFcForce_kept r rid hi v s hk
  | .fcFenceSet r rid v => execFcFenceSet_kept r rid v s hk
  | .fcFenceReturn r rid v => execFcFenceReturn_kept r rid v s hk
  | .fcBlockReset r rid target => execFcBlockReset_kept r rid target s hk
  | .fcFieldReset r rid field => execFcFieldReset_kept r rid field s hk
  | .fcSafe r rid => execFcSafe_kept r rid s hk
  | .wpFire r rid => execWpFire_kept r rid s hk
  | .wpArm r rid sdtrig => execWpArm_kept r rid sdtrig s hk
  | .injectArm r rid block v => execInjectArm_kept r rid block v s hk
  | .nop eng => execNop_kept eng s hk
  | .step eng => execStep_kept eng s hk
  | .commit eng => execCommit_kept eng s hk
  | .endd eng => execEndd_kept eng s hk
  | .next eng => execNext_kept eng s hk
  | .spawn eng => execSpawn_kept eng s hk
  | .jump eng => execJump_kept eng s hk
  | .wait eng => execWait_kept eng s hk
  | .waitSatisfied ctx sid => execWaitSatisfied_kept ctx sid s hk
  | .signalAdd eng => execSignalAdd_kept eng s hk
  | .signalRaise eng => execSignalRaise_kept eng s hk
  | .fence eng => execFence_kept eng s hk
  | .fenceComplete ctx sid => execFenceComplete_kept ctx sid s hk
  | .tapeHail eng => execTapeHail_kept eng s hk
  | .tapeRelease eng => execTapeRelease_kept eng s hk
  | .event eng => execEvent_kept eng s hk
  | .trigger eng => execTrigger_kept eng s hk
  | .gate eng => execGate_kept eng s hk
  | .add eng => execAdd_kept eng s hk
  | .proj eng => execProj_kept eng s hk
  | .sumq eng => execSumq_kept eng s hk
  | .rmsnorm eng => execRmsnorm_kept eng s hk
  | .outer eng => execOuter_kept eng s hk
  | .update eng => execUpdate_kept eng s hk
  | .digest eng => execDigest_kept eng s hk
  | .digestVerdict group => execDigestVerdict_kept group s hk
  | .attend eng => execAttend_kept eng s hk
  | .append eng => execAppend_kept eng s hk
  | .scan eng => execScan_kept eng s hk
  | .hold eng => execHold_kept eng s hk
  | .conv eng => execConv_kept eng s hk
  | .pool eng => execPool_kept eng s hk
  | .econv eng => execEconv_kept eng s hk
  | .commandEnd eng waited => execCommandEnd_kept eng waited s hk
  | .strandSuspend eng => execStrandSuspend_kept eng s hk
  | .placeStrand => execPlaceStrand_kept s hk
  | .commitTaken => execCommitTaken_kept s hk
  | .completionTaken => execCompletionTaken_kept s hk
  | .abortTaken => execAbortTaken_kept s hk
  | .jobReport ctx => execJobReport_kept ctx s hk
  | .jobStart ctx => execJobStart_kept ctx s hk
  | .stepReplay ctx => execStepReplay_kept ctx s hk
  | .quantumExpiry eng => execQuantumExpiry_kept eng s hk
  | .boundOverrun eng => execBoundOverrun_kept eng s hk
  | .slotStart => execSlotStart_kept s hk
  | .guardOpen => execGuardOpen_kept s hk
  | .watchdog => execWatchdog_kept s hk
  | .switchBind => execSwitchBind_kept s hk
  | .switchHoldExpiry => execSwitchHoldExpiry_kept s hk
  | .derate level => execDerate_kept level s hk
  | .haloRowRaise eng row => execHaloRowRaise_kept eng row s hk
  | .haloPush eng high row => execHaloPush_kept eng high row s hk
  | .pushAcked eng high row => execPushAcked_kept eng high row s hk
  | .segmentFilled seg => execSegmentFilled_kept seg s hk
  | .furrowFillStart => execFurrowFillStart_kept s hk
  | .walkerBlock eng block => execWalkerBlock_kept eng block s hk
  | .flushCopyDone ctx => execFlushCopyDone_kept ctx s hk
  | .heldEditApply ctx => execHeldEditApply_kept ctx s hk
  | .swapOut => execSwapOut_kept s hk
  | .swapIn lost => execSwapIn_kept lost s hk
  | .migrationStart field page => execMigrationStart_kept field page s hk
  | .migrationSwitch field page => execMigrationSwitch_kept field page s hk
  | .leaseReturn index => execLeaseReturn_kept index s hk
  | .poisonBlock field ua => execPoisonBlock_kept field ua s hk
  | .refetchDone field ua clean => execRefetchDone_kept field ua clean s hk
  | .dmListCheck ch => execDmListCheck_kept ch s hk
  | .dmAccessError ch code done => execDmAccessError_kept ch code done s hk
  | .dmRunComplete ch => execDmRunComplete_kept ch s hk
  | .dmTimerExpiry ch => execDmTimerExpiry_kept ch s hk
  | .dramStartupStage fail usec => execDramStartupStage_kept fail usec s hk
  | .linkFrame port decoded corrected hdr crc body => execLinkFrame_kept port decoded corrected hdr crc body s hk
  | .hello port system devid pport rev pm1 qm1 => execHello_kept port system devid pport rev pm1 qm1 s hk
  | .lack port count => execLack_kept port count s hk
  | .lnak port num => execLnak_kept port num s hk
  | .cred port returns => execCred_kept port returns s hk
  | .bye port => execBye_kept port s hk
  | .mrd port m => execMrd_kept port m s hk
  | .mwr port m => execMwr_kept port m s hk
  | .urd port m => execUrd_kept port m s hk
  | .evt port m => execEvt_kept port m s hk
  | .dig port m => execDig_kept port m s hk
  | .wake port m => execWake_kept port m s hk
  | .rdata port m => execRdata_kept port m s hk
  | .wack port m => execWack_kept port m s hk
  | .portDown port => execPortDown_kept port s hk
  | .prbsDetect port => execPrbsDetect_kept port s hk
  | .trainingDone port ok => execTrainingDone_kept port ok s hk
  | .linkWaking port => execLinkWaking_kept port s hk
  | .wakeLimitExpiry port => execWakeLimitExpiry_kept port s hk
  | .linkTimeout tag => execLinkTimeout_kept tag s hk
  | .wakePattern port => execWakePattern_kept port s hk
  | .afSample pins => execAfSample_kept pins s hk
  | .loFrame => execLoFrame_kept s hk
  | .loSessionFrame => execLoSessionFrame_kept s hk
  | .serveHail => execServeHail_kept s hk
  | .holdExpiry hail => execHoldExpiry_kept hail s hk
  | .wakeTimer => execWakeTimer_kept s hk
  | .wakeNLow => execWakeNLow_kept s hk
  | .wakeNEdge => execWakeNEdge_kept s hk
  | .idleTimerExpiry => execIdleTimerExpiry_kept s hk
  | .entryWindow => execEntryWindow_kept s hk
  | .entryAbandon => execEntryAbandon_kept s hk
  | .climbStep => execClimbStep_kept s hk
  | .bankZeroed bank => execBankZeroed_kept bank s hk
  | .powerSample milliwatts tj => execPowerSample_kept milliwatts tj s hk
  | .telemUpdate milliwatts tj => execTelemUpdate_kept milliwatts tj s hk
  | .coldBoot fallow => execColdBoot_kept fallow s hk
  | .railDroop check => execRailDroop_kept check s hk
  | .clockLoss check => execClockLoss_kept check s hk
  | .relockAttempt ok long => execRelockAttempt_kept ok long s hk
  | .relockGiveUp => execRelockGiveUp_kept s hk
  | .faultPulse => execFaultPulse_kept s hk
  | .blockResetDone block => execBlockResetDone_kept block s hk
  | .fieldResetDone => execFieldResetDone_kept s hk
  | .waypoint => execWaypoint_kept s hk
  | .soundingStart idle recent => execSoundingStart_kept idle recent s hk
  | .soundingVerdict => execSoundingVerdict_kept s hk
  | .csiFrameStart port num elapsed => execCsiFrameStart_kept port num elapsed s hk
  | .csiLine port vc dtype full good pixels => execCsiLine_kept port vc dtype full good pixels s hk
  | .frameComplete port linep => execFrameComplete_kept port linep s hk
  | .resetNLow => execResetNLow_kept s hk
  | .frameSend port => execFrameSend_kept port s hk
  | .copyComplete => execCopyComplete_kept s hk
  | .clockPresent check => execClockPresent_kept check s hk

/-- A command leaves canonical memory canonical. -/
theorem exec_safe {c : Instr} {s t : State} (h : s.Safe) (he : exec c s = .next t) : t.Safe :=
  ((exec_kept c s h.kept).use t he).mem

/-- Settles O5: an idle step changes nothing, and any other runs one command, which keeps State.Kept. -/
theorem stepKeepsMemoryCanonical : Obligations.StepKeepsMemoryCanonical := by
  intro s t hs ht
  cases hp : s.pending with
  | nil =>
    rw [step_of_pending_nil hp] at ht
    cases ht
    exact hs
  | cons c cs =>
    rw [step_of_pending_cons hp] at ht
    exact exec_safe (s := { s with pending := cs }) hs ht

end Sys2Proof.Machine
end

section
/-!
SUPPORT. Every meaning answers a next state.
-/
namespace Sys2Proof.Machine

/-- The outcome is a next state: no fault and no refusal. -/
def Answers (o : Host.Outcome State Fault Refusal) : Prop := ∃ t, o = .next t

theorem answers_next (s : State) : Answers (.next s) := ⟨s, rfl⟩

theorem answers_ite {c : Prop} [Decidable c] {x y : Host.Outcome State Fault Refusal} (hx : Answers x)
    (hy : Answers y) : Answers (if c then x else y) := by
  split
  · exact hx
  · exact hy

/-- A meaning either answers one next state outright (a request answered at its turn, a register write: the last case), or
it first looks at the state and every branch it can take ends in a next state (the commands named). -/
theorem exec_answers (c : Instr) (s : State) : Answers (exec c s) := by
  cases c with
  | status | frameWrite | frameRead | mode | memRead | memWrite | commonsZeroed | imgData | imgTimeout | quoteDone |
    weightLoad | ownerBurnDone | sdLoad | closeComplete | kvPrune | tuUnmap | tuPin | tuEvacuate | eventsLost |
    quWatchWrite | meDgrpWrite | tuNbrWrite | lxEnWrite | dmCfgWrite | dmTimerWrite | ipPortCtlWrite | injectArm | nop
    | step | commit | endd | next | spawn | jump | wait | waitSatisfied | fence | fenceComplete | trigger | gate | add
    | proj | sumq | rmsnorm | outer | update | digest | digestVerdict | attend | append | scan | hold | conv | pool |
    econv | commandEnd | strandSuspend | placeStrand | commitTaken | completionTaken | abortTaken | jobReport |
    jobStart | stepReplay | quantumExpiry | boundOverrun | slotStart | guardOpen | watchdog | switchBind |
    switchHoldExpiry | derate | haloRowRaise | haloPush | pushAcked | segmentFilled | furrowFillStart | walkerBlock |
    flushCopyDone | heldEditApply | swapOut | swapIn | migrationStart | migrationSwitch | leaseReturn | poisonBlock |
    refetchDone | dmListCheck | dmAccessError | dmRunComplete | dmTimerExpiry | dramStartupStage | linkFrame | hello |
    lack | lnak | cred | bye | mrd | mwr | urd | portDown | prbsDetect | trainingDone | linkWaking | wakeLimitExpiry |
    linkTimeout | wakePattern | afSample | loFrame | loSessionFrame | serveHail | holdExpiry | wakeTimer | wakeNLow |
    wakeNEdge | idleTimerExpiry | entryWindow | entryAbandon | climbStep | bankZeroed | powerSample | telemUpdate |
    coldBoot | railDroop | clockLoss | relockAttempt | relockGiveUp | faultPulse | blockResetDone | fieldResetDone |
    waypoint | soundingStart | soundingVerdict | csiFrameStart | csiLine | frameComplete | frameSend | copyComplete |
    clockPresent =>
    dsimp only [exec]
    delta State.regWriteMsg execStatus execFrameWrite execFrameRead execMode execMemRead execMemWrite
      execCommonsZeroed execImgData execImgTimeout execQuoteDone execWeightLoad execOwnerBurnDone execSdLoad
      execCloseComplete execKvPrune execTuUnmap execTuPin execTuEvacuate execEventsLost execQuWatchWrite
      execMeDgrpWrite execTuNbrWrite execLxEnWrite execDmCfgWrite execDmTimerWrite execIpPortCtlWrite execInjectArm
      execNop execStep execCommit execEndd execNext execSpawn execJump execWait execWaitSatisfied execFence
      execFenceComplete execTrigger execGate execAdd execProj execSumq execRmsnorm execOuter execUpdate execDigest
      execDigestVerdict execAttend execAppend execScan execHold execConv execPool execEconv execCommandEnd
      execStrandSuspend execPlaceStrand execCommitTaken execCompletionTaken execAbortTaken execJobReport execJobStart
      execStepReplay execQuantumExpiry execBoundOverrun execSlotStart execGuardOpen execWatchdog execSwitchBind
      execSwitchHoldExpiry execDerate execHaloRowRaise execHaloPush execPushAcked execSegmentFilled
      execFurrowFillStart execWalkerBlock execFlushCopyDone execHeldEditApply execSwapOut execSwapIn
      execMigrationStart execMigrationSwitch execLeaseReturn execPoisonBlock execRefetchDone execDmListCheck
      execDmAccessError execDmRunComplete execDmTimerExpiry execDramStartupStage execLinkFrame execHello execLack
      execLnak execCred execBye execMrd execMwr execUrd execPortDown execPrbsDetect execTrainingDone execLinkWaking
      execWakeLimitExpiry execLinkTimeout execWakePattern execAfSample execLoFrame execLoSessionFrame execServeHail
      execHoldExpiry execWakeTimer execWakeNLow execWakeNEdge execIdleTimerExpiry execEntryWindow execEntryAbandon
      execClimbStep execBankZeroed execPowerSample execTelemUpdate execColdBoot execRailDroop execClockLoss
      execRelockAttempt execRelockGiveUp execFaultPulse execBlockResetDone execFieldResetDone execWaypoint
      execSoundingStart execSoundingVerdict execCsiFrameStart execCsiLine execFrameComplete execFrameSend
      execCopyComplete execClockPresent
    repeat' first | (with_reducible first | exact answers_next _ | apply answers_ite) | dsimp only | split
  | _ => exact answers_next _

/-- Settles O3: no meaning has a branch that faults or is refused. -/
theorem noCommandStops : Obligations.NoCommandStops := exec_answers

end Sys2Proof.Machine
end

section
/-!
SUPPORT. Where an aperture access leads (R20, R343, R578): an owner's read of the commons, and what windows bound.
-/
namespace Sys2Proof.Machine

/-! ### What an actor reaches -/

/-- An address below the first device's window is its own alias. -/
theorem State.alias_of_local (s : State) {a : Nat} (h : a < 2 ^ 36) : s.alias a = a := by
  unfold State.alias
  rw [if_neg (by omega)]

/-- No region rule turns away an owner's read of the commons. -/
theorem State.reach_owner_commons (s : State) {a n : Nat} (h : a + n ≤ 0x10000000) (hn : 0 < n) :
    s.reach .owner false a n = .here a := by
  have hok : s.commonsOk .owner false a n = true := by simp [State.commonsOk, h]
  unfold State.reach
  rw [s.alias_of_local (by omega)]
  dsimp only
  rw [if_pos (by omega), if_pos hok]

/-- What the region rules of the commons admit through windows lies in the commons and in the windows. -/
theorem State.commonsOk_windows {s : State} {w : List (Nat × Nat)} {write : Bool} {a n : Nat}
    (h : s.commonsOk (.windows w) write a n = true) : a + n ≤ 0x10000000 ∧ inWindows w a n = true := by
  simp only [State.commonsOk, Bool.and_eq_true, decide_eq_true_eq] at h
  obtain ⟨⟨hend, -⟩, ⟨hw, -⟩, -⟩ := h
  exact ⟨hend, hw⟩

/-- Through windows an access reaches bytes of the commons that the windows hold, or nothing. -/
theorem State.reach_windows (s : State) (w : List (Nat × Nat)) (write : Bool) (a n : Nat) :
    s.reach (.windows w) write a n = .bad ∨
      ∃ b, s.reach (.windows w) write a n = .here b ∧ b + n ≤ 0x10000000 ∧ inWindows w b n = true := by
  unfold State.reach
  dsimp only
  by_cases hb : s.alias a < 0x10000000
  · rw [if_pos hb]
    by_cases hok : s.commonsOk (.windows w) write (s.alias a) n = true
    · rw [if_pos hok]
      exact .inr ⟨s.alias a, rfl, State.commonsOk_windows hok⟩
    · rw [if_neg hok]
      exact .inl rfl
  · left
    rw [if_neg hb]
    simp only [Bool.false_and, Bool.false_eq_true, if_false, ite_self]

/-- No windows hold no bank, and an access touches at least one. -/
theorem inWindows_nil {a n : Nat} (hn : 0 < n) : inWindows [] a n = false := by
  unfold inWindows
  rw [List.all_eq_false]
  refine ⟨0, List.mem_range.mpr ?_, by simp⟩
  have := Nat.div_le_div_right (c := 0x200000) (show a ≤ a + n - 1 by omega)
  omega

/-- An aperture access past the end of the aperture leads nowhere; any other leads where its address does (R578). -/
theorem State.aperReach_cases (s : State) (r : Role) (write : Bool) (off n : Nat) :
    s.aperReach r write off n = .bad ∨
      s.aperReach r write off n = s.reach (s.actorOf r) write (s.aperture r + off) n := by
  unfold State.aperReach
  split
  · exact .inl rfl
  · exact .inr rfl

/-- Settles O18: the owner's reads of the commons meet no region rule, and a session sees the commons through its windows
alone, of which the open role has none. -/
theorem ownerReachesAllOfLocalMemory : Obligations.OwnerReachesAllOfLocalMemory := by
  refine ⟨fun s off n _ _ hin hn => ?_, fun s f w off n a h _ => ?_, fun s w off n hn => ?_⟩
  · unfold State.aperReach
    rw [if_neg (by omega)]
    exact s.reach_owner_commons hin hn
  · rcases s.aperReach_cases (.field f) w off n with hbad | hreach
    · cases hbad.symm.trans h
    · rw [hreach] at h
      obtain hbad | ⟨b, hb, hok⟩ := s.reach_windows (s.fieldWindows f.val) w (s.aperture (.field f) + off) n
      · cases hbad.symm.trans h
      · cases hb.symm.trans h
        exact hok
  · rcases s.aperReach_cases .anon w off n with hbad | hreach
    · exact hbad
    · rw [hreach]
      obtain hbad | ⟨b, -, -, hw⟩ := s.reach_windows [] w (s.aperture .anon + off) n
      · exact hbad
      · cases (inWindows_nil hn).symm.trans hw

end Sys2Proof.Machine
end

section
/-!
SUPPORT. Register words that the host reads and writes (R14 to R19, R647): REG_READ and REG_WRITE performed, the capture of a
high word, and what a word written changes.
-/
namespace Sys2Proof.Machine

/-! ### Reads -/

/-- Every register lies in the control space, where REG_READ and REG_WRITE reach it (R14). -/
theorem regAt_range {a : Nat} {p : RegDesc × Nat × Nat × Bool} (h : regAt a = some p) : 0x01000000 ≤ a ∧ a < 0x01400000 := by
  unfold regAt at h
  dsimp only at h
  split at h
  · cases h
  · omega

/-- One word that a register holds lies in the control space. -/
theorem controlSpan_one {a : Nat} {p : RegDesc × Nat × Nat × Bool} (h : regAt a = some p) : controlSpan a 1 = true := by
  have := regAt_range h
  simp [controlSpan, controlAddr, this]

/-- REG_READ of 1 to 256 words of the control space reads them in address order. -/
theorem State.regReadOp_eq (s : State) (r : Role) {a n : Nat} (h1 : 1 ≤ n) (hn : n ≤ 256) (ha : a < 2 ^ 32)
    (hc : controlSpan a n = true) : s.regReadOp r a n = ((s.readWords r a n).1, Code.ok, (s.readWords r a n).2) := by
  unfold State.regReadOp
  rw [if_neg (by omega), if_neg (by simp [hc])]

/-- REG_READ of one word that a register holds. -/
theorem State.regReadOp_one (s : State) (r : Role) {a : Nat} {p : RegDesc × Nat × Nat × Bool} (h : regAt a = some p) :
    s.regReadOp r a 1 = ((s.readWord r a).1, Code.ok, natLE 4 (s.readWord r a).2.toNat) := by
  have := regAt_range h
  rw [s.regReadOp_eq r (Nat.le_refl 1) (by omega) (by omega) (controlSpan_one h)]
  simp [State.readWords]

/-- The low word of a 64-bit register: the high word is captured (R16). -/
theorem State.readWord_low (s : State) (r : Role) {a : Nat} {d : RegDesc} {c b : Nat} (ha : a % 4 = 0)
    (h : regAt a = some (d, c, b, false)) (hw : d.width = 64) :
    s.readWord r a = ({ s with cap := Map.put s.cap r.code (c, BitVec.ofNat 32 (s.shown r b c / 2 ^ 32)) },
      BitVec.ofNat 32 (s.shown r b c)) := by
  have := regAt_range h
  unfold State.readWord
  rw [if_neg (by omega), if_neg (by omega), h]
  simp [hw]

/-- The high word that the capture names: the captured word, and the capture ends (R16). -/
theorem State.readWord_high_captured (s : State) (r : Role) {a : Nat} {d : RegDesc} {c b : Nat} {w : W32} (ha : a % 4 = 0)
    (h : regAt a = some (d, c, b, true)) (hw : d.width = 64) (hcap : Map.find s.cap r.code = some (c, w)) :
    s.readWord r a = ({ s with cap := Map.del s.cap r.code }, w) := by
  have := regAt_range h
  unfold State.readWord
  rw [if_neg (by omega), if_neg (by omega), h]
  simp [hw, hcap]

/-- A high word that no capture names is the live one (R16). -/
theorem State.readWord_high_live (s : State) (r : Role) {a : Nat} {d : RegDesc} {c b : Nat} (ha : a % 4 = 0)
    (h : regAt a = some (d, c, b, true)) (hw : d.width = 64) (hcap : ∀ w, Map.find s.cap r.code ≠ some (c, w)) :
    s.readWord r a = (s, BitVec.ofNat 32 (s.shown r b c / 2 ^ 32)) := by
  have := regAt_range h
  unfold State.readWord
  rw [if_neg (by omega), if_neg (by omega), h]
  cases hf : Map.find s.cap r.code with
  | none => simp [hw]
  | some p =>
    have hne : p.1 ≠ c := fun e => hcap p.2 (by rw [hf, ← e])
    simp [hw, hne]

/-- A performed read of one word that a register holds: the state after the read replies the word with OK. -/
theorem State.oneWordRead_performed {s : State} {r : Role} {rid a : Nat} {p : RegDesc × Nat × Nat × Bool} {q : State × W32}
    (hp : s.Performs r Msg.regRead 4) (h : regAt a = some p) (hq : (s.takeRequest r rid Msg.regRead).readWord r a = q) :
    s.message r rid Msg.regRead 4 (fun s => s.regReadOp r a 1) =
      q.1.reply r Msg.regRead rid Code.ok (natLE 4 q.2.toNat) := by
  rw [State.message_performed hp, State.regReadOp_one _ r h, hq]

/-- Settles O12: each read is a performed message, and the word read is that of the register's half. -/
theorem registerReadsCaptureTheHighWord : Obligations.RegisterReadsCaptureTheHighWord := by
  refine ⟨fun s r rid a n hp h1 hn ha hc => congrArg Host.Outcome.next ?_,
    fun s r rid a d c b hp ha h hw => congrArg Host.Outcome.next ?_,
    fun s r rid a d c b hp ha h hw =>
      ⟨fun w hcap => congrArg Host.Outcome.next ?_, fun hcap => congrArg Host.Outcome.next ?_⟩⟩
  · rw [State.message_performed hp, State.regReadOp_eq _ r h1 hn ha hc]
  · exact State.oneWordRead_performed hp h (State.readWord_low _ r ha h hw)
  · exact State.oneWordRead_performed hp h (State.readWord_high_captured _ r ha h hw hcap)
  · exact State.oneWordRead_performed hp h (State.readWord_high_live _ r ha h hw hcap)

/-! ### Writes -/

/-- REG_WRITE of 1 to 256 words of the control space writes them in address order. -/
theorem State.regWriteOp_eq (s : State) (r : Role) {a : Nat} {ws : List W32} (h1 : 1 ≤ ws.length) (hn : ws.length ≤ 256)
    (ha : a < 2 ^ 32) (hc : controlSpan a ws.length = true) : s.regWriteOp r a ws = (s.writeWords r a ws, Code.ok, []) := by
  unfold State.regWriteOp
  rw [if_neg (by omega), if_neg (by simp [hc])]

/-- A word to a misaligned address, to the information area or to no register is discarded (R15, R647). -/
theorem State.writeWord_discarded (s : State) (r : Role) {a : Nat} (v : W32)
    (h : a % 4 ≠ 0 ∨ a < 0x10000 ∨ regAt a = none) : s.writeWord r a v = s := by
  unfold State.writeWord
  split
  · rfl
  · next hok =>
    obtain h4 | hlow | hnone := h
    · exact absurd (.inl h4) hok
    · exact absurd (.inr hlow) hok
    · rw [hnone]

/-- A bit of the low word after a write: an rw bit takes the value, and a w1c bit clears where the value holds 1 (R19). -/
theorem mergeWord_low_testBit (d : RegDesc) (old : Nat) (v : W32) {i : Nat} (hi : i < 32) :
    (mergeWord d old false v).testBit i =
      ((if d.rw.testBit i then v.getLsbD i else old.testBit i) && !(v.getLsbD i && d.w1c.testBit i)) := by
  have hm : Nat.testBit 0xFFFFFFFF i = true := by
    rw [show (0xFFFFFFFF : Nat) = 2 ^ 32 - 1 from rfl, Nat.testBit_two_pow_sub_one]
    simpa using hi
  have h64 : i < 64 := by omega
  simp only [mergeWord, Bool.false_eq_true, if_false, BitVec.testBit_toNat, BitVec.getLsbD_and, BitVec.getLsbD_or,
    BitVec.getLsbD_not, BitVec.getLsbD_ofNat, Nat.testBit_and, hm, h64, decide_true, Bool.true_and, Bool.and_true]
  cases d.rw.testBit i <;> simp

/-- The row of HP.INJECT (R667). -/
theorem regAt_hpInject : regAt Reg.hpInject = some (⟨[40], 0xC, 0, 1, 32, 0x0, 0x3, 0x0, 0x0⟩, Reg.hpInject, 40, false) := by
  decide

/-- The row of HP.INFO (R667). -/
theorem regAt_hpInfo : regAt Reg.hpInfo = some (⟨[40], 0x0, 0, 1, 32, 0x3404010, 0x0, 0x0, 0x0⟩, Reg.hpInfo, 40, false) := by
  decide

/-- HP's registers have no effect beyond R19. -/
theorem State.ownerWrite_hp (s : State) (d : RegDesc) (c o : Nat) (hi : Bool) (v : W32) :
    s.ownerWrite d c 40 o hi v = s.plainWrite d c hi v := by
  simp [State.ownerWrite, isSel]

/-- The owner's word to HP.INJECT merges into that register alone; its rw bits are [1:0] (R667). -/
theorem State.writeWord_hpInject {s : State} (v : W32) (h : s.inReset 40 = false) :
    ∃ d : RegDesc, d.rw = 3 ∧ d.w1c = 0 ∧
      s.writeWord .owner Reg.hpInject v = s.setReg Reg.hpInject (mergeWord d (s.reg Reg.hpInject) false v) := by
  refine ⟨⟨[40], 0xC, 0, 1, 32, 0x0, 0x3, 0x0, 0x0⟩, rfl, rfl, ?_⟩
  rw [State.writeWord_owner (by decide) (by decide) regAt_hpInject h, State.ownerWrite_hp]
  simp [State.plainWrite]

/-- HP.INFO has no bit to write (R667). -/
theorem State.writeWord_hpInfo (s : State) (v : W32) : s.writeWord .owner Reg.hpInfo v = s := by
  by_cases h : s.inReset 40 = true
  · unfold State.writeWord
    rw [if_neg (by decide), regAt_hpInfo]
    simp [h]
  · rw [State.writeWord_owner (by decide) (by decide) regAt_hpInfo (by simpa using h), State.ownerWrite_hp]
    simp [State.plainWrite]

/-- Where the rw bits are [1:0] and no bit is w1c, bits [1:0] after a write are the value's. -/
theorem mergeWord_mod_four {d : RegDesc} (old : Nat) (v : W32) (hrw : d.rw = 3) (hclr : d.w1c = 0) :
    mergeWord d old false v % 4 = v.toNat % 4 := by
  refine Nat.eq_of_testBit_eq fun i => ?_
  rw [show (4 : Nat) = 2 ^ 2 from rfl, Nat.testBit_mod_two_pow, Nat.testBit_mod_two_pow]
  by_cases hi : i < 2
  · have h3 : Nat.testBit 3 i = true := by
      rw [show (3 : Nat) = 2 ^ 2 - 1 from rfl, Nat.testBit_two_pow_sub_one]
      simpa using hi
    rw [mergeWord_low_testBit d old v (by omega), hrw, hclr, h3]
    simp [BitVec.testBit_toNat]
  · simp [hi]

/-- Settles O13: a performed REG_WRITE is its words in order, and each word's effect is that of its register's row. -/
theorem registerWritesActWordByWord : Obligations.RegisterWritesActWordByWord := by
  refine ⟨fun s r rid a ws hp h1 hn ha hc => congrArg Host.Outcome.next ?_,
    fun s r a v h => s.writeWord_discarded r v h, fun s v hr => ?_, State.writeWord_hpInfo⟩
  · rw [State.message_performed hp, State.regWriteOp_eq _ r h1 hn ha hc]
  · obtain ⟨d, hrw, hclr, hset⟩ := State.writeWord_hpInject v hr
    rw [hset]
    refine ⟨?_, fun a ha => State.reg_setReg_of_ne s _ ha, fun a => rfl⟩
    unfold State.getF
    rw [State.reg_setReg_self, bits_mod _ _ _ (by omega)]
    simpa [bits] using mergeWord_mod_four _ v hrw hclr

end Sys2Proof.Machine
end

section
/-!
SUPPORT. The cascade (R25 to R38, R519, R529, R649): the machine at power-on, which raised hail is served, and what the
host's claims and hails do.
-/
namespace Sys2Proof.Machine

/-! ### Power-on -/

/-- At reset no address is listed, so every byte reads 0x00 (log 11). -/
theorem State.reset_byte (a : Nat) : State.reset.byte a = 0 := rfl

/-- No error has entered the safe state at reset. -/
theorem State.reset_safe : State.reset.safe = false := rfl

/-- Settles O2: each field as reset writes it, and a memory that lists nothing. -/
theorem resetIsTheMachineAtPowerOn : Obligations.ResetIsTheMachineAtPowerOn :=
  ⟨rfl, rfl, rfl, rfl, rfl, rfl, rfl, State.reset_safe, State.reset_wf, State.reset_byte⟩

/-! ### The order of service (R35) -/

/-- A scan of the numbers below `n` in order stops at the least one with an answer. -/
theorem findSome?_range_least {α : Type} {f : Nat → Option α} {b : α} {n : Nat} (h : (List.range n).findSome? f = some b) :
    ∃ k, f k = some b ∧ ∀ j < k, f j = none := by
  induction n with
  | zero => cases h
  | succ n ih =>
    rw [List.range_succ, List.findSome?_append, Option.or_eq_some_iff] at h
    obtain hlow | ⟨hnone, hlast⟩ := h
    · exact ih hlow
    · refine ⟨n, by simpa using hlast, fun j hj => ?_⟩
      exact List.findSome?_eq_none_iff.mp hnone j (List.mem_range.mpr hj)

/-- The hail served next is raised, and no hail with a lower number is. -/
theorem State.firstRaised_least {s : State} {q : Raised} (h : s.firstRaised = some q) :
    q ∈ s.pw.raised ∧ ∀ p ∈ s.pw.raised, q.hail ≤ p.hail := by
  obtain ⟨k, hk, hlow⟩ := findSome?_range_least h
  have hq : q.hail = k := by simpa using List.find?_some hk
  refine ⟨List.mem_of_find?_eq_some hk, fun p hp => ?_⟩
  refine Nat.le_of_not_lt fun hlt => ?_
  have hnot := List.find?_eq_none.mp (hlow p.hail (hq ▸ hlt)) p hp
  exact hnot (beq_self_eq_true _)

/-- Settles O20: the scan goes up from hail 0. -/
theorem firstRaisedHailHasTheLowestNumber : Obligations.FirstRaisedHailHasTheLowestNumber := fun _ _ h =>
  have ⟨hmem, hleast⟩ := State.firstRaised_least h
  ⟨hmem, fun p hp _ => hleast p hp⟩

/-! ### The host's claims and hails (R36, R649) -/

/-- A rung code 0 to 5 sets the host's own claim. -/
theorem execHostClaim_rung {s : State} {r : Role} {k : Nat} {g : Rung} (hp : s.Performs r Msg.hostClaim 0) (rid : Nat)
    (hk : k ≤ 5) (hg : Rung.ofCode k = some g) :
    let u := s.takeRequest r rid Msg.hostClaim
    execHostClaim r rid k s =
      .next (({ u with pw := { u.pw with hostClaim := some g } } : State).settle.reply r Msg.hostClaim rid Code.ok []) := by
  unfold execHostClaim
  rw [State.message_performed hp, if_neg (by omega), if_pos hk, hg]

/-- 0xFF clears the host's own claim. -/
theorem execHostClaim_clear {s : State} {r : Role} (hp : s.Performs r Msg.hostClaim 0) (rid : Nat) :
    let u := s.takeRequest r rid Msg.hostClaim
    execHostClaim r rid 0xFF s =
      .next (({ u with pw := { u.pw with hostClaim := none } } : State).settle.reply r Msg.hostClaim rid Code.ok []) := by
  unfold execHostClaim
  rw [State.message_performed hp, if_pos rfl]

/-- A hail whose entry is enabled, outside the safe state and not raised yet, joins the raised ones. -/
theorem State.raiseHail_enabled {s : State} {h : Nat} {e : HailEntry} (verdict : Option Nat) (he : s.hailEntry h = some e)
    (hen : e.enable = true) (hsafe : s.safe = false) (hnew : s.pw.raised.any (fun q => q.hail == h) = false) :
    s.raiseHail h verdict = { s with pw := { s.pw with raised := s.pw.raised ++ [⟨h, verdict⟩] } } := by
  unfold State.raiseHail
  rw [he]
  exact if_pos ⟨hen, by simp [hsafe, hnew]⟩

/-- A standing claim of HOST keeps HOST from being raised. -/
theorem State.raiseHost_of_claimed {s : State} (h : s.pw.claims.any (fun c => c.hail == 11) = true) : s.raiseHost = s :=
  if_pos h

/-- While no claim of HOST stands, HOST is raised as any hail is. -/
theorem State.raiseHost_of_unclaimed {s : State} (h : s.pw.claims.any (fun c => c.hail == 11) = false) :
    s.raiseHost = s.raiseHail 11 none :=
  if_neg (by simp [h])

/-- A performed HAIL raises HOST and answers OK. -/
theorem execHail_performed {s : State} {r : Role} (hp : s.Performs r Msg.hail 0) (rid : Nat) :
    execHail r rid s = .next ((s.takeRequest r rid Msg.hail).raiseHost.reply r Msg.hail rid Code.ok []) := by
  unfold execHail
  rw [State.message_performed hp]

/-- A performed RELEASE of a hail of the table releases its claim and answers OK. -/
theorem execRelease_performed {s : State} {r : Role} {h : Nat} (hp : s.Performs r Msg.release 0) (rid : Nat) (hh : h ≤ 13) :
    execRelease r rid h s =
      .next (((s.takeRequest r rid Msg.release).releaseHail h).reply r Msg.release rid Code.ok []) := by
  unfold execRelease
  rw [State.message_performed hp, if_neg (by omega)]

/-! ### PW's own steps (R30, R38, R519, R682) -/

/-- PW runs while RESET_N is high and PW is out of reset. -/
theorem State.pwUp_of_running {s : State} (hlow : s.resetLow = false) (hr : s.inReset 41 = false) : s.pwUp = true := by
  simp [State.pwUp, hlow, hr]

/-- A clear edge latch raises nothing. -/
theorem State.sampleLatch_of_clear {s : State} (h : s.pw.latch = false) : s.sampleLatch = s :=
  if_neg (by simp [h])

/-- PW takes the first raised hail off the raised ones and serves its enabled entry. -/
theorem execServeHail_serves {s : State} {q : Raised} {e : HailEntry} (hup : s.pwUp = true) (hw : s.pw.window = false)
    (hl : s.pw.latch = false) (hsafe : s.safe = false) (hq : s.firstRaised = some q) (he : s.hailEntry q.hail = some e)
    (hen : e.enable = true) :
    execServeHail s = .next (({ s with pw := { s.pw with
      raised := s.pw.raised.filter (fun p => p.hail != q.hail) } } : State).serve q e) := by
  unfold execServeHail
  rw [if_neg (by simp [hup, hw]), State.sampleLatch_of_clear hl]
  dsimp only
  rw [hq]
  dsimp only
  have he' : State.hailEntry { s with pw := { s.pw with raised := s.pw.raised.filter (fun p => p.hail != q.hail) } } q.hail =
    some e := he
  have hserve : ¬ (s.safe = true ∨ (!e.enable) = true) := by simp [hsafe, hen]
  rw [he']
  exact if_neg hserve

/-- The hold timer of a standing claim expires while ICLK counts it. -/
theorem execHoldExpiry_expires {s : State} {h : Nat} (hup : s.pwUp = true) (hclk : s.getF Reg.ckStatus 29 29 = 1)
    (hc : s.pw.claims.any (fun c => c.hail == h && c.hold != 0) = true) :
    execHoldExpiry h s = .next ((s.postPw Code.hailTimeout h (natLE 1 h)).releaseHail h) :=
  if_pos ⟨hup, hclk, hc⟩

/-- Settles O19: each clause is the lemma of its command. -/
theorem hostClaimsAndHailsAreServed : Obligations.HostClaimsAndHailsAreServed := by
  refine ⟨fun s rid k g hp hk hg => execHostClaim_rung hp rid hk hg, fun s rid hp => execHostClaim_clear hp rid,
    fun s r rid e hp hunclaimed hnew he hen hsafe => (execHail_performed hp rid).trans ?_,
    fun s r rid hp hclaimed => (execHail_performed hp rid).trans ?_,
    fun s rid h hp hh => execRelease_performed hp rid hh,
    fun s q e hlow hr hw hl hsafe hq he hen => execServeHail_serves (State.pwUp_of_running hlow hr) hw hl hsafe hq he hen,
    fun s h hlow hr hclk hc => execHoldExpiry_expires (State.pwUp_of_running hlow hr) hclk hc⟩
  · rw [State.raiseHost_of_unclaimed (s := s.takeRequest r rid Msg.hail) hunclaimed,
      State.raiseHail_enabled (s := s.takeRequest r rid Msg.hail) none he hen hsafe hnew]
  · rw [State.raiseHost_of_claimed (s := s.takeRequest r rid Msg.hail) hclaimed]

end Sys2Proof.Machine
end

section
/-!
SUPPORT. Number formats and requantisation (R50, R73, R75): exact comparison with an integer, the lane values around a
number, what a requantised value can be, and the codes of the 4-bit formats.
-/
namespace Sys2Proof.Machine

/-! ### Exact comparison with integers -/

/-- Two numbers compare as their mantissas over the smaller exponent. -/
theorem Dy.le_iff {a b : Dy} :
    a.le b = true ↔ a.m * 2 ^ (a.e - min a.e b.e).toNat ≤ b.m * 2 ^ (b.e - min a.e b.e).toNat :=
  decide_eq_true_iff

/-- An integer is its own floor. -/
theorem Dy.floor_ofInt (z : Int) : (Dy.ofInt z).floor = z := by
  simp only [Dy.floor, Dy.ofInt, Int.le_refl, if_true, Int.toNat_zero, Int.pow_zero, Int.mul_one]

/-- An integer lies at or below a number where it lies at or below the number's floor. -/
theorem Dy.ofInt_le_iff {z : Int} {t : Dy} : (Dy.ofInt z).le t = true ↔ z ≤ t.floor := by
  by_cases he : 0 ≤ t.e
  · have hmin : min 0 t.e = 0 := by omega
    simp only [Dy.le_iff, Dy.ofInt, Dy.floor, hmin, if_pos he, Int.sub_zero, Int.toNat_zero, Int.pow_zero,
      Int.mul_one]
  · have hmin : min 0 t.e = t.e := by omega
    have hpow : (0 : Int) < 2 ^ (-t.e).toNat := Int.pow_pos (by decide)
    simp only [Dy.le_iff, Dy.ofInt, Dy.floor, hmin, if_neg he, Int.zero_sub, Int.sub_self, Int.toNat_zero, Int.pow_zero,
      Int.mul_one]
    exact (Int.le_ediv_iff_mul_le hpow).symm

/-- Of two numbers one is at or below the other. -/
theorem Dy.le_of_not_le {a b : Dy} (h : ¬ a.le b = true) : b.le a = true := by
  rw [Dy.le_iff] at h ⊢
  rw [Int.min_comm]
  exact Int.le_of_not_le h

/-- An integer is at or below itself. -/
theorem Dy.ofInt_le_self (z : Int) : (Dy.ofInt z).le (Dy.ofInt z) = true :=
  Dy.ofInt_le_iff.mpr (Int.le_of_eq (Dy.floor_ofInt z).symm)

/-! ### The lane values of a format (R50, R57) -/

/-- An integer is a lane value where it lies in the format's range and, in F4, is one of the listed values. -/
theorem member_ofInt_iff {fmt : Nat} {z : Int} :
    member fmt (Dy.ofInt z) = true ↔ fmtMin fmt ≤ z ∧ z ≤ fmtMax fmt ∧ (fmt = 2 → z ∈ f4Values) := by
  have hf4 : (fmt != 2 || f4Values.contains z) = true ↔ (fmt = 2 → z ∈ f4Values) := by
    by_cases h2 : fmt = 2
    · simp only [h2, bne_self_eq_false, Bool.false_or, List.contains_iff_mem, true_implies]
    · simp only [h2, bne_iff_ne, ne_eq, not_false_eq_true, Bool.or_eq_true, true_or, false_implies]
  simp only [member, Dy.floor_ofInt, Dy.ofInt_le_self, Bool.and_eq_true, decide_eq_true_eq, hf4, true_and, and_assoc]

/-- Every format's range holds a value. -/
theorem fmtMin_le_fmtMax (fmt : Nat) : fmtMin fmt ≤ fmtMax fmt := by
  unfold fmtMin fmtMax
  by_cases h0 : fmt = 0
  · rw [if_pos h0, if_pos h0]
    decide
  by_cases h1 : fmt = 1
  · rw [if_neg h0, if_pos h1, if_neg h0, if_pos h1]
    decide
  by_cases h2 : fmt = 2
  · rw [if_neg h0, if_neg h1, if_pos h2, if_neg h0, if_neg h1, if_pos h2]
    decide
  · rw [if_neg h0, if_neg h1, if_neg h2, if_neg h0, if_neg h1, if_neg h2]
    decide

/-- The smallest value of a format's range is a lane value. -/
theorem member_fmtMin (fmt : Nat) : member fmt (Dy.ofInt (fmtMin fmt)) = true :=
  member_ofInt_iff.mpr ⟨Int.le_refl _, fmtMin_le_fmtMax fmt, by rintro rfl; decide⟩

/-- The largest value of a format's range is a lane value. -/
theorem member_fmtMax (fmt : Nat) : member fmt (Dy.ofInt (fmtMax fmt)) = true :=
  member_ofInt_iff.mpr ⟨fmtMin_le_fmtMax fmt, Int.le_refl _, by rintro rfl; decide⟩

/-- Every listed F4 value is a lane value of F4. -/
theorem member_of_mem_f4Values : ∀ z ∈ f4Values, member 2 (Dy.ofInt z) = true := by decide

/-! ### The lane values around a number (R73) -/

/-- A search of a list answers one of its elements or the default. -/
theorem mem_find?_getD {l : List Int} {p : Int → Bool} {d : Int} (hd : d ∈ l) : (l.find? p).getD d ∈ l := by
  cases h : l.find? p with
  | none => exact hd
  | some v => exact List.mem_of_find?_eq_some h

/-- Strictly between the format's ends, both values around a number are lane values. -/
theorem around_member {fmt : Nat} {t : Dy} (hmax : ¬ (Dy.ofInt (fmtMax fmt)).le t = true)
    (hmin : ¬ t.le (Dy.ofInt (fmtMin fmt)) = true) :
    member fmt (Dy.ofInt (around fmt t).1) = true ∧ member fmt (Dy.ofInt (around fmt t).2) = true := by
  by_cases h2 : fmt = 2
  · subst h2
    have hlo : (f4Values.reverse.find? (fun v => (Dy.ofInt v).le t)).getD (-12) ∈ f4Values :=
      List.mem_reverse.mp (mem_find?_getD (by decide))
    exact ⟨member_of_mem_f4Values _ hlo, member_of_mem_f4Values _ (mem_find?_getD (by decide))⟩
  · have hlow : fmtMin fmt ≤ t.floor := Dy.ofInt_le_iff.mp (Dy.le_of_not_le hmin)
    have hhigh : t.floor < fmtMax fmt := Int.not_le.mp fun h => hmax (Dy.ofInt_le_iff.mpr h)
    have hfloor : member fmt (Dy.ofInt t.floor) = true := member_ofInt_iff.mpr ⟨hlow, Int.le_of_lt hhigh, (absurd · h2)⟩
    unfold around
    rw [if_neg h2]
    dsimp only
    split
    · exact ⟨hfloor, member_ofInt_iff.mpr ⟨by omega, hhigh, (absurd · h2)⟩⟩
    · exact ⟨hfloor, hfloor⟩

/-- Around a lane value lies nothing but itself. -/
theorem around_ofInt {fmt : Nat} {z : Int} (hz : member fmt (Dy.ofInt z) = true) : around fmt (Dy.ofInt z) = (z, z) := by
  obtain ⟨-, -, hf4⟩ := member_ofInt_iff.mp hz
  by_cases h2 : fmt = 2
  · subst h2
    have hself : ∀ v ∈ f4Values, around 2 (Dy.ofInt v) = (v, v) := by decide
    exact hself z (hf4 rfl)
  · unfold around
    rw [if_neg h2]
    dsimp only
    rw [Dy.floor_ofInt, Dy.lt, Dy.ofInt_le_self]
    exact if_neg Bool.false_ne_true

/-! ### What a requantised value can be (R73) -/

/-- A choice between two values that are each one of `a` and `b` is one of them. -/
theorem ite_either {α : Type} {p : Prop} [Decidable p] {a b x y : α} (hx : x = a ∨ x = b) (hy : y = a ∨ y = b) :
    (if p then x else y) = a ∨ (if p then x else y) = b := by
  by_cases hp : p
  · rwa [if_pos hp]
  · rwa [if_neg hp]

/-- The three cases of R73: at or past the largest value, at or past the smallest, or one of the two values around. -/
theorem requantise_cases (fmt : Nat) (nearest : Bool) (t : Dy) (u : Nat) :
    ((Dy.ofInt (fmtMax fmt)).le t = true ∧ requantise fmt nearest t u = fmtMax fmt) ∨
    (t.le (Dy.ofInt (fmtMin fmt)) = true ∧ requantise fmt nearest t u = fmtMin fmt) ∨
    (¬ (Dy.ofInt (fmtMax fmt)).le t = true ∧ ¬ t.le (Dy.ofInt (fmtMin fmt)) = true ∧
      (requantise fmt nearest t u = (around fmt t).1 ∨ requantise fmt nearest t u = (around fmt t).2)) := by
  by_cases hmax : (Dy.ofInt (fmtMax fmt)).le t = true
  · exact .inl ⟨hmax, if_pos hmax⟩
  by_cases hmin : t.le (Dy.ofInt (fmtMin fmt)) = true
  · exact .inr (.inl ⟨hmin, (if_neg hmax).trans (if_pos hmin)⟩)
  refine .inr (.inr ⟨hmax, hmin, ?_⟩)
  unfold requantise
  rw [if_neg hmax, if_neg hmin]
  dsimp only
  exact ite_either (.inl rfl) (ite_either (ite_either (.inr rfl) (.inl rfl))
    (ite_either (.inl rfl) (ite_either (.inr rfl) (ite_either (.inl rfl) (.inr rfl)))))

/-- Every requantised value is a lane value of its format. -/
theorem requantise_member (fmt : Nat) (nearest : Bool) (t : Dy) (u : Nat) :
    member fmt (Dy.ofInt (requantise fmt nearest t u)) = true := by
  obtain ⟨-, h⟩ | ⟨-, h⟩ | ⟨hmax, hmin, h | h⟩ := requantise_cases fmt nearest t u <;> rw [h]
  · exact member_fmtMax fmt
  · exact member_fmtMin fmt
  · exact (around_member hmax hmin).1
  · exact (around_member hmax hmin).2

/-- Requantisation leaves a lane value as it is, whatever the mode and the draw. -/
theorem requantise_ofInt {fmt : Nat} {z : Int} (hz : member fmt (Dy.ofInt z) = true) (nearest : Bool) (u : Nat) :
    requantise fmt nearest (Dy.ofInt z) u = z := by
  have haround := around_ofInt hz
  obtain ⟨hlow, hhigh, -⟩ := member_ofInt_iff.mp hz
  obtain ⟨hle, h⟩ | ⟨hle, h⟩ | ⟨-, -, h | h⟩ := requantise_cases fmt nearest (Dy.ofInt z) u
  · have : fmtMax fmt ≤ z := Dy.floor_ofInt z ▸ Dy.ofInt_le_iff.mp hle
    exact h.trans (by omega)
  · have : z ≤ fmtMin fmt := Dy.floor_ofInt (fmtMin fmt) ▸ Dy.ofInt_le_iff.mp hle
    exact h.trans (by omega)
  · rw [h, haround]
  · rw [h, haround]

/-! ### Codes (R50, R75) -/

/-- In the 4-bit formats the code of a lane value reads back as that value. -/
theorem lane4_laneCode {fmt : Nat} {z : Int} (hfmt : fmt ∈ [0, 1, 2]) (hz : member fmt (Dy.ofInt z) = true) :
    lane4 fmt (laneCode fmt z) = z := by
  obtain ⟨hlow, hhigh, hf4⟩ := member_ofInt_iff.mp hz
  simp only [List.mem_cons, List.not_mem_nil, or_false] at hfmt
  obtain rfl | rfl | rfl := hfmt
  case inl =>
    change -8 ≤ z at hlow
    change z ≤ 7 at hhigh
    change signed 4 (z % 16).toNat = z
    unfold signed
    dsimp only
    split <;> omega
  case inr.inl =>
    change 0 ≤ z at hlow
    change z ≤ 15 at hhigh
    change (((z % 16).toNat % 16 : Nat) : Int) = z
    omega
  case inr.inr =>
    have hcodes : ∀ v ∈ f4Values, lane4 2 (laneCode 2 v) = v := by decide
    exact hcodes z (hf4 rfl)

/-- Settles O50: the range is that of requantise_member, which holds F4 to its listed values too. -/
theorem requantisedValuesAreLaneValues : Obligations.RequantisedValuesAreLaneValues := by
  refine ⟨fun fmt nearest t u _ => ?_,
    fun fmt nearest z u _ hlow hhigh hf4 => requantise_ofInt (member_ofInt_iff.mpr ⟨hlow, hhigh, hf4⟩) nearest u,
    fun fmt z hfmt hlow hhigh hf4 => lane4_laneCode hfmt (member_ofInt_iff.mpr ⟨hlow, hhigh, hf4⟩)⟩
  obtain ⟨hlow, hhigh, -⟩ := member_ofInt_iff.mp (requantise_member fmt nearest t u)
  exact ⟨hlow, hhigh⟩

end Sys2Proof.Machine
end

section
/-!
SUPPORT. The registers whose write has a step of its own (R99, R106, R200, R270, R355, R357, R457, R661): which row of the
register tables holds an address, and where the owner's word to it goes.
-/
namespace Sys2Proof.Machine

/-! ### The row of an address -/

/-- The offset after a row's last byte. -/
def RegDesc.stop (d : RegDesc) : Nat := d.off + (d.cnt - 1) * d.step + d.width / 8

/-- A row that is not of the block, or ends before the offset, does not hold it. -/
theorem regFind_cons_skip {b o : Nat} {d : RegDesc} (ds : List RegDesc) (h : b ∉ d.blocks ∨ d.stop ≤ o) :
    regFind b o (d :: ds) = regFind b o ds := by
  rw [regFind]
  refine if_neg fun ⟨hb, _, hk, _, ho⟩ => ?_
  have hstop : d.stop ≤ o := h.resolve_left (not_not_intro hb)
  have := Nat.mul_le_mul_right d.step (Nat.le_sub_one_of_lt hk)
  unfold RegDesc.stop at hstop
  omega

/-- Offset `o` lies in register `k` of row `d`. -/
structure RegDesc.Reaches (d : RegDesc) (k o : Nat) : Prop where
  index : k < d.cnt
  low : d.off + k * d.step ≤ o
  high : o < d.off + k * d.step + d.width / 8
  apart : d.width / 8 ≤ d.step ∨ k = 0 ∧ d.step = 0

/-- The row at the head holds each byte of each of its registers. -/
theorem regFind_cons_hit {b k o : Nat} {d : RegDesc} (ds : List RegDesc) (hb : b ∈ d.blocks) (h : d.Reaches k o) :
    regFind b o (d :: ds) = some (d, d.off + k * d.step) := by
  obtain ⟨hk, hlow, hhigh, hapart⟩ := h
  have hindex : (if d.step = 0 then 0 else (o - d.off) / d.step) = k := by
    obtain hle | ⟨rfl, h0⟩ := hapart
    · rw [if_neg (by omega), show o - d.off = o - (d.off + k * d.step) + k * d.step by omega,
        Nat.add_mul_div_right _ _ (by omega), Nat.div_eq_of_lt (by omega), Nat.zero_add]
    · exact if_pos h0
  rw [regFind]
  simp only [hindex]
  exact if_pos ⟨hb, by omega, hk, hlow, hhigh⟩

/-- Block `b` finds the registers of row `d` in the tables: no row before it reaches them. -/
structure RegDesc.Holds (d : RegDesc) (b : Nat) (table : List RegDesc) : Prop where
  listed : d ∈ table
  first : ∀ p ∈ table.takeWhile (· != d), b ∉ p.blocks ∨ p.stop ≤ d.off
  block : b ∈ d.blocks

/-- The search for an offset ends at the row that holds it. -/
theorem RegDesc.Holds.regFind {d : RegDesc} {b k o : Nat} {table : List RegDesc} (h : d.Holds b table) (hr : d.Reaches k o) :
    regFind b o table = some (d, d.off + k * d.step) := by
  obtain ⟨hlisted, hfirst, hblock⟩ := h
  induction table with
  | nil => cases hlisted
  | cons p table ih =>
    by_cases hp : p = d
    · rw [hp, regFind_cons_hit table hblock hr]
    · rw [List.takeWhile_cons_of_pos (by simpa using hp), List.forall_mem_cons] at hfirst
      rw [regFind_cons_skip table (hfirst.1.imp_right fun hle => by have := hr.low; omega),
        ih (List.mem_of_ne_of_mem (Ne.symm hp) hlisted) hfirst.2]

/-- The offset of an address in its window (R14). -/
theorem regAddr_mod (b : Nat) {o : Nat} (ho : o < 0x10000) : regAddr b o % 0x10000 = o := by
  unfold regAddr
  omega

/-- The window of an address is that of its block (R14). -/
theorem regAddr_div (b : Nat) {o : Nat} (ho : o < 0x10000) : regAddr b o / 0x10000 = b + 0x100 := by
  unfold regAddr
  omega

/-- The row of an aligned address in a window is the one found for its offset. -/
theorem regAt_regAddr {b o base : Nat} {d : RegDesc} (hb : b < 64) (ho : o < 0x10000) (h4 : o % 4 = 0)
    (hfind : regFind b o regTable = some (d, base)) :
    regAt (regAddr b o) = some (d, regCanon b base, b, decide (base < o)) := by
  have hrange : ¬ (regAddr b o < 0x01000000 ∨ 0x01400000 ≤ regAddr b o) := by unfold regAddr; omega
  have haligned : o / 4 * 4 = o := Nat.div_mul_cancel (Nat.dvd_of_mod_eq_zero h4)
  unfold regAt
  dsimp only
  rw [if_neg hrange, regAddr_mod b ho, regAddr_div b ho, haligned, Nat.add_sub_cancel, hfind]

/-- The low word lies at the register's own address. -/
@[simp] theorem wordAddr_low (a : Nat) : wordAddr a false = a := rfl

/-- The offset of a register's word. -/
def wordOff (off : Nat) (hi : Bool) : Nat := off + if hi then 4 else 0

/-- The words of a register lie in the window of its block. -/
theorem wordAddr_regAddr (b off : Nat) (hi : Bool) : wordAddr (regAddr b off) hi = regAddr b (wordOff off hi) := by
  cases hi <;> rfl

/-- A word's offset is the register's own or four bytes on. -/
theorem wordOff_cases (off : Nat) (hi : Bool) :
    hi = false ∧ wordOff off hi = off ∨ hi = true ∧ wordOff off hi = off + 4 := by
  cases hi
  · exact .inl ⟨rfl, rfl⟩
  · exact .inr ⟨rfl, rfl⟩

/-- Each word of a register that a row holds is found as that register's. -/
theorem RegDesc.Holds.regAt_wordAddr {d : RegDesc} {b k off : Nat} {hi : Bool} (h : d.Holds b regTable) (hb : b < 64)
    (hk : k < d.cnt) (hoff : off = d.off + k * d.step) (hsize : off < 0xFFF8) (h4 : off % 4 = 0)
    (hword : wordOff 0 hi < d.width / 8) (hapart : d.width / 8 ≤ d.step ∨ k = 0 ∧ d.step = 0) :
    regAt (wordAddr (regAddr b off) hi) = some (d, regCanon b off, b, hi) := by
  have hfind := h.regFind (o := wordOff off hi)
    ⟨hk, hoff ▸ Nat.le_add_right off _, by unfold wordOff at hword ⊢; omega, hapart⟩
  rw [← hoff] at hfind
  rw [wordAddr_regAddr]
  obtain ⟨rfl, hw⟩ | ⟨rfl, hw⟩ := wordOff_cases off hi
  · rw [hw] at hfind ⊢
    rw [regAt_regAddr hb (by omega) h4 hfind, decide_eq_false (Nat.lt_irrefl off)]
  · rw [hw] at hfind ⊢
    rw [regAt_regAddr hb (by omega) (by omega) hfind, decide_eq_true (Nat.lt_add_of_pos_right (by decide))]

/-- The same for 64-bit registers in a row, each behind the one before. -/
theorem RegDesc.Holds.regAt_array {d : RegDesc} {b k : Nat} (hi : Bool) (h : d.Holds b regTable) (hb : b < 64) (hk : k < d.cnt)
    (hwidth : d.width = 64) (hstep : d.step = 8) (h4 : d.off % 4 = 0) (hsize : d.off + 8 * k < 0xFFF8) :
    regAt (wordAddr (regAddr b (d.off + 8 * k)) hi) = some (d, regCanon b (d.off + 8 * k), b, hi) :=
  h.regAt_wordAddr (k := k) hb hk (by rw [hstep, Nat.mul_comm]) hsize (by omega) (by rw [hwidth]; cases hi <;> decide)
    (.inl (by omega))

/-! ### The rows with a step of their own -/

/-- A row of the first `m` blocks that no earlier row reaches into holds its registers there. -/
theorem RegDesc.holds_of_range {d : RegDesc} {b m : Nat} (hblocks : d.blocks = List.range m) (hb : b < m)
    (hlisted : d ∈ regTable) (hfirst : ∀ p ∈ regTable.takeWhile (· != d), p.stop ≤ d.off) : d.Holds b regTable :=
  ⟨hlisted, fun p hp => .inr (hfirst p hp), hblocks ▸ List.mem_range.mpr hb⟩

/-- Each word of QU.CLEAR (R106). -/
theorem regAt_quClear {e : Nat} (he : e ≤ 10) (hi : Bool) :
    ∃ d c, regAt (wordAddr (Reg.quClear e) hi) = some (d, c, e, hi) :=
  ⟨⟨List.range 11, 0x818, 0, 1, 64, 0x0, 0x0, 0x0, 0xFFFFFFFFFFFFFFFF⟩, _,
    (RegDesc.holds_of_range rfl (by omega) (by decide) (by decide)).regAt_wordAddr (k := 0) (by omega) (by decide) rfl
      (by decide) (by decide) (by cases hi <;> decide) (.inr ⟨rfl, rfl⟩)⟩

/-- QU.CTL (R103). -/
theorem regAt_quCtl {e : Nat} (he : e ≤ 10) : ∃ d c, regAt (wordAddr (Reg.quCtl e) false) = some (d, c, e, false) :=
  ⟨⟨List.range 11, 0x800, 0, 1, 32, 0x0, 0x1FFFF, 0x0, 0x0⟩, _,
    (RegDesc.holds_of_range rfl (by omega) (by decide) (by decide)).regAt_wordAddr (k := 0) (by omega) (by decide) rfl
      (by decide) (by decide) (by decide) (.inr ⟨rfl, rfl⟩)⟩

/-- Each word of QU.WATCHn (R107). -/
theorem regAt_quWatch {e n : Nat} (he : e ≤ 10) (hn : n < 64) (hi : Bool) :
    ∃ d c, regAt (wordAddr (Reg.quWatch e n) hi) = some (d, c, e, hi) := by
  have hrow : RegDesc.Holds ⟨List.range 11, 0x900, 8, 64, 64, 0x0, 0x8007FFFF0000FFFF, 0x0, 0x0⟩ e regTable :=
    RegDesc.holds_of_range rfl (by omega) (by decide) (by decide)
  exact ⟨_, _, hrow.regAt_array hi (by omega) hn rfl rfl (by decide) (by dsimp only; omega)⟩

/-- Each word of ME.DGRPn and of ME.DPEERn, through the window of any matrix engine (R206). -/
theorem regAt_meDgrp {e n : Nat} (he : e ≤ 4) (hn : n < 8) (peer hi : Bool) :
    ∃ d c, regAt (wordAddr (regAddr e ((if peer then 0x140 else 0x100) + 8 * n)) hi) = some (d, c, e, hi) := by
  cases peer with
  | false =>
    have hrow : RegDesc.Holds ⟨List.range 5, 0x100, 8, 8, 64, 0x0, 0x8007FFFFFFFF0000, 0x0, 0x0⟩ e regTable :=
      RegDesc.holds_of_range rfl (by omega) (by decide) (by decide)
    exact ⟨_, _, hrow.regAt_array hi (by omega) hn rfl rfl (by decide) (by dsimp only; omega)⟩
  | true =>
    have hrow : RegDesc.Holds ⟨List.range 5, 0x140, 8, 8, 64, 0x0, 0xFFFFFFFFFFFFFFFF, 0x0, 0x0⟩ e regTable :=
      RegDesc.holds_of_range rfl (by omega) (by decide) (by decide)
    exact ⟨_, _, hrow.regAt_array hi (by omega) hn rfl rfl (by decide) (by dsimp only; omega)⟩

/-- Each word of TU.NBRn (R390). -/
theorem regAt_tuNbr {n : Nat} (hn : n < 8) (hi : Bool) :
    ∃ d c, regAt (wordAddr (Reg.tuNbr n) hi) = some (d, c, 31, hi) := by
  have hrow : RegDesc.Holds ⟨[31], 0x40, 8, 8, 64, 0x0, 0x83FFFFFFFFF7FFFF, 0x0, 0x0⟩ 31 regTable :=
    ⟨by decide, by decide, by decide⟩
  exact ⟨_, _, hrow.regAt_array hi (by decide) hn rfl rfl (by decide) (by dsimp only; omega)⟩

/-- KM.CTL (R276). -/
theorem regAt_kmCtl : ∃ d c, regAt (wordAddr Reg.kmCtl false) = some (d, c, 38, false) :=
  ⟨⟨[38], 0x4, 0, 1, 32, 0x0, 0x1, 0x0, 0x0⟩, Reg.kmCtl, by decide⟩

/-- AF.BEAMCTL (R477). -/
theorem regAt_afBeamctl : ∃ d c, regAt (wordAddr Reg.afBeamctl false) = some (d, c, 12, false) :=
  ⟨⟨[12], 0x20, 0, 1, 32, 0x0, 0x0, 0x0, 0x1⟩, Reg.afBeamctl, by decide⟩

/-- MC.TRAIN (R667). -/
theorem regAt_mcTrain :
    regAt (wordAddr Reg.mcTrain false) =
      some (⟨[15], 0x10, 0, 1, 32, 0x7D0, 0xFFFF, 0x0, 0x80000000⟩, Reg.mcTrain, 15, false) := by
  decide

/-- TU.LEND (R390). -/
theorem regAt_tuLend : ∃ d c, regAt (wordAddr Reg.tuLend false) = some (d, c, 31, false) :=
  ⟨⟨[31], 0x10, 0, 1, 32, 0x0, 0x8000FFFF, 0x0, 0x0⟩, Reg.tuLend, by decide⟩

/-! ### The owner's word to them -/

section
variable (s : State) (d : RegDesc) (c : Nat) (hi : Bool) (v : W32)

/-- From offset 0x100 on an engine's window holds no SEL register. -/
theorem State.ownerWrite_engine {b o : Nat} (hb : b ≤ 10) (ho : 0x100 ≤ o) :
    s.ownerWrite d c b o hi v = s.writeEngineReg d c b o hi v := by
  have hsel : isSel b o = false := by simp [isSel]; omega
  simp [State.ownerWrite, hsel, hb]

/-- QU.CLEAR clears watches (R106). -/
theorem State.ownerWrite_quClear {e : Nat} (he : e ≤ 10) : s.ownerWrite d c e 0x818 hi v = s.clearWatches e hi v := by
  simp [State.ownerWrite_engine s d c hi v he, State.writeEngineReg]

/-- QU.CTL is written as watch 64 (R99). -/
theorem State.ownerWrite_quCtl {e : Nat} (he : e ≤ 10) : s.ownerWrite d c e 0x800 hi v = s.watchWrite e 64 hi v := by
  simp [State.ownerWrite_engine s d c hi v he, State.writeEngineReg]

/-- QU.WATCHn is written as watch n (R99). -/
theorem State.ownerWrite_quWatch {e n : Nat} (he : e ≤ 10) (hn : n < 64) :
    s.ownerWrite d c e (0x900 + 8 * n) hi v = s.watchWrite e n hi v := by
  rw [State.ownerWrite_engine s d c hi v he (by omega)]
  unfold State.writeEngineReg
  rw [if_neg (by omega), if_neg (by omega), if_neg (by omega), if_pos (by omega),
    show (0x900 + 8 * n - 0x900) / 8 = n by omega]

/-- ME.DGRPn and ME.DPEERn are written as those of digest group n (R200). -/
theorem State.ownerWrite_meDgrp {e n : Nat} (he : e ≤ 4) (hn : n < 8) (peer : Bool) :
    s.ownerWrite d c e ((if peer then 0x140 else 0x100) + 8 * n) hi v = s.dgrpWrite n peer hi v := by
  rw [State.ownerWrite_engine s d c hi v (by omega) (by split <;> omega)]
  unfold State.writeEngineReg
  cases peer with
  | false =>
    rw [if_pos (by simp; omega), show ((if false = true then 0x140 else 0x100) + 8 * n) % 0x40 / 8 = n by simp; omega,
      decide_eq_false (by simp; omega)]
  | true =>
    rw [if_pos (by simp; omega), show ((if true = true then 0x140 else 0x100) + 8 * n) % 0x40 / 8 = n by simp; omega,
      decide_eq_true (by simp)]

/-- KM.CTL takes MODE (R270). -/
theorem State.ownerWrite_kmCtl : s.ownerWrite d c 38 0x4 hi v = s.writeKmCtl v := by
  simp [State.ownerWrite, isSel]

/-- AF.BEAMCTL commits the beam where bit 0 is set (R457). -/
theorem State.ownerWrite_afBeamctl : s.ownerWrite d c 12 0x20 hi v = if v.getLsbD 0 then s.commitBeam else s := by
  simp [State.ownerWrite, isSel, bit, BitVec.getLsbD, Nat.testBit_zero]

/-- MC.TRAIN trains (R661). -/
theorem State.ownerWrite_mcTrain : s.ownerWrite d c 15 0x10 hi v = s.trainWrite d v := by
  simp [State.ownerWrite, isSel]

/-- TU.LEND lends channels (R355). -/
theorem State.ownerWrite_tuLend : s.ownerWrite d c 31 0x10 hi v = s.writeLend v := by
  simp [State.ownerWrite, isSel]

/-- TU.NBRn is written as neighbour entry n (R357). -/
theorem State.ownerWrite_tuNbr {n : Nat} (hn : n < 8) : s.ownerWrite d c 31 (0x40 + 8 * n) hi v = s.writeNbr n hi v := by
  have hsel : isSel 31 (0x40 + 8 * n) = false := by simp [isSel]; omega
  have hlend : 0x40 + 8 * n ≠ 0x10 := by omega
  have hin : 0x40 + 8 * n < 0x80 := by omega
  simp [State.ownerWrite, hsel, hlend, hin]

end

/-- A performed REG_WRITE by the owner of one word of a register whose block is out of reset: the step of that register on
the state with the request taken, and OK. -/
theorem State.regWriteMsg_owner {s t : State} {rid b off c : Nat} {hi : Bool} {v : W32} {d : RegDesc}
    (hp : s.Performs .owner Msg.regWrite 0) (hr : s.inReset b = false)
    (hat : regAt (wordAddr (regAddr b off) hi) = some (d, c, b, hi)) (hoff : off < 0xFFF8) (h4 : off % 4 = 0)
    (hstep : (s.takeRequest .owner rid Msg.regWrite).ownerWrite d c b off hi v = t) :
    s.regWriteMsg .owner rid (wordAddr (regAddr b off) hi) [v] = .next (t.reply .owner Msg.regWrite rid Code.ok []) := by
  have hrange := regAt_range hat
  have hspan : controlAddr (wordAddr (regAddr b off) hi) = true := by simpa [controlSpan] using controlSpan_one hat
  have hpart : wordOff off hi < 0x10000 ∧ wordOff off hi % 4 = 0 := by
    obtain ⟨-, hw⟩ | ⟨-, hw⟩ := wordOff_cases off hi <;> omega
  have hmod := regAddr_mod b hpart.1
  rw [← wordAddr_regAddr] at hmod
  rw [State.regWriteMsg_one hp (by omega) hspan,
    State.writeWord_owner (s := s.takeRequest .owner rid Msg.regWrite) (by omega) (by omega) hat hr, hmod, wordOff,
    Nat.add_sub_cancel, hstep]

/-! ### QU.CLEAR (R106) -/

/-- Watch `n` of engine `e` clears: its count, its DRIFT bit, its prescaler and its mark. -/
def State.clearWatch (s : State) (e n : Nat) : State :=
  ((s.setReg (Reg.quSatcnt e n) 0).setF (Reg.quDrift e) n n 0).updEngine e
    (fun g => { g with prescale := Map.del g.prescale n, drifted := g.drifted.filter (fun k => k != n) })

/-- A word to QU.CLEAR clears the watches of its bits one after another. -/
theorem State.clearWatches_eq (s : State) (e : Nat) (hi : Bool) (v : W32) :
    s.clearWatches e hi v = (List.range 32).foldl
      (fun s i => if bit v.toNat i then s.clearWatch e (if hi then 32 + i else i) else s) s := rfl

/-- The count and the DRIFT bit of watch `n` of engine `e` are clear. -/
structure State.WatchClear (s : State) (e n : Nat) : Prop where
  count : s.reg (Reg.quSatcnt e n) = 0
  drift : s.getF (Reg.quDrift e) n n = 0

/-- No count shares its address with DRIFT. -/
theorem Reg.quSatcnt_ne_quDrift (e n : Nat) : Reg.quSatcnt e n ≠ Reg.quDrift e := by
  unfold Reg.quSatcnt Reg.quDrift regAddr
  omega

/-- A field of DRIFT after a watch clears is as setF leaves it. -/
theorem State.getF_clearWatch_drift (s : State) (e n m : Nat) :
    (s.clearWatch e n).getF (Reg.quDrift e) m m =
      ((s.setReg (Reg.quSatcnt e n) 0).setF (Reg.quDrift e) n n 0).getF (Reg.quDrift e) m m := rfl

/-- A count after a watch clears is as setReg leaves it. -/
theorem State.reg_clearWatch_count (s : State) (e n m : Nat) :
    (s.clearWatch e n).reg (Reg.quSatcnt e m) = (s.setReg (Reg.quSatcnt e n) 0).reg (Reg.quSatcnt e m) :=
  State.reg_setReg_of_ne _ _ (Reg.quSatcnt_ne_quDrift e m)

/-- A watch that clears is clear. -/
theorem State.clearWatch_clear (s : State) (e : Nat) {n : Nat} (hn : n < 64) : (s.clearWatch e n).WatchClear e n := by
  refine ⟨?_, ?_⟩
  · rw [State.reg_clearWatch_count, State.reg_setReg_self, Nat.zero_mod]
  · rw [State.getF_clearWatch_drift, State.getF_setF_self _ _ _ _ _ hn, Nat.zero_mod]

/-- A watch that is clear stays so when another clears. -/
theorem State.WatchClear.clearWatch {s : State} {e m : Nat} (h : s.WatchClear e m) (hm : m < 64) (n : Nat) :
    (s.clearWatch e n).WatchClear e m := by
  obtain ⟨hcount, hdrift⟩ := h
  by_cases hmn : m = n
  · exact hmn ▸ s.clearWatch_clear e hm
  · refine ⟨?_, ?_⟩
    · have hne : Reg.quSatcnt e m ≠ Reg.quSatcnt e n := by unfold Reg.quSatcnt regAddr; omega
      rw [State.reg_clearWatch_count, State.reg_setReg_of_ne _ _ hne, hcount]
    · rw [State.getF_clearWatch_drift, State.getF_setF_disjoint _ _ _ _ _ _ _ hm (Nat.le_refl n) (by omega)]
      unfold State.getF
      rw [State.reg_setReg_of_ne _ _ (Reg.quSatcnt_ne_quDrift e n).symm]
      exact hdrift

/-- A fold reaches what its step at one element of the list reaches and every step keeps. -/
theorem foldl_reaches {α β : Type} {f : β → α → β} {P : β → Prop} {l : List α} {a : α} (ha : a ∈ l)
    (hreach : ∀ b, P (f b a)) (hkeep : ∀ b x, P b → P (f b x)) (b : β) : P (l.foldl f b) := by
  obtain ⟨pre, post, rfl⟩ := List.append_of_mem ha
  rw [List.foldl_append, List.foldl_cons]
  exact List.foldlRecOn post f (hreach _) fun b hb x _ => hkeep b x hb

/-- Every watch that a word to QU.CLEAR names is clear after it. -/
theorem State.clearWatches_clear (s : State) (e : Nat) (hi : Bool) {v : W32} {i : Nat} (hi32 : i < 32)
    (hbit : v.getLsbD i = true) : (s.clearWatches e hi v).WatchClear e (if hi then 32 + i else i) := by
  have hn : (if hi then 32 + i else i) < 64 := by split <;> omega
  have hset : bit v.toNat i = true := by
    rw [← hbit, ← BitVec.testBit_toNat, Nat.testBit_eq_decide_div_mod_eq]
    rfl
  rw [State.clearWatches_eq]
  refine foldl_reaches (P := fun u => u.WatchClear e (if hi then 32 + i else i)) (List.mem_range.mpr hi32)
    (fun u => ?_) (fun u k hu => ?_) s
  · rw [if_pos hset]
    exact u.clearWatch_clear e hn
  · split
    · exact hu.clearWatch hn _
    · exact hu

/-! ### Writes that are held (R99, R200) -/

/-- While the engine's command runs or waits inside itself, a watch write joins those held and changes no register. -/
theorem State.watchWrite_held {s : State} {e : Nat} (n : Nat) (hi : Bool) (v : W32)
    (hbusy : (s.engine e).running.isSome = true ∨ (s.engWaits e).any Wait.inner = true) (he : e < s.engines.length) :
    (s.watchWrite e n hi v).regs = s.regs ∧
      ((s.watchWrite e n hi v).engine e).heldWatch = (s.engine e).heldWatch ++ [(n, hi, v)] := by
  have hheld : s.watchWrite e n hi v = s.updEngine e (fun g => { g with heldWatch := g.heldWatch ++ [(n, hi, v)] }) :=
    if_pos (Bool.or_eq_true_iff.mpr hbusy)
  rw [hheld, State.engine_updEngine_self s e _ he]
  exact ⟨rfl, rfl⟩

/-- While a DIGEST of the group waits, a write of the group joins those held. -/
theorem State.dgrpWrite_held {s : State} {n : Nat} (peer hi : Bool) (v : W32) (hwait : Map.find s.dig.waiting n ≠ none) :
    s.dgrpWrite n peer hi v = { s with dig := { s.dig with held := s.dig.held ++ [(n, peer, hi, v)] } } :=
  if_pos (Option.isSome_iff_ne_none.mpr hwait)

/-! ### The commands: each performs its register's step on the state with the request taken, and answers OK -/

section
variable {s : State} (hp : s.Performs .owner Msg.regWrite 0) (rid : Nat) (v : W32)
include hp

theorem execQuClear_owner {e : Nat} (he : e ≤ 10) (hi : Bool) (hr : s.inReset e = false) :
    execQuClear .owner rid e hi v s =
      .next (((s.takeRequest .owner rid Msg.regWrite).clearWatches e hi v).reply .owner Msg.regWrite rid Code.ok []) := by
  obtain ⟨d, c, hat⟩ := regAt_quClear he hi
  exact State.regWriteMsg_owner hp hr hat (by decide) (by decide) (State.ownerWrite_quClear _ d c hi v he)

theorem execQuWatchWrite_watch {e n : Nat} (he : e ≤ 10) (hn : n < 64) (hi : Bool) (hr : s.inReset e = false) :
    execQuWatchWrite .owner rid e n hi v s =
      .next (((s.takeRequest .owner rid Msg.regWrite).watchWrite e n hi v).reply .owner Msg.regWrite rid Code.ok []) := by
  obtain ⟨d, c, hat⟩ := regAt_quWatch he hn hi
  unfold execQuWatchWrite
  rw [if_neg (by omega), if_neg (by omega)]
  exact State.regWriteMsg_owner hp hr hat (by omega) (by omega) (State.ownerWrite_quWatch _ d c hi v he hn)

theorem execQuWatchWrite_ctl {e : Nat} (he : e ≤ 10) (hi : Bool) (hr : s.inReset e = false) :
    execQuWatchWrite .owner rid e 64 hi v s =
      .next (((s.takeRequest .owner rid Msg.regWrite).watchWrite e 64 false v).reply .owner Msg.regWrite rid Code.ok []) := by
  obtain ⟨d, c, hat⟩ := regAt_quCtl he
  unfold execQuWatchWrite
  rw [if_neg (by omega), if_pos rfl, ← wordAddr_low (Reg.quCtl e)]
  exact State.regWriteMsg_owner hp hr hat (by decide) (by decide) (State.ownerWrite_quCtl _ d c false v he)

theorem execMeDgrpWrite_owner {e n : Nat} (he : e ≤ 4) (hn : n < 8) (peer hi : Bool) (hr : s.inReset e = false) :
    execMeDgrpWrite .owner rid e n peer hi v s =
      .next (((s.takeRequest .owner rid Msg.regWrite).dgrpWrite n peer hi v).reply .owner Msg.regWrite rid Code.ok []) := by
  obtain ⟨d, c, hat⟩ := regAt_meDgrp he hn peer hi
  unfold execMeDgrpWrite
  rw [if_neg (by omega)]
  exact State.regWriteMsg_owner hp hr hat (by split <;> omega) (by split <;> omega)
    (State.ownerWrite_meDgrp _ d c hi v he hn peer)

theorem execKmModeWrite_owner (hr : s.inReset 38 = false) :
    execKmModeWrite .owner rid v s =
      .next (((s.takeRequest .owner rid Msg.regWrite).writeKmCtl v).reply .owner Msg.regWrite rid Code.ok []) := by
  obtain ⟨d, c, hat⟩ := regAt_kmCtl
  exact State.regWriteMsg_owner hp hr hat (by decide) (by decide) (State.ownerWrite_kmCtl _ d c false v)

theorem execAfBeamCommit_owner (hr : s.inReset 12 = false) :
    let u := s.takeRequest .owner rid Msg.regWrite
    execAfBeamCommit .owner rid v s =
      .next ((if v.getLsbD 0 then u.commitBeam else u).reply .owner Msg.regWrite rid Code.ok []) := by
  obtain ⟨d, c, hat⟩ := regAt_afBeamctl
  exact State.regWriteMsg_owner hp hr hat (by decide) (by decide) (State.ownerWrite_afBeamctl _ d c false v)

theorem execMcRetrain_owner {d : RegDesc} {c b : Nat} (hat : regAt Reg.mcTrain = some (d, c, b, false))
    (hr : s.inReset b = false) :
    execMcRetrain .owner rid v s =
      .next (((s.takeRequest .owner rid Msg.regWrite).trainWrite d v).reply .owner Msg.regWrite rid Code.ok []) := by
  cases hat.symm.trans regAt_mcTrain
  exact State.regWriteMsg_owner hp hr regAt_mcTrain (by decide) (by decide) (State.ownerWrite_mcTrain _ _ _ false v)

theorem execTuNbrWrite_owner {n : Nat} (hn : n < 8) (hi : Bool) (hr : s.inReset 31 = false) :
    execTuNbrWrite .owner rid n hi v s =
      .next (((s.takeRequest .owner rid Msg.regWrite).writeNbr n hi v).reply .owner Msg.regWrite rid Code.ok []) := by
  obtain ⟨d, c, hat⟩ := regAt_tuNbr hn hi
  unfold execTuNbrWrite
  rw [if_neg (by omega)]
  exact State.regWriteMsg_owner hp hr hat (by omega) (by omega) (State.ownerWrite_tuNbr _ d c hi v hn)

theorem execTuLendWrite_owner (hr : s.inReset 31 = false) :
    execTuLendWrite .owner rid v s =
      .next (((s.takeRequest .owner rid Msg.regWrite).writeLend v).reply .owner Msg.regWrite rid Code.ok []) := by
  obtain ⟨d, c, hat⟩ := regAt_tuLend
  exact State.regWriteMsg_owner hp hr hat (by decide) (by decide) (State.ownerWrite_tuLend _ d c false v)

end

/-- Settles O14: each write is the lemma of its command, and what a write clears or holds that of its step. -/
theorem ownerWritesWithAStepOfTheirOwn : Obligations.OwnerWritesWithAStepOfTheirOwn := by
  refine ⟨fun s rid v hp =>
      ⟨fun e hi he hr => execQuClear_owner hp rid v he hi hr,
        fun e n hi he hn hr => execQuWatchWrite_watch hp rid v he hn hi hr,
        fun e hi he hr => execQuWatchWrite_ctl hp rid v he hi hr,
        fun e n peer hi he hn hr => execMeDgrpWrite_owner hp rid v he hn peer hi hr,
        execKmModeWrite_owner hp rid v,
        execAfBeamCommit_owner hp rid v,
        fun d c b hat hr => execMcRetrain_owner hp rid v hat hr,
        fun n hi hn hr => execTuNbrWrite_owner hp rid v hn hi hr,
        execTuLendWrite_owner hp rid v⟩,
    fun s e i hi v _ hi32 hbit => ?_,
    fun s e n hi v hbusy he => State.watchWrite_held n hi v hbusy he,
    fun s n peer hi v hwait => State.dgrpWrite_held peer hi v hwait⟩
  obtain ⟨hcount, hdrift⟩ := s.clearWatches_clear e hi hi32 hbit
  exact ⟨hcount, hdrift⟩

end Sys2Proof.Machine
end

section
/-!
SUPPORT. How engines are given and taken (R149, R153, R154, R173, R424 to R426, R434): the end of a command, the strand that
leaves its engine, the strand placed next, and what a quantum or a BOUND that has run out does.
-/
namespace Sys2Proof.Machine

/-! ### The end of a command (R99, R192, R382) -/

/-- A command of engine `e` that is done: counted with its wait (EE has no wait count), its segments reported, its walk
closed, and the engine at a command boundary. -/
def State.commandDone (s : State) (e n c sid : Nat) (r : Running) : State :=
  let counted := if e = 10 then s.bump32 (Reg.engCmds e) 1 none
    else (s.bump32 (Reg.engCmds e) 1 none).bump32 (Reg.engWait e) n none
  (((counted.report c r.furrow).closeWalk c sid).updEngine e (fun g => { g with running := none })).boundary e

section
variable {s : State} {e n c sid : Nat} {r : Running} {x : Ctx} {j : JobRun} {t : Strand}

/-- The strand of an active job goes on after its command, leaving the engine where it is asked to yield. -/
theorem execCommandEnd_active (hstrand : (s.engine e).strand = some (c, sid)) (hrun : (s.engine e).running = some r)
    (hup : s.coreUp = true) (hr : s.inReset e = false) (hdone : s.runDone e = true)
    (hat : (s.commandDone e n c sid r).strandAt c sid = some (x, j, t)) (hphase : j.phase = .active) :
    let w := (s.commandDone e n c sid r).proceed c t r.tape r.next
    execCommandEnd e n s = .next (if (w.engine e).strand = some (c, sid) ∧ (w.engine e).yield then
      w.leaveEngine c sid e none none else w) := by
  unfold State.commandDone at hat
  unfold execCommandEnd State.commandDone
  simp only [hstrand, hrun]
  rw [if_neg (by simp [hup, hr, hdone]), hat]
  exact if_pos hphase

/-- With its job stopping the strand is gone. -/
theorem execCommandEnd_stopping (hstrand : (s.engine e).strand = some (c, sid)) (hrun : (s.engine e).running = some r)
    (hup : s.coreUp = true) (hr : s.inReset e = false) (hdone : s.runDone e = true)
    (hat : (s.commandDone e n c sid r).strandAt c sid = some (x, j, t)) (hphase : j.phase ≠ .active) :
    execCommandEnd e n s = .next ((s.commandDone e n c sid r).dropStrand c t) := by
  unfold State.commandDone at hat
  unfold execCommandEnd State.commandDone
  simp only [hstrand, hrun]
  rw [if_neg (by simp [hup, hr, hdone]), hat]
  exact if_neg hphase

/-! ### Leaving an engine (R154, R173, R426) -/

/-- A strand gives up its engine in every wait but that of a fenced signal or of the commit itself. -/
theorem Strand.waitYields_of_isSome (hw : t.wait.isSome = true) (hcommit : t.wait ≠ some .commit)
    (hfence : ∀ all, t.wait ≠ some (.fence all true)) : t.waitYields = true := by
  unfold Strand.waitYields
  cases h : t.wait with
  | none => simp [h] at hw
  | some w =>
    cases w with
    | commit => exact absurd h hcommit
    | fence all signal =>
      cases signal with
      | false => rfl
      | true => exact absurd h (hfence all)
    | _ => rfl

/-- A strand asked to yield leaves inside a command that is preemptible or waits, the command suspended. -/
theorem execStrandSuspend_inside (hstrand : (s.engine e).strand = some (c, sid)) (hat : s.strandAt c sid = some (x, j, t))
    (hyield : (s.engine e).yield = true) (hup : s.coreUp = true) (hr : s.inReset e = false)
    (hrun : (s.engine e).running = some r) (hpoint : r.preempt = true ∨ (s.innerWait e).isSome = true) :
    execStrandSuspend e s = .next (if j.phase = .active then s.suspend c sid e x r else s.dropStrand c t) := by
  have hmay : ¬ ((!r.preempt) = true ∧ (s.innerWait e).isNone = true) := by
    rintro ⟨hpre, hnone⟩
    obtain hpre' | hsome := hpoint
    · simp [hpre'] at hpre
    · rw [Option.isNone_iff_eq_none.mp hnone] at hsome
      cases hsome
  unfold execStrandSuspend
  rw [hstrand]
  simp only [hat]
  rw [if_neg (by simp [hyield, hup, hr]), hrun]
  simp only [if_neg hmay]
  exact (apply_ite Host.Outcome.next _ _ _).symm

/-- A strand asked to yield leaves between two commands, unless it waits where it may not yield. -/
theorem execStrandSuspend_between (hstrand : (s.engine e).strand = some (c, sid)) (hat : s.strandAt c sid = some (x, j, t))
    (hyield : (s.engine e).yield = true) (hup : s.coreUp = true) (hr : s.inReset e = false)
    (hrun : (s.engine e).running = none) (hmay : t.wait.isSome = true → t.waitYields = true) :
    execStrandSuspend e s =
      .next (if j.phase = .active then s.leaveEngine c sid e t.held none else s.dropStrand c t) := by
  unfold execStrandSuspend
  rw [hstrand]
  simp only [hat]
  rw [if_neg (by simp [hyield, hup, hr]), hrun]
  simp only
  rw [if_neg fun ⟨hw, hno⟩ => by simp [hmay hw] at hno]
  exact (apply_ite Host.Outcome.next _ _ _).symm

end

/-! ### Placement (R424, R425) -/

section
variable {s : State} {p : Ready}

/-- The strand chosen, where its field holds an engine of its kind, is placed on the engine that is free for it. -/
theorem execPlaceStrand_places {e : Nat} (hup : s.dxUp = true)
    (hp : s.readyStrands.find? (fun p => !(List.range 11).any (s.engineSuits p.2.1 p.2.2) ||
      (s.engineFor p.2.1 p.2.2).isSome) = some p)
    (hsuits : (List.range 11).any (s.engineSuits p.2.1 p.2.2) = true) (he : s.engineFor p.2.1 p.2.2 = some e) :
    execPlaceStrand s = .next (s.place p.1 p.2.2 e) := by
  unfold execPlaceStrand
  rw [if_neg (by simp [hup])]
  simp only [hp, hsuits, he]
  rfl

/-- The strand chosen, where its field holds no engine of its kind, ends its job. -/
theorem execPlaceStrand_noEngine (hup : s.dxUp = true)
    (hp : s.readyStrands.find? (fun p => !(List.range 11).any (s.engineSuits p.2.1 p.2.2) ||
      (s.engineFor p.2.1 p.2.2).isSome) = some p)
    (hsuits : (List.range 11).any (s.engineSuits p.2.1 p.2.2) = false) :
    execPlaceStrand s = .next (s.endJob p.1 Code.noEngine) := by
  unfold execPlaceStrand
  rw [if_neg (by simp [hup])]
  simp only [hp, hsuits]
  rfl

end

/-! ### QUANTUM and BOUND (R153, R426, R434) -/

section
variable {s : State} {e c sid : Nat} {x : Ctx}

/-- A strand that holds an engine past QUANTUM while another is ready for the kind is asked to yield. -/
theorem execQuantumExpiry_asks {f : FieldRec} (hstrand : (s.engine e).strand = some (c, sid)) (hx : s.ctx c = some x)
    (hf : s.fieldRec x.field = some f) (hshared : f.isolated = false) (hquantum : s.getF Reg.dxCtl 31 16 ≠ 0)
    (hup : s.dxUp = true) (hready : s.readyStrands.any (fun p => s.tapeKind p.2.2.tape == engineKind e) = true) :
    execQuantumExpiry e s = .next (s.updEngine e (fun g => { g with yield := true })) := by
  unfold execQuantumExpiry
  rw [hstrand]
  simp only [hx, Option.bind_some, hf]
  exact if_pos ⟨by simp [hshared], hquantum, hup, hready⟩

/-- A run past a BOUND that is not 0 is counted and posted: without P once. -/
theorem execBoundOverrun_counts {r : Running} (hstrand : (s.engine e).strand = some (c, sid))
    (hrun : (s.engine e).running = some r) (hx : s.ctx c = some x) (hbound : r.bound ≠ 0)
    (hnew : r.overrun = false ∨ r.preempt = true) :
    let u := (s.updRunning e (fun r => { r with overrun := true })).bump (Reg.dxFover x.field) 15 0 32 1 (some x.field)
    execBoundOverrun e s = .next ((u.post Code.boundOverrun 39 x.field (natLE 1 e ++ natLE 2 c)).postOwner
      Code.boundOverrun 39 (natLE 1 e ++ natLE 2 c)) := by
  unfold execBoundOverrun
  simp only [hstrand, hrun, hx]
  refine if_neg ?_
  rintro (h0 | ⟨hover, hpre⟩)
  · exact hbound h0
  · obtain hno | hp := hnew
    · simp [hno] at hover
    · simp [hp] at hpre

end

/-- Settles O44: each clause is the lemma of its command. -/
theorem enginesAreGivenAndTaken : Obligations.EnginesAreGivenAndTaken := by
  refine ⟨fun s e n c sid r hstrand hrun hup hr hdone x j t hat =>
      ⟨fun hphase => execCommandEnd_active hstrand hrun hup hr hdone hat hphase,
        fun hphase => execCommandEnd_stopping hstrand hrun hup hr hdone hat hphase⟩,
    fun s e c sid x j t hstrand hat hyield hup hr =>
      ⟨fun r hrun hpoint => execStrandSuspend_inside hstrand hat hyield hup hr hrun hpoint,
        fun hrun hcommit hfence => execStrandSuspend_between hstrand hat hyield hup hr hrun
          fun hw => Strand.waitYields_of_isSome hw hcommit hfence⟩,
    fun s p hup hp => ⟨fun e hsuits he => execPlaceStrand_places hup hp hsuits he,
      fun hsuits => execPlaceStrand_noEngine hup hp hsuits⟩,
    fun s e c sid x f hstrand hx hf hshared hquantum hup hready =>
      execQuantumExpiry_asks hstrand hx hf hshared hquantum hup hready,
    fun s e c sid r x hstrand hrun hx hbound hnew => execBoundOverrun_counts hstrand hrun hx hbound hnew⟩

end Sys2Proof.Machine
end
